-- ==== Sys2Proof/Word.lean ====
section
/-! DEFINITION. The byte and the words of the part (R3, R4): eight-bit bytes, 64-bit memory words, 512-bit descriptors held as numbers. -/

namespace Sys2Proof

/-- A byte (R3). -/
abbrev Byte := BitVec 8

/-- A 64-bit word, the unit of every memory code (R372). -/
abbrev Word := BitVec 64

end Sys2Proof
end

