-- ==== Sys2Proof/Syntax.lean ====
section
/-! DEFINITION. The commands of the block: one constructor for each row of spec/opcode_table.json, with the operands of its event. Numbers are plain; WellFormed.lean gives their ranges. -/

namespace Sys2Proof

/-- Where a Catalogue request is taken from (R34, R42, R50): a function's PCIe window, whose registers hold the request (0 the physical function, n + 1 virtual function n), or an Ethernet frame of the field network that carries a Lormal frame in a UDP datagram (R49). -/
inductive Src where
  | window (fn : Nat)
  | frame (bytes : List Byte)
deriving DecidableEq, Repr

/-- A Catalogue request (R42, R50, R51). -/
structure Request where
  op        : Nat
  acc       : Nat
  sub       : Nat
  length    : Nat
  offset    : Nat
  describe  : Bool
  snapshot  : Bool
  last      : Bool
  data      : List Byte
deriving DecidableEq, Repr

/-- What a physical upset of an array or a duplicated unit does to the result row that leaves (R153-R157): nothing, an error added to one column's sum of one 32-element block, in units of 2^exp, or a disagreement of the duplicates in the path a checker number names. -/
inductive Upset where
  | none
  | column (block column : Nat) (error : Int) (exp : Int)
  | duplicate (checker : Nat)
deriving DecidableEq, Repr

/-- What the memory's cells and wires did to a read (R368, R398): stored bits inverted beforehand, by word address and mask over 72 bits, data below check; command-parity and data-parity retries of the access; and whether a data-parity retry failed again. -/
structure Parity where
  upsets : List (Nat × Nat)
  command : Nat
  data   : Nat
  failed : Bool
deriving DecidableEq, Repr

/-- What goes wrong with a word on a fabric link (R374-R376): bits of its 80-bit code word are inverted, by a mask; it is lost; or it arrives twice. -/
inductive LinkSlip where
  | flips (mask : Nat)
  | lost
  | again
deriving DecidableEq, Repr

/-- An admission (R365): the ns since the hall's last one, the fabric channel that the data takes and what happens to its words on the way, by hop and word, and what the memory does to the access (R368). -/
structure Admission where
  ns      : Nat := 0
  channel : Nat := 0
  slips   : List (Nat × Nat × LinkSlip) := []
  parity  : Parity := ⟨[], 0, 0, false⟩
deriving DecidableEq, Repr

/-- Why a receiving lane fails (R418): it loses clock or codeword lock, or its symbol error ratio over 1 ms, in units of 10⁻⁸, is too high. -/
inductive LaneCause where
  | clock
  | codewords
  | errors (ratio : Nat)
deriving DecidableEq, Repr

/-- The lane fails, where LANE_SER_LIMIT is the limit (R418). -/
def LaneCause.fails (limit : Nat) : LaneCause → Bool
  | .clock => true
  | .codewords => true
  | .errors ratio => decide (limit < ratio)

/-- What a timing frame says on its return (R74): the round trip in ns, and the MARKER_LEAD that its sender holds. -/
structure Timing where
  trip : Nat
  lead : Nat
deriving DecidableEq, Repr

/-- What goes wrong inside a core as it runs a descriptor: its sequencers disagree on a command (R86, R163), or a checker that the check column does not stand for finds a fault (R157): the parity of weight rows, the vector unit's mod-3 residues, its duplicated function units. -/
inductive Slip where
  | lockstep
  | weightRow
  | residue
  | duplicate
deriving DecidableEq, Repr

/-- A start of a stage group (R81): the group by its first slot, and what its members' programs meet on the way, by slot and position in the program: upsets (R157, R163), and heavy descriptors whose passes form the real part of a complex product (R131), which no field of a descriptor says. -/
structure GroupStart where
  leader : Nat
  slips  : List (Nat × Nat × Slip) := []
  realPart : List (Nat × Nat) := []
deriving DecidableEq, Repr

/-- A set of blocks of the package, as the tests report it (R592, R597, R600): cores as a bit set per hall, and bit sets of hall stores, stacks, router slices, fabrics, doors, and of the lanes of each door. -/
structure Blocks where
  cores   : List Nat
  stores  : Nat
  hbmStacks  : Nat
  routers : Nat
  fabrics : Nat
  doors   : Nat
  lanes   : List Nat
deriving DecidableEq, Repr

/-- What a target package answers to a forwarded request or command (R522). -/
inductive ForwardAnswer where
  | catalogue (fn code : Nat) (data : List Byte)
  | bar4 (fn : Nat) (status : Nat) (data : List Byte)
  | image (wing handle : Nat) (accepted : Bool)
  | command (wing kind code : Nat)
  | shipment (wing ship status : Nat)
deriving DecidableEq, Repr

/-- The commands (spec/opcode_table.json). -/
inductive Instr where
  /-- READ (R42): A Catalogue READ request, taken from a PCIe window or a Lormal frame, returns an object's value, or ACCESS, NO_OBJECT or another result code. -/
  | read (src : Src)
  /-- DESCRIBE (R22): A READ with the describe flag set returns the object's 16-byte description in place of its value. -/
  | describe (src : Src)
  /-- SNAPSHOT (R40): A READ of a record's subindex 0 with the snapshot flag set returns every member as it stood at one beat seal. -/
  | snapshot (src : Src)
  /-- WRITE (R28): A Catalogue WRITE checks type, length, access class and range, then stores the value, or latches it at the next beat open when the object is flagged to apply at beat open. -/
  | write (src : Src)
  /-- READ_BLOCK (R25): READ_BLOCK returns one segment of a DOMAIN object, from its offset up to the requested length or the object's current length. -/
  | readBlock (src : Src)
  /-- WRITE_BLOCK (R39): WRITE_BLOCK accepts one segment of a DOMAIN object under the requester's claim, and replaces the value when the last segment is accepted. -/
  | writeBlock (src : Src)
  /-- SESSION_OPEN_PHASE1 (R55): A client's phase-1 SESSION_OPEN, on Lormal or through the physical-function window, names a key slot; the device answers with the phase-2 payload signed by its identity key. -/
  | sessionOpenPhase1 (src : Src)
  /-- SESSION_OPEN_PHASE3 (R57): The client's phase-3 signature is verified, and the device sends a tagged phase 4 that grants the slot's role or refuses with ACCESS. -/
  | sessionOpenPhase3 (src : Src)
  /-- SESSION_CLOSE (R58): A read of 0x1022:02 SESSION_CLOSE closes the caller's session. -/
  | sessionClose (src : Src)
  /-- HALF_OPEN_TIMEOUT (R57): A half-open session is discarded when phase 3 has not arrived within 5 s of phase 2. -/
  | halfOpenTimeout (session : Nat)
  /-- SESSION_IDLE_TIMEOUT (R58): A Lormal session, or the physical-function window session, closes after 60 s with no request. -/
  | sessionIdleTimeout (session : Nat)
  /-- DOMAIN_CLAIM_EXPIRY (R39): A claim on a DOMAIN object ends when 1 s passes with no segment. -/
  | domainClaimExpiry (key : Nat)
  /-- CATALOGUE_FORWARD_TIMEOUT (R33): A request forwarded over the torus that is unanswered after 20 ms completes with TIMEOUT. -/
  | catalogueForwardTimeout (fn : Nat)
  /-- CATALOGUE_FORWARD (R616): A target package takes a Catalogue-forward packet from the anchor and serves the request in the view it names, or drops it on a view or wing mismatch. -/
  | catalogueForward (source wing view : Nat) (req : Request) (highFor : Nat)
  /-- PERSIST_WRITE_COMPLETE (R30): The flash write of a persistent object completes, and PERSIST_PENDING returns to 0. -/
  | persistWriteComplete (key : Nat)
  /-- REGISTER_WRITE (R43): A write to a PCIe register that has no row of its own (CAT_REQ, CAT_OFFSET, NOTE_TAIL and the like) stores the value, or is ignored where its rule says so. -/
  | registerWrite (fn bar offset : Nat) (data : List Byte)
  /-- CAT_DOORBELL_GO (R43): A GO written to CAT_DOORBELL starts the request held in the window's registers, and is ignored while BUSY is 1. -/
  | catDoorbellGo (fn : Nat)
  /-- HALT (R68): Wing command 1 sets STATE to stopping, and the wing halts at the next seal. -/
  | halt (src : Src)
  /-- RUN (R68): Wing command 2, accepted only while the wing is halted, lets the wing run. -/
  | run (src : Src)
  /-- CLEAR_FATAL (R568): Wing command 3, accepted only in the fatal state, releases the wing's rings, launches, flags and job, then sets the wing halted. -/
  | clearFatal (src : Src)
  /-- RESTORE_DEFAULTS (R32): Writing 1 to 0x2100:05 erases the persistent store, so that every persistent object takes its default at the next start. -/
  | restoreDefaults (src : Src)
  /-- WINDOW_WRITE (R67): A write of HBM_BASE or HBM_LIMIT is checked for overlap and range, and every 4 KiB granule the window gains is marked unwritten. -/
  | windowWrite (src : Src)
  /-- HALL_STORE_SHARE_WRITE (R613): A write of HS_BASE or HS_LIMIT is checked for overlap, and every word that leaves a wing's share is set to the unwritten pattern. -/
  | hallStoreShareWrite (src : Src)
  /-- BEAT_BOUNDARY (R69): At each boundary the package latches writes flagged for beat open, resets the shared counters and latches the beat's manifest row. -/
  | beatBoundary
  /-- STREAM_STALL (R363): When a ring's stall count reaches 2 periods, the held descriptor faults with STREAM_STALL. -/
  | streamStall (hall ring : Nat)
  /-- BEAT_MARKER (R76): A member takes a beat marker and places the boundary at the marker's arrival plus MARKER_LEAD, less its own latency. -/
  | beatMarker (beat : Nat) (advance : Bool) (period master skew : Nat)
  /-- MARKER_MISSED (R77): A member that receives no marker for a boundary treats that boundary as a stretch. -/
  | markerMissed
  /-- MARKER_LOSS_ELECTION (R78): After two consecutive periods without a marker, the members elect a new master, which measures MARKER_LEAD again. -/
  | markerLossElection
  /-- MASTER_ELECTION (R73): The master is elected when the courier lane first comes up on every door of the torus. -/
  | masterElection (anchor : Option Nat)
  /-- TIMING_FRAME (R74): A timing frame on the courier lane contributes to the round-trip measurement of one-way latency. -/
  | timingFrame (device : Nat) (roundTrip : Timing)
  /-- BEAT_IN_EDGE (R79): On the master with BEAT_SOURCE 1, a rising edge of BEAT_IN starts a boundary that falls MARKER_LEAD + 100 ns later. -/
  | beatInEdge (departure : Int)
  /-- BEAT_IN_LOST (R79): An edge more than 1% early or late, or two periods without an edge, returns the master to its own timer and logs an F0 record. -/
  | beatInLost (departure : Option Int)
  /-- MASTER_DECISION (R93): At the decision point the master sends ADVANCE when it holds READY from every member, and STRETCH otherwise. -/
  | masterDecision
  /-- OVERRUN_LIMIT (R95): When one beat has been stretched for OVERRUN_LIMIT periods, an F3 record is raised for each unfinished wing, and those wings halt at the next seal. -/
  | overrunLimit
  /-- READY (R82): The master takes a READY(n) message, which also carries slack, ceiling and power. -/
  | ready (device beat slack ceiling power : Nat)
  /-- NOT_READY (R82): The master takes a NOT_READY(n) message, which states whether the package is in recovery. -/
  | notReady (device beat : Nat) (recovering : Bool) (ceiling power : Nat)
  /-- WORK_FINISHED (R82): When every stage group has finished beat n, every earlier beat is committed and no check has failed, the package sends READY(n). -/
  | workFinished (slack : Nat)
  /-- READY_CUTOFF (R82): A package that cannot send READY by its ready cutoff sends NOT_READY at the cutoff. -/
  | readyCutoff
  /-- STAGE_GROUP_START (R81): A stage group starts its work at its offset, or when its last needed input becomes full, whichever is later. -/
  | stageGroupStart (hall : Nat) (leader : GroupStart)
  /-- SEAL_BEGIN (R83): At the start of seal the package samples every check of the beat and forms its verdict. -/
  | sealBegin (lockstep : List Nat)
  /-- COMMIT_TOKEN (R85): A sender's commit token makes the data held pending from that sender for the beat committed. -/
  | commitToken (device beat : Nat)
  /-- WITHDRAW_TOKEN (R85): A withdraw token discards the pending data, returns filling slots to empty and starts the redo of reducing pieces. -/
  | withdrawToken (device beat : Nat)
  /-- SPARING_COMPLETE (R88): When the reserve has been cleared and its resident tiles reloaded, the package starts replaying the beat from committed inputs. -/
  | sparingComplete
  /-- MATMUL (R235): MATMUL is decoded and checked, then walked as row passes and K tiles of array instructions over every outer iteration. lockstep: the two sequencers disagree on a command of it (R163). -/
  | matmul (hall slot : Nat) (lockstep : Bool)
  /-- CHAIN (R253): CHAIN runs a heavy product and then its prologue and epilogue steps, in the fixed order that the chain code selects. -/
  | chain (hall slot : Nat)
  /-- ATTEND (R297): ATTEND computes attention for each query row over visible key blocks, in the two-phase order, with an online softmax. -/
  | attend (hall slot : Nat)
  /-- VECTOR_ADD (R196): VECTOR operation 0x01 adds src0 and src1. -/
  | vectorAdd (hall slot : Nat)
  /-- VECTOR_SUB (R196): VECTOR operation 0x02 subtracts src1 from src0. -/
  | vectorSub (hall slot : Nat)
  /-- VECTOR_MUL (R196): VECTOR operation 0x03 multiplies src0 by src1. -/
  | vectorMul (hall slot : Nat)
  /-- VECTOR_DIV (R196): VECTOR operation 0x04 divides src0 by src1. -/
  | vectorDiv (hall slot : Nat)
  /-- VECTOR_MAX (R196): VECTOR operation 0x05 takes the elementwise maximum. -/
  | vectorMax (hall slot : Nat)
  /-- VECTOR_MIN (R196): VECTOR operation 0x06 takes the elementwise minimum. -/
  | vectorMin (hall slot : Nat)
  /-- VECTOR_CMP_LT (R196): VECTOR operation 0x07 writes 1.0 where src0 < src1, and +0 otherwise. -/
  | vectorCmpLt (hall slot : Nat)
  /-- VECTOR_CMP_EQ (R196): VECTOR operation 0x08 compares src0 and src1 for equality. -/
  | vectorCmpEq (hall slot : Nat)
  /-- VECTOR_FMA (R196): VECTOR operation 0x09 computes src0 × IMMEDIATE + src1, rounded once. -/
  | vectorFma (hall slot : Nat)
  /-- VECTOR_ROWSCALE (R196): VECTOR operation 0x0A multiplies every element of line i by element i of SRC1's single line. -/
  | vectorRowscale (hall slot : Nat)
  /-- VECTOR_COLSCALE (R196): VECTOR operation 0x0B multiplies element j of every line by element j of SRC1's single line. -/
  | vectorColscale (hall slot : Nat)
  /-- VECTOR_CONVERT (R196): VECTOR operation 0x10 converts src0 to DST's format. -/
  | vectorConvert (hall slot : Nat)
  /-- VECTOR_SQRT (R196): VECTOR operation 0x11 takes the square root. -/
  | vectorSqrt (hall slot : Nat)
  /-- VECTOR_EXP2 (R137): VECTOR operation 0x12 applies the correctly rounded exp2. -/
  | vectorExp2 (hall slot : Nat)
  /-- VECTOR_LOG2 (R137): VECTOR operation 0x13 applies the correctly rounded log2. -/
  | vectorLog2 (hall slot : Nat)
  /-- VECTOR_RECIP (R137): VECTOR operation 0x14 applies the correctly rounded reciprocal. -/
  | vectorRecip (hall slot : Nat)
  /-- VECTOR_RSQRT (R137): VECTOR operation 0x15 applies the correctly rounded reciprocal square root. -/
  | vectorRsqrt (hall slot : Nat)
  /-- VECTOR_TANH (R137): VECTOR operation 0x16 applies the correctly rounded tanh. -/
  | vectorTanh (hall slot : Nat)
  /-- VECTOR_SUM (R138): VECTOR operation 0x20 sums each line in ascending element order, giving one result per line. -/
  | vectorSum (hall slot : Nat)
  /-- VECTOR_LINE_MAX (R138): VECTOR operation 0x21 takes the maximum over each line. -/
  | vectorLineMax (hall slot : Nat)
  /-- VECTOR_LINE_MIN (R138): VECTOR operation 0x22 takes the minimum over each line. -/
  | vectorLineMin (hall slot : Nat)
  /-- VECTOR_SUMSQ (R138): VECTOR operation 0x23 adds each element's exact square over each line, with one rounding per addition. -/
  | vectorSumsq (hall slot : Nat)
  /-- ROWSTAT_RESET (R197): ROWSTAT operation 0x01 sets the named row-statistic registers to +0. -/
  | rowstatReset (hall slot : Nat)
  /-- ROWSTAT_READ (R197): ROWSTAT operation 0x02 writes the named registers to LOC as XF values. -/
  | rowstatRead (hall slot : Nat)
  /-- ROWSTAT_LOAD (R197): ROWSTAT operation 0x03 loads the named registers from LOC. -/
  | rowstatLoad (hall slot : Nat)
  /-- MOVE (R198): MOVE copies ROWS rows of LENGTH bytes within the package, or into the next slot of a ring. -/
  | move (hall slot : Nat)
  /-- MOVE_ZERO (R198): A MOVE with ZERO set writes zeros to its destination. -/
  | moveZero (hall slot : Nat)
  /-- MOVE_INDEXED (R200): A MOVE with INDEXED set gathers rows by the segments' token ids, checking every row before writing any. -/
  | moveIndexed (hall slot : Nat)
  /-- FOLIO_GATHER (R354): FOLIO_GATHER delivers whole folios from one folio table into the slots of a ring, with side records when SIDE is 1. -/
  | folioGather (hall slot : Nat)
  /-- FOLIO_COPY (R202): FOLIO_COPY copies one folio into a folio from the wing's free list, with effect at the seal. -/
  | folioCopy (hall slot : Nat)
  /-- FOLIO_LOAN_TAKE (R204): FOLIO_LOAN TAKE takes a loan on one folio or a table range, copying any folio at the ceiling in range form. -/
  | folioLoanTake (hall slot : Nat)
  /-- FOLIO_LOAN_RELEASE (R204): FOLIO_LOAN RELEASE releases a loan, and a folio whose count reaches 0 returns to its free list. -/
  | folioLoanRelease (hall slot : Nat)
  /-- FOLIO_LOAN_CHECKS (R205): After every beat program has finished its work, the package checks and applies all FOLIO_COPY and FOLIO_LOAN descriptors in hall, slot and position order. -/
  | folioLoanChecks
  /-- STREAM_OPEN (R344): STREAM_OPEN takes a ring context and all its slot entries at once, or holds until all are free. -/
  | streamOpen (hall slot : Nat)
  /-- STREAM_OPEN_GRANTED (R344): A held open takes its context and entries once all are free together, and the ring becomes usable. -/
  | streamOpenGranted (hall slot waited : Nat)
  /-- STREAM_CLOSE (R346): STREAM_CLOSE holds until no fill of the ring is in flight and no consumer is using a slot. -/
  | streamClose (hall slot : Nat)
  /-- STREAM_CLOSE_DONE (R346): When the close's hold ends the ring becomes unusable, and its resources are released at the committing seal. -/
  | streamCloseDone (hall slot : Nat)
  /-- STREAM_CANCEL (R360): STREAM_CANCEL holds while a consumer uses a slot or a fill carrying tag G + 1 is in flight. -/
  | streamCancel (hall slot : Nat)
  /-- STREAM_CANCEL_DONE (R360): In one cycle the cancel empties filling and full slots, sets the head to the tail and advances G. -/
  | streamCancelDone (hall slot : Nat)
  /-- CLAIM (R208): CLAIM runs a claim loop, fetching and adding on a shared work counter and running its body for each claimed value below the limit. -/
  | claim (hall slot : Nat)
  /-- COUNTER_WAIT (R210): COUNTER_WAIT holds the sequencer until a shared work counter or a row-completion counter reaches VALUE. -/
  | counterWait (hall slot : Nat)
  /-- COUNTER_WAIT_SATISFIED (R210): A held COUNTER_WAIT resumes when its counter reaches VALUE. -/
  | counterWaitSatisfied (hall slot : Nat)
  /-- SIGNAL_LOCAL (R212): A local SIGNAL adds to a hall flag at once. -/
  | signalLocal (hall slot : Nat)
  /-- SIGNAL_REMOTE (R212): A remote SIGNAL adds to the same wing's flag on TARGET_DEV at the seal that commits the sender's beat. -/
  | signalRemote (hall slot : Nat)
  /-- REMOTE_FLAG (R212): A target package takes a remote-flag packet and adds to its wing's flag, saturating. -/
  | remoteFlag (source wing flag add : Nat)
  /-- WAIT (R211): WAIT holds the sequencer until a flag reaches THRESHOLD. -/
  | flagWait (hall slot : Nat)
  /-- FLAG_WAIT_SATISFIED (R211): A held WAIT resumes when its flag reaches THRESHOLD. -/
  | flagWaitSatisfied (hall slot : Nat)
  /-- PHASE (R215): PHASE sets the slot's phase, and the hall's operating point is evaluated again. -/
  | phase (hall slot : Nat)
  /-- SEAL (R216): The SEAL descriptor ends a beat program and is checked against the program's descriptor count. -/
  | seal (hall slot : Nat)
  /-- BROADCAST (R448): COLLECT_START with COP BROADCAST copies the root's data to every member. -/
  | broadcast (hall slot : Nat)
  /-- ALL_GATHER (R448): COLLECT_START with COP ALL_GATHER places each member's block in every member's DST. -/
  | allGather (hall slot : Nat)
  /-- REDUCE_SCATTER (R451): COLLECT_START with COP REDUCE_SCATTER sums over members in the reference order and scatters the slices. -/
  | reduceScatter (hall slot : Nat)
  /-- ALL_REDUCE (R451): COLLECT_START with COP ALL_REDUCE sums over members in the reference order, and every member receives the sum. -/
  | allReduce (hall slot : Nat)
  /-- BARRIER (R448): COLLECT_START with COP BARRIER synchronises the members and moves no data. -/
  | barrier (hall slot : Nat)
  /-- ALL_TO_ALL (R448): COLLECT_START with COP ALL_TO_ALL exchanges equal-sized blocks between members. -/
  | allToAll (hall slot : Nat)
  /-- ALL_TO_ALL_V (R450): COLLECT_START with COP ALL_TO_ALL_V exchanges blocks of unequal size padded to CAPACITY, dropping any excess. -/
  | allToAllV (hall slot : Nat)
  /-- COURIER_ALL_REDUCE (R463): COLLECT_START with COP COURIER_ALL_REDUCE broadcasts level-0 sums on the courier lane, and each member package folds them in rank order. -/
  | courierAllReduce (hall slot : Nat)
  /-- COLLECT_WAIT (R445): COLLECT_WAIT holds the sequencer until the launch is complete at this member. -/
  | collectWait (hall slot : Nat)
  /-- COLLECT_WAIT_DONE (R445): A held COLLECT_WAIT resumes when every piece the member receives and sends is committed, and the instance becomes free. -/
  | collectWaitDone (hall slot : Nat)
  /-- DEPENDENCY_WAIT_END (R148): An instruction held because it reads a region that an earlier instruction writes issues once that write is complete. -/
  | dependencyWaitEnd (hall slot cycles : Nat)
  /-- ARRAY_INSTRUCTION (R145): An array instruction swaps in its tile and streams its rows once the array can take it. -/
  | arrayInstruction (hall slot : Nat) (flips : List (Nat × LinkSlip))
  /-- TILE_LOADED (R144): A weight tile finishes loading into the shadow registers, with its check weights formed. -/
  | tileLoaded (hall slot : Nat)
  /-- RESULT_ROW_LEAVES (R146): A result row leaves the array, is folded into XF, is checked by the check column and passes through its epilogue. -/
  | resultRowLeaves (hall slot : Nat) (upset : Upset)
  /-- ARRAY_IDLE (R546): An array that has taken no row for 128 cycles becomes idle, so that its next instruction takes the current-step ramp. -/
  | arrayIdle (hall slot : Nat)
  /-- ROWSTAT_PARTIAL_ARRIVAL (R169): A member's row-statistic partial reaches rank 0 and is added in ascending tile order, or waits in the reserved region. -/
  | rowstatPartialArrival (hall slot : Nat)
  /-- ADAPTER_INSTRUCTION (R273): After a pass's last K tile, u is converted to U_FMT and a group-wide instruction with K = RANK forms the adapter term v. -/
  | adapterInstruction (hall slot : Nat)
  /-- PEER_SEND (R265): A finished row pass is sent into one slot of the peer ring once the sender holds a credit. -/
  | peerSend (hall slot : Nat)
  /-- PEER_DATA_ARRIVAL (R355): The receiver takes send-to-peer slot data, holding it pending, or drops and counts it when the ring, sender or credit does not match. -/
  | peerDataArrival (source wing hall ring beat : Nat) (data : List Byte)
  /-- RING_ANNOUNCEMENT (R355): The sender takes a ring announcement that grants SLOTS credits and names the expected sender. -/
  | ringAnnouncement (source wing hall ring slots expected slotSize : Nat)
  /-- PEER_CREDIT (R355): The sender takes credits returned for emptied slots, or a notice that a close voided its credits. -/
  | peerCredit (source hall ring credits : Nat) (voided : Bool)
  /-- FILL_LINE_LANDS (R348): A line of a fill lands and is written only when its tag equals G; a fill whose lines have all been written makes its slot full. -/
  | fillLineLands (hall ring fill : Nat)
  /-- CONSUMER_TAKES_SLOT (R350): A consumer takes the head slot once it is full, and the slot becomes draining. -/
  | consumerTakesSlot (hall slot : Nat)
  /-- HBM_REQUEST_ADMITTED (R365): A waiting HBM request is admitted when the hall's bucket holds enough tokens and it wins arbitration. -/
  | hbmRequestAdmitted (hall index waited : Nat) (elapsed : Admission)
  /-- LIGHT_PATH_COMPLETE (R361): A light-path request completes, freeing one of the core's 64 outstanding requests. -/
  | lightPathComplete (hall slot : Nat)
  /-- JOB_ACCEPT (R231): A waiting job is accepted when it heads its wing's queues and its slots and broadcast channels are free, and the job record is checked. -/
  | jobAccept (wing : Nat)
  /-- JOB_START (R232): A package takes the anchor's job start and schedules job beat j in beat S + j. -/
  | jobStart (wing startBeat image record : Nat)
  /-- JOB_DISTRIBUTION (R522): A package takes a command or forwarded BAR4 access carried from the anchor, and runs it against the wing's window. -/
  | jobDistribution (source wing view kind : Nat) (address : Nat) (data : List Byte)
  /-- SCRUB_READ (R385): In an idle cycle the conservator reads the next written sector, correcting, logging or recording uncorrectable words. -/
  | scrubRead (stack elapsed : Nat) (parity : Parity)
  /-- LAP_OVERDUE (R386): A scrub lap that runs longer than LAP_LIMIT writes one F0 LAP_OVERDUE record. -/
  | lapOverdue (stack seconds : Nat)
  /-- HALL_STORE_SCRUB_READ (R387): The conservator reads a hall-store word in an idle port cycle and writes a corrected word back. -/
  | hallStoreScrubRead (hall : Nat) (parity : Parity)
  /-- MERGE_ENTRY_WRITE (R383): A merge-buffer entry is written to memory when it is full, is evicted, or its beat's work ends or the next beat opens. -/
  | mergeEntryWrite (stack sector : Nat)
  /-- MODE (R400): A write to a door's MODE sets it to torus, Ethernet or off, and powers the door's domain to match. -/
  | mode (src : Src)
  /-- DOOR_DETECT_DONE (R409): Light and signal appear on at least 7 lanes, and the door moves to SIGNAL. -/
  | doorDetectDone (door lanes : Nat)
  /-- DOOR_SIGNAL_LOCKED (R409): Clock recovery and equalisation lock, and the door moves to ALIGN. -/
  | doorSignalLocked (door lanes : Nat)
  /-- DOOR_ALIGN_DONE (R409): FEC codeword lock and lane skew are obtained, and the door moves to NEGOTIATE. -/
  | doorAlignDone (door lanes : Nat)
  /-- LINK_CONTROL_FLIT (R410): A link-control flit is taken: the negotiation exchange, or a failed lane named by the far end. -/
  | linkControlFlit (door : Nat) (flit : List Byte)
  /-- DOOR_CREDIT_RECEIVED (R409): The initial credits arrive and the door goes UP. -/
  | doorCreditReceived (door : Nat)
  /-- DOOR_TRAINING_FAILED (R409): A training state that misses its limit sends the door to DOWN with an F0 record. -/
  | doorTrainingFailed (door : Nat)
  /-- DOOR_RETRAIN (R409): One second after a training failure the door starts again at DETECT. -/
  | doorRetrain (door : Nat)
  /-- FLIT_RECEIVED (R417): A flit is checked for CRC and order, and is accepted or answered by NAK, with its acknowledgement and credits applied. -/
  | flitReceived (door : Nat) (flit : List Byte) (fecCorrected fecUncorrectable : Nat)
  /-- RESEND_TIMEOUT (R417): When ACK has not advanced for 1 µs, the transmitter resends from the oldest unacknowledged flit. -/
  | resendTimeout (door : Nat)
  /-- DOOR_DOWN (R420): A door with no acknowledged flit for 2 µs, or a flit resent 8 times, goes down and resends its packets on another door of the bundle. -/
  | doorDown (door cause : Nat)
  /-- LANE_FAILURE (R418): A receiving lane loses lock or exceeds LANE_SER_LIMIT over 1 ms, and transmitters stop dealing flits to it. -/
  | laneFailure (door lane : Nat) (cause : LaneCause)
  /-- LANE_SPARED (R418): The spare lane L8 takes the failed lane's place within 20 µs. -/
  | laneSpared (door lane cause : Nat)
  /-- ROUTER_FORWARD (R423): A router forwards a decoded flit to its output port and channel once it holds credit there, detouring or discarding as routing gives. -/
  | routerForward (port channel : Nat)
  /-- LINK_CUT (R431): A LINK_CUT broadcast marks a ring link cut in the router's map. -/
  | linkCut (device : Nat) (yLink : Bool)
  /-- DEVICE_MISSING (R431): A DEVICE_MISSING broadcast removes a device from the present map; groups through it break and its wings' jobs are lost. -/
  | deviceMissing (device : Nat)
  /-- NEIGHBOUR_SILENT (R431): A neighbour that stops sending on all its bundles is reported missing by broadcast. -/
  | neighbourSilent (direction : Nat)
  /-- LINK_RESTORED (R431): A broadcast from a package whose bundle has trained to UP again restores a device or link to the maps. -/
  | linkRestored (device : Nat) (link : Option Bool)
  /-- ERROR_RECORD_ANNOUNCEMENT (R577): A courier announcement of a group-wide error record is written on the receiving package and acted on. -/
  | errorRecordAnnouncement (record : List Byte)
  /-- LASER_FEED_LOST (R406): When a laser module fails or is removed, the lanes it fed keep running on the other module and an F2 record is raised. -/
  | laserFeedLost (module : Nat) (removed : Bool)
  /-- PREPARE_REMOVAL (R407): Laser command 1 disables the module's output within 10 ms and sets it READY_TO_REMOVE, or is refused with CONFLICT. -/
  | prepareRemoval (src : Src)
  /-- RETURN_TO_SERVICE (R407): Laser command 2 returns to service a module that was prepared but not removed. -/
  | returnToService (src : Src)
  /-- LASER_PRESENT (R407): The presence signal of a module inserted into an empty place asserts. -/
  | laserPresent (module : Nat)
  /-- LASER_ENABLE (R407): One second after its presence signal asserts, the inserted module is enabled. -/
  | laserEnable (module : Nat)
  /-- LASER_OUTPUT_IN_RANGE (R407): An enabled module's output reaches range, and the module returns to SHARING. -/
  | laserOutputInRange (module power temperature : Nat)
  /-- GROUP_DEFINE (R439): A group definition is checked, its digest is formed and its reduction slots are reserved on the path. -/
  | groupDefine (src : Src)
  /-- GROUP_DELETE (R443): A group is deleted and its slots are freed, unless a launch on it is outstanding. -/
  | groupDelete (src : Src)
  /-- LAUNCH (R466): A LAUNCH frame is taken and the member's identity is compared with the lowest rank's, broadcasting ABORT at the first difference. -/
  | launch (source wing : Nat) (payload : List Byte)
  /-- COURIER_DATA (R463): A COURIER_DATA frame of level-0 sums is taken for the rank-order fold. -/
  | courierData (source wing : Nat) (payload : List Byte)
  /-- ABORT (R464): An ABORT frame faults every member of the launch. -/
  | abort (source wing : Nat) (payload : List Byte)
  /-- COLLECTIVE_PIECE (R459): A collective piece arrives, is added or forwarded along the chain, or is delivered to DST or a ring slot. -/
  | collectivePiece (source wing : Nat) (packet : List Byte) (residueFault : Bool)
  /-- REDUCTION_SLOTS_TAKEN (R455): A waiting reducing launch takes its DEPTH slots per direction in ticket order. -/
  | reductionSlotsTaken (group sequence : Nat)
  /-- COLLECTIVE_TIMEOUT (R456): A launch that has waited COLLECTIVE_TIMEOUT beats is aborted, and every member faults. -/
  | collectiveTimeout (group sequence : Nat)
  /-- RUN_JOB (R506): A RUN_JOB entry submits the job record at ADDRESS, to start under R231. -/
  | runJob (wing queue : Nat)
  /-- LOAD_IMAGE (R514): LOAD_IMAGE makes an image known on every package after checking header, CRC and groups. -/
  | loadImage (wing queue : Nat)
  /-- UNLOAD_IMAGE (R506): UNLOAD_IMAGE withdraws an image handle, or completes IMAGE_IN_USE. -/
  | unloadImage (wing queue : Nat)
  /-- SHIP (R478): A SHIP entry starts a shipment from the record at ADDRESS, after checking the record and its directory. -/
  | ship (wing queue : Nat)
  /-- NOP (R506): A NOP entry completes at once. -/
  | nop (wing queue : Nat)
  /-- SQ_TAIL (R507): An SQ_TAIL doorbell hands the entries up to the new tail to the device. -/
  | sqTail (fn wing queue tail : Nat)
  /-- CQ_HEAD (R510): A CQ_HEAD doorbell returns completion-queue space to the device. -/
  | cqHead (fn wing queue head : Nat)
  /-- SQ_ENABLE (R505): Writing ENABLE = 1 to SQ_CONFIG checks the block and starts the queue, or puts it in the error state. -/
  | sqEnable (fn wing queue value : Nat)
  /-- SQ_DISABLE (R505): Writing ENABLE = 0 to SQ_CONFIG stops fetching; entries already taken still complete. -/
  | sqDisable (fn wing queue value : Nat)
  /-- CQ_ENABLE (R505): Writing ENABLE = 1 to CQ_CONFIG checks the block and starts the queue. -/
  | cqEnable (fn wing queue value : Nat)
  /-- CQ_DISABLE (R505): Writing ENABLE = 0 to CQ_CONFIG stops the queue and puts any enabled SQ that names it in error. -/
  | cqDisable (fn wing queue value : Nat)
  /-- COMPLETION_WRITE (R510): A completion entry is written once the CQ has space, advancing TAIL and flipping PHASE at the wrap. -/
  | completionWrite (wing queue : Nat)
  /-- COALESCE_TIMER (R519): When the oldest unsignalled entry has waited COALESCE_TIME, the queue signals its vector. -/
  | coalesceTimer (wing queue : Nat)
  /-- MSIX_UNMASK (R519): Unmasking a vector with its Pending Bit set sends its message. -/
  | msixUnmask (fn vector : Nat)
  /-- APERTURE (R516): A write to APERTURE moves the BAR4 window, and can point it at a remote target. -/
  | aperture (fn wing value : Nat)
  /-- BAR4_READ (R515): A host read through BAR4 returns HBM data, or completes as Unsupported Request or Completer Abort. -/
  | bar4Read (fn address length : Nat) (parity : Parity)
  /-- BAR4_WRITE (R518): A host write through BAR4 is applied in arrival order, or dropped when out of range or in a folio pool. -/
  | bar4Write (fn address : Nat) (data : List Byte) (poisoned : Bool)
  /-- FLR (R523): A function level reset halts the function's wings and disables their queues, images and aperture. -/
  | flr (fn : Nat)
  /-- VF_ENABLE_CLEAR (R523): Clearing a virtual function's VF Enable has the effects of an FLR of that function. -/
  | vfEnableClear (fn : Nat)
  /-- HOT_RESET (R523): A hot reset, link down or PERST_N resets every function without stopping the beat or the torus. -/
  | hotReset
  /-- DOE_DISCOVERY (R520): The DOE mailbox answers DOE Discovery. -/
  | doeDiscovery (index : Nat)
  /-- GET_VERSION (R610): SPDM GET_VERSION resets the sending connection and returns the supported versions. -/
  | getVersion (transport : Nat) (request : List Byte)
  /-- GET_CAPABILITIES (R520): SPDM GET_CAPABILITIES returns the device's capabilities. -/
  | getCapabilities (transport : Nat) (request : List Byte)
  /-- NEGOTIATE_ALGORITHMS (R520): SPDM NEGOTIATE_ALGORITHMS settles on ECDSA P-256 and SHA-256. -/
  | negotiateAlgorithms (transport : Nat) (request : List Byte)
  /-- GET_DIGESTS (R520): SPDM GET_DIGESTS returns certificate-chain digests. -/
  | getDigests (transport : Nat) (request : List Byte)
  /-- GET_CERTIFICATE (R605): SPDM GET_CERTIFICATE returns the DeviceID and Alias chain. -/
  | getCertificate (transport : Nat) (request : List Byte)
  /-- CHALLENGE (R604): SPDM CHALLENGE is answered with a signature by the Alias key. -/
  | challenge (transport : Nat) (request : List Byte)
  /-- GET_MEASUREMENTS (R611): SPDM GET_MEASUREMENTS returns measurement blocks 1–5 as they stood at one seal. -/
  | getMeasurements (transport : Nat) (request : List Byte)
  /-- OPEN_RESEND (R489): OPEN is resent every 1 ms until ACCEPT arrives, and the shipment ends with NO_ANSWER after 8 sends. -/
  | openResend (session : Nat)
  /-- OPEN (R495): A receiving package takes an OPEN and accepts it against a RECEIVE record, or refuses it. -/
  | ailasOpen (source wing : Nat) (frame : List Byte)
  /-- ACCEPT (R489): The sender takes ACCEPT and settles the version and formats, or ends the shipment with REFUSED. -/
  | accept (frame : List Byte)
  /-- CHUNK_SEND (R490): A chunk is sent on its door once it is below the credit limit and within the rate limit. -/
  | chunkSend (session chunk : Nat)
  /-- CHUNK (R495): A receiver takes a CHUNK, checks its CRC and writes its folios into fresh folios at the next seal. -/
  | chunk (source wing : Nat) (frame : List Byte)
  /-- ACK (R490): An ACK advances CUM and the credit limit, and marks chunks received, which may trigger resends. -/
  | ack (frame : List Byte)
  /-- RETRANSMISSION_TIMEOUT (R491): When CUM has not advanced for the retransmission time, unacknowledged chunks are resent and the time doubles. -/
  | retransmissionTimeout (session : Nat)
  /-- NO_ROUTE (R491): After 1 s with no door UP or no resolved next hop, the shipment ends with NO_ROUTE. -/
  | noRoute (session : Nat)
  /-- CLOSE (R492): A CLOSE from the receiver ends the shipment with ABORTED_BY_RECEIVER and is answered with CLOSE_ACK. -/
  | close (frame : List Byte)
  /-- CLOSE_ACK (R492): CLOSE_ACK ends the session. -/
  | closeAck (frame : List Byte)
  /-- SHIP_CANCEL (R493): A write of a SHIP_ID to SHIP_CANCEL ends that shipment with CANCELLED on every package. -/
  | shipCancel (src : Src)
  /-- AILAS_FRAGMENT (R494): A torus shipment packet is taken and joined to its frame by count and fragment index. -/
  | ailasFragment (source wing : Nat) (packet : List Byte)
  /-- ETHERNET_FRAME (R474): An Ethernet door takes a frame and accepts it or drops and counts it, answering neighbour discovery and echo requests. -/
  | ethernetFrame (door : Nat) (frame : List Byte) (fcsGood : Bool)
  /-- ETH_DOOR_DOWN (R472): A lane failure takes an Ethernet door down, and it retrains. -/
  | ethDoorDown (door cause : Nat)
  /-- POWER_WINDOW (R535): Every 10 µs the power figure is computed and each hall's operating point is set to the lowest of its limits. -/
  | powerWindow
  /-- POWER_CALIBRATION (R529): Every 1 ms the regulators are read, the gain is updated, divergence is tested and the package ceiling is stepped. -/
  | powerCalibration (readings : List (Option Nat))
  /-- DIVERGENCE_CLEAR (R532): Writing 1 returns the divergence state to 0 when the last 50 comparisons were within 15%. -/
  | divergenceClear (src : Src)
  /-- VOLTAGE_SETTLED (R534): When READ_VOUT comes within 10 mV of a raised voltage, the hall changes to the higher clock. -/
  | voltageSettled (hall millivolts : Nat)
  /-- SHARE_UPDATE (R542): A package takes the master's new power shares and applies them at the named beat open. -/
  | shareUpdate (beat : Nat) (shares : List Nat) (cap : Option Nat)
  /-- SENSOR_READ (R548): The junction sensors are read every 100 µs. -/
  | sensorRead (temperatures : List Int) (hbmStacks : List Int)
  /-- THERMAL_CEILING_STEP (R549): A hall's thermal ceiling drops by one point each 1 ms while it is hot, and rises each 10 ms once it is 3 °C below THROTTLE_TEMP. -/
  | thermalCeilingStep (hall : Nat)
  /-- THERMAL_TRIP (R550): A sensor at 115 °C drives THERMTRIP_N low, stops every hall and engine clock and forwarding, and raises F4. -/
  | thermalTrip (sensor : Nat) (temperature : Int)
  /-- COOLANT_OK_FALL (R551): COOLANT_OK falls, and a low shorter than 10 µs is ignored. -/
  | coolantOkFall
  /-- COOLANT_STOP (R551): A low confirmed after 10 µs stops the hall clocks, fails the beat and starts HBM self-refresh. -/
  | coolantStop
  /-- HBM_SELF_REFRESH_ENTERED (R551): The HBM controllers finish their accesses in flight and enter self-refresh, and COOLANT_STOP records follow. -/
  | hbmSelfRefreshEntered
  /-- COOLANT_OK_RISE (R634): COOLANT_OK rises, arming the coolant-stop timeline and starting the 1 s a restart needs. -/
  | coolantOkRise
  /-- COOLANT_COMMAND (R552): Writing 1 restarts compute at FLOOR_POINT once coolant and temperatures allow. -/
  | coolantCommand (src : Src) (highFor : Nat)
  /-- CORE_TEST_COMPLETE (R561): The test of a suspect core finishes, making the core a reserve or retiring it. -/
  | coreTestComplete (hall core : Nat) (passed : Bool) (failedStep : Nat)
  /-- ROTATION_STEP (R565): Every ROTATION_STEP seconds the due core of each hall is chosen for exchange with the tested rotation reserve. -/
  | rotationStep (hall : Nat)
  /-- ROTATION_TEST_COMPLETE (R564): The rotation reserve's test finishes, passed or failed. -/
  | rotationTestComplete (hall : Nat) (passed : Bool) (failedStep : Nat)
  /-- PACKAGE_FATAL (R571): An F4 record stops every hall and broadcasts DEVICE_MISSING for the package. -/
  | packageFatal (code unit index : Nat) (detail : List Byte)
  /-- CURATOR_WATCHDOG (R573): Expiry of the 100 ms watchdog restarts the curator, or is package fatal on a second expiry within 600 s. -/
  | curatorWatchdog (sinceLast : Nat)
  /-- CURATOR_RETURN (R573): The restarted curator returns and recovery resumes; a return later than 1 s is package fatal. -/
  | curatorReturn (elapsed : Nat)
  /-- ACTIVATE (R581): ACTIVATE = 1 starts live activation of the verified inactive slot, pausing the firmware services. -/
  | activate (src : Src)
  /-- CONFIRM (R583): ACTIVATE = 2 confirms the trial image and burns the rollback and revocation fuses. -/
  | confirm (src : Src)
  /-- REVERT (R583): ACTIVATE = 3 reactivates the other slot. -/
  | revert (src : Src)
  /-- REMOVAL_PREPARE (R584): REMOVAL = 1 prepares the package for removal, leaving the torus without an F4 record. -/
  | removalPrepare (src : Src)
  /-- REMOVAL_AFTER_STOP (R584): REMOVAL = 2 runs an orderly stop with self-test, then prepares removal. -/
  | removalAfterStop (src : Src)
  /-- REMOVAL_CANCEL (R584): REMOVAL = 3 cancels a preparation that has not reached state 3. -/
  | removalCancel (src : Src)
  /-- RESET (R594): Writing 1 to 0xA100:02 RESET performs a warm reset. -/
  | reset (src : Src)
  /-- QUICK_TEST_COMPLETE (R592): After an unclean stop the quick test finishes, and the blocks that failed are unusable for this start. -/
  | quickTestComplete (failed : Blocks)
  /-- STOP_WITH_SELF_TEST (R595): STOP = 1 runs an orderly stop with self-test. -/
  | stopWithSelfTest (src : Src)
  /-- STOP_WITHOUT_SELF_TEST (R595): STOP = 2 runs an orderly stop without self-test. -/
  | stopWithoutSelfTest (src : Src)
  /-- SELF_TEST_RAIL_CHECK (R596): Every 100 ms during self-test the rails and clocks are checked, and a failure stops the test. -/
  | selfTestRailCheck (rails clocks : Bool)
  /-- SELF_TEST_COMPLETE (R597): Self-test finishes, and the condition report is signed and written. -/
  | selfTestComplete (failed : Blocks) (sectorsFailed : List Nat) (time : Nat)
  /-- SLOT_WRITE (R609): A WRITE_BLOCK to SLOT_WRITE writes the inactive firmware slot, which is verified at the last segment. -/
  | slotWrite (src : Src)
  /-- DEBUG_OPEN (R619): Writing 1 to DEBUG_OPEN erases keys, sets the seed lock, derives a debug identity and unlocks test access. -/
  | debugOpen (src : Src)
  /-- ETH_DOOR_UP (R472): An Ethernet-mode door completes its retraining as IEEE 802.3dj gives, and LINK_STATE returns to 1 (up). -/
  | ethDoorUp (door : Nat)
  /-- PCIE_LINK_TRAINED (R498): The PCIe link trains to a supported rate and width, setting LINK_RATE, LINK_WIDTH and FLIT_MODE, and the package's own link becomes a path for Catalogue requests (R36). -/
  | pcieLinkTrained (rate width : Nat) (flitMode : Bool)
  /-- FORWARD_RESULT (R522): The anchor takes back from a target package the result of a forwarded Catalogue request, remote BAR4 read, command, image acceptance or shipment session end, and completes the window request or queue entry once all are in. -/
  | forwardResult (source : Nat) (result : ForwardAnswer)
  /-- BAD_OPCODE (R175): The sequencer decodes a descriptor whose opcode is not in the table and faults it with BAD_OPCODE, handled by R179. -/
  | badOpcode (hall slot : Nat)
  /-- FIELD_NETWORK_NEIGHBOUR_DISCOVERY (R49): A neighbour-discovery or duplicate-address-detection ICMPv6 frame arrives on the field network, and the device answers it or defends its link-local address. -/
  | fieldNetworkNeighbourDiscovery (frame : List Byte)
  /-- FORWARDING_STOP (R571): Two periods after a package fatal state or an orderly stop, forwarding stops and every door is held DOWN. -/
  | forwardingStop
  /-- FIRMWARE_ACTIVATION_COMPLETE (R581): The paused services return on the new image, ACTIVE_SLOT changes and trial begins. -/
  | firmwareActivationComplete
  /-- TRIAL_TIME_EXPIRY (R583): When TRIAL_TIME passes without a confirmation, the device reverts to the other slot. -/
  | trialTimeExpiry
  /-- RESET_N_RISE (R587): RESET_N rises and starts a cold start when the start flag is clear, or a warm start when it is set. -/
  | resetNRise
  /-- RESET_N_FALL (R594): RESET_N held low for 1 µs or more resets every domain, overriding every other input. -/
  | resetNFall
  /-- POWER_OFF (R587): VDD_SYS falling below 0.3 V clears the start flag and releases THERMTRIP_N. -/
  | powerOff
  /-- REPORT_WRITTEN (R599): Read-back of the report confirms it, and the stop proceeds to the stopped state. -/
  | reportWritten
  /-- REFCLK_LOCK_LOSS (R632): Loss of REFCLK_SYS lock stops every hall and raises F4 BEAT_UNIT_FAULT. -/
  | refclkLockLoss
deriving DecidableEq, Repr

end Sys2Proof
end

