-- ==== Sys2Proof/Decode.lean ====
section
/-! DEFINITION. The commands as words. No row of spec/opcode_table.json gives bits: the package takes events, and the words that carry them (queue entries, descriptors, frames) are read by the commands' own meanings. So a word spells no command. -/

namespace Sys2Proof

/-- The command a word spells by the table's bits: no row of the table gives bits, so none. -/
def decodeTableWord (_nbits _w : Nat) : Option Instr := none

end Sys2Proof
end

