-- ==== Sys2Proof/Config.lean ====
section
/-! DEFINITION. What one part fixes and the manual does not give, and the free values: opaque constants that no proof can look into. Each is named in the assumption log. -/

namespace Sys2Proof

/-- Free values: contents and results the manual leaves undefined, drawn by the counter `State.free` (R162, R170, R310). -/
opaque Config.freeValue : Nat → Nat

/-- Arithmetic-clock cycles that pass in a core at one draw of `State.free`: the model has no clock (R164). -/
opaque Config.freeCycles : Nat → Nat → Nat

/-- Scale bytes of a folio's tokens at or beyond TOKENS_VALID, undefined by R310: folio number and GENERATION. -/
opaque Config.freeScales : Nat → Nat → Nat

/-- Fresh random bytes as a number: nonces, ephemeral private keys, per-signature numbers (R55, R56). -/
opaque Config.freeRandom : Nat → Nat

/-- The rounded result of a transcendental function where the computed enclosure does not decide it: function number, operand significand and exponent (R137, R261, R262). -/
opaque Config.undecided : Nat → Nat → Int → Nat

/-- The 16-byte serial number, fused (R61). -/
opaque Config.serial : Nat

/-- The 256-bit unique device seed, fused (R602). -/
opaque Config.deviceSeed : Nat

/-- SHA-256 of the boot ROM (R603, R611). -/
opaque Config.romDigest : Nat

/-- Fused hash of firmware key k (R607). -/
opaque Config.keyHash : Nat → Nat

/-- SHA-256 of the issuing root certificate (R605). -/
opaque Config.rootHash : Nat

/-- The issuing authority's and the DeviceID certificates in DER, concatenated (R605). -/
opaque Config.issuedCerts : List Byte

/-- The Alias certificate in DER for a firmware digest, SVN and public key (R605). -/
opaque Config.aliasCert : Nat → Nat → Nat → List Byte

/-- The self-signed debug certificate chain (R620). -/
opaque Config.debugCerts : List Byte

/-- The voltage of operating point p in mV, fused (R533). -/
opaque Config.pointVoltage : Nat → Nat

/-- The fused leakage curve of a hall: mV and 0.1 °C to parts per 4,096 of the static term (R527). -/
opaque Config.leakage : Nat → Int → Nat

/-- Body of an SPDM response whose layout SPDM gives and the manual does not: request code and request bytes (R520). -/
opaque Config.spdmBody : Nat → List Byte → List Byte

/-- The code, below its class, of the F0 record for a persistent object whose copy failed, which R31 does not give. -/
opaque Config.restoreCode : Nat

/-- The digest of the firmware image that a slot of the flash is delivered with (R606). -/
opaque Config.slotDigest : Nat → Nat

/-- Which words of a slot's buffer are resident tiles, of which the manual says only that the image loads them from HBM (R87, R88): slot and word. -/
opaque Config.resident : Nat → Nat → Bool

/-- Whether the job of an image gives a program to a slot of another package, which the package's own image does not show (R572): image bytes and device id. -/
opaque Config.runsOn : List Byte → Nat → Bool

/-- Whether x, y name a point that ECDSA accepts is computed; the DER bodies are not: the certificate digest of R520 for a slot. -/
opaque Config.certDigest : List Byte → List Byte

end Sys2Proof
end

