-- ==== Sys2Proof/Machine/Bits.lean ====
section
/-! DEFINITION. Bit fields, byte order and sign extension (R3, R4, R174), and small arithmetic that several chapters use. -/

namespace Sys2Proof.Machine

/-- The field [hi:lo] of a number, both ends included (R3). -/
def bits (x hi lo : Nat) : Nat := (x >>> lo) % 2 ^ (hi + 1 - lo)

/-- Bit i of a number. -/
def bitOf (x i : Nat) : Bool := (x >>> i) % 2 == 1

/-- The number with field [hi:lo] replaced. -/
def setBits (x hi lo v : Nat) : Nat :=
  x - (bits x hi lo) <<< lo + (v % 2 ^ (hi + 1 - lo)) <<< lo

/-- The number of a Bool, as a one-bit field. -/
def b2n (b : Bool) : Nat := if b then 1 else 0

/-- Little-endian bytes to a number (R4). -/
def leNat : List Byte → Nat
  | [] => 0
  | b :: bs => b.toNat + 256 * leNat bs

/-- A number as n little-endian bytes (R4). -/
def leBytes : Nat → Nat → List Byte
  | 0, _ => []
  | n + 1, v => BitVec.ofNat 8 v :: leBytes n (v / 256)

/-- Big-endian bytes to a number (R4, frames of the field network and Ailas). -/
def beNat (bs : List Byte) : Nat := leNat bs.reverse

/-- A number as n big-endian bytes. -/
def beBytes (n v : Nat) : List Byte := (leBytes n v).reverse

/-- Bytes from..from+len-1 of a list, bytes beyond its end read as zero. -/
def slice (bs : List Byte) (start len : Nat) : List Byte :=
  let t := (bs.drop start).take len
  t ++ List.replicate (len - t.length) 0

/-- The little-endian field of len bytes at start. -/
def leAt (bs : List Byte) (start len : Nat) : Nat := leNat (slice bs start len)

/-- The big-endian field of len bytes at start. -/
def beAt (bs : List Byte) (start len : Nat) : Nat := beNat (slice bs start len)

/-- A list cut or zero-filled to n bytes (R23). -/
def fitBytes (n : Nat) (bs : List Byte) : List Byte := slice bs 0 n

/-- The bytes of bs with those from start on overwritten by new. -/
def overlay (bs : List Byte) (start : Nat) (new : List Byte) : List Byte :=
  slice bs 0 start ++ new ++ bs.drop (start + new.length)

/-- The two's complement value of an n-bit number. -/
def sext (n x : Nat) : Int :=
  let y := x % 2 ^ n
  if 2 * y < 2 ^ n then (y : Int) else (y : Int) - (2 ^ n : Nat)

/-- The n-bit two's complement number of an integer. -/
def twos (n : Nat) (x : Int) : Nat := (x % (2 ^ n : Nat)).toNat

/-- The least integer not below a / b. -/
def ceilDiv (a b : Nat) : Nat := (a + b - 1) / b

/-- The next multiple of 64 at or above a (R182, R255). -/
def up64 (a : Nat) : Nat := ceilDiv a 64 * 64

/-- The number of set bits among the low n. -/
def popcount (n x : Nat) : Nat := (List.range n).foldl (fun a i => a + (x >>> i) % 2) 0

/-- The set bits among the low n, ascending. -/
def setBitsOf (n x : Nat) : List Nat := (List.range n).filter (bitOf x)

/-- The lowest set bit among the low n. -/
def lowestBit (n x : Nat) : Option Nat := (setBitsOf n x).head?

/-- Saturating sum of a counter of n bits (R212, R244). -/
def satAdd (n a b : Nat) : Nat := min (a + b) (2 ^ n - 1)

/-- Wrapping sum of a counter of n bits. -/
def wrapAdd (n a b : Nat) : Nat := (a + b) % 2 ^ n

/-- The first element of a list satisfying p, with its index. -/
def findIdxVal {α : Type} (p : α → Bool) (l : List α) : Option (Nat × α) :=
  (l.zipIdx.find? (fun x => p x.1)).map (fun x => (x.2, x.1))

/-- Replace the first element that satisfies p by f of it. -/
def updFirst {α : Type} (p : α → Bool) (f : α → α) : List α → List α
  | [] => []
  | x :: xs => if p x then f x :: xs else x :: updFirst p f xs

/-- Cut a list into runs of n elements. -/
def chunksOf {α : Type} (n : Nat) (l : List α) : List (List α) :=
  (List.range (ceilDiv l.length n)).map (fun i => (l.drop (i * n)).take n)

end Sys2Proof.Machine
end

