-- ==== Sys2Proof/Machine/Num.lean ====
section
/-! DEFINITION. Number formats and exact arithmetic (04_arithmetic.md): element formats R103-R107, flushing R108-R111, comparison R112, block sums R118-R126, splitting R128, conversion R133 and R641, quantisation R134 and R135. -/

namespace Sys2Proof.Machine

/-- The element formats (R103). -/
inductive Fmt where
  | e2m1 | int4 | uint4 | e4m3 | e5m2 | int8 | uint8 | mxint8 | bf16 | fp16 | fp32 | xf
deriving DecidableEq, Repr

/-- The format a code names; a reserved code names none (R103). -/
def Fmt.ofCode : Nat → Option Fmt
  | 0x0 => some .e2m1 | 0x1 => some .int4 | 0x2 => some .uint4 | 0x4 => some .e4m3
  | 0x5 => some .e5m2 | 0x6 => some .int8 | 0x7 => some .uint8 | 0x8 => some .mxint8
  | 0xA => some .bf16 | 0xB => some .fp16 | 0xC => some .fp32 | 0xE => some .xf
  | _ => none

/-- The code of a format (R103). -/
def Fmt.code : Fmt → Nat
  | .e2m1 => 0x0 | .int4 => 0x1 | .uint4 => 0x2 | .e4m3 => 0x4 | .e5m2 => 0x5 | .int8 => 0x6
  | .uint8 => 0x7 | .mxint8 => 0x8 | .bf16 => 0xA | .fp16 => 0xB | .fp32 => 0xC | .xf => 0xE

/-- Bits of one element; an XF value takes 16 bytes (R105, R107). -/
def Fmt.width : Fmt → Nat
  | .e2m1 | .int4 | .uint4 => 4
  | .e4m3 | .e5m2 | .int8 | .uint8 | .mxint8 => 8
  | .bf16 | .fp16 => 16
  | .fp32 => 32
  | .xf => 128

/-- The native array formats, codes 0x0-0x8 (R104). -/
def Fmt.native : Fmt → Bool
  | .e2m1 | .int4 | .uint4 | .e4m3 | .e5m2 | .int8 | .uint8 | .mxint8 => true
  | _ => false

/-- The four-bit formats (R106, R120). -/
def Fmt.fourBit (f : Fmt) : Bool := f.width == 4

/-- Formats that an array operand may have: native, or wide by splitting (R104, R186). -/
def Fmt.heavy : Fmt → Bool
  | .xf => false
  | _ => true

/-- An exact value: NaN, an infinity, or (-1)^neg × m × 2^e; m = 0 is a zero of that sign. -/
inductive Val where
  | nan
  | inf (neg : Bool)
  | fin (neg : Bool) (m : Nat) (e : Int)
deriving DecidableEq, Repr, Inhabited

/-- Zero of a sign. -/
def Val.zero (neg : Bool) : Val := .fin neg 0 0

/-- The value one. -/
def Val.one : Val := .fin false 1 0

def Val.isNan : Val → Bool
  | .nan => true
  | _ => false

def Val.isInf : Val → Bool
  | .inf _ => true
  | _ => false

/-- NaN or an infinity. -/
def Val.isSpecial : Val → Bool
  | .fin _ _ _ => false
  | _ => true

/-- A zero of either sign. -/
def Val.isZero : Val → Bool
  | .fin _ 0 _ => true
  | _ => false

def Val.isNeg : Val → Bool
  | .nan => false
  | .inf n => n
  | .fin n _ _ => n

def Val.neg : Val → Val
  | .nan => .nan
  | .inf n => .inf (!n)
  | .fin n m e => .fin (!n) m e

def Val.abs : Val → Val
  | .nan => .nan
  | .inf _ => .inf false
  | .fin _ m e => .fin false m e

/-- The exponent of the leading bit of a nonzero magnitude: floor(log2 |x|). -/
def leadExp (m : Nat) (e : Int) : Int := e + Nat.log2 m

/-- The signed integer significand. -/
def Val.sgnInt (n : Bool) (m : Nat) : Int := if n then -(m : Int) else m

/-- The value of an integer at exponent e; an exact zero is +0. -/
def Val.ofInt (i : Int) (e : Int) : Val := .fin (decide (i < 0)) i.natAbs (if i = 0 then 0 else e)

/-- Exact sum (R8). An exact zero sum of nonzero terms is +0 (R126), two zeros of one sign keep it (IEEE 754). -/
def Val.add : Val → Val → Val
  | .nan, _ => .nan
  | _, .nan => .nan
  | .inf a, .inf b => if a = b then .inf a else .nan
  | .inf a, .fin _ _ _ => .inf a
  | .fin _ _ _, .inf b => .inf b
  | .fin n1 m1 e1, .fin n2 m2 e2 =>
    if m1 = 0 ∧ m2 = 0 then Val.zero (n1 && n2)
    else if m1 = 0 then .fin n2 m2 e2
    else if m2 = 0 then .fin n1 m1 e1
    else
      let e := min e1 e2
      Val.ofInt (Val.sgnInt n1 (m1 <<< (e1 - e).toNat) + Val.sgnInt n2 (m2 <<< (e2 - e).toNat)) e

def Val.sub (a b : Val) : Val := a.add b.neg

/-- Exact product; infinity times zero is NaN (R124). -/
def Val.mul : Val → Val → Val
  | .nan, _ => .nan
  | _, .nan => .nan
  | .inf a, .inf b => .inf (a != b)
  | .inf a, .fin n m _ => if m = 0 then .nan else .inf (a != n)
  | .fin n m _, .inf b => if m = 0 then .nan else .inf (n != b)
  | .fin n1 m1 e1, .fin n2 m2 e2 => .fin (n1 != n2) (m1 * m2) (if m1 * m2 = 0 then 0 else e1 + e2)

/-- Exact scaling by a power of two (R118). -/
def Val.scale (k : Int) : Val → Val
  | .fin n m e => .fin n m (if m = 0 then 0 else e + k)
  | v => v

/-- Signed comparison of finite values as integers at a common exponent. -/
def finCmp (n1 : Bool) (m1 : Nat) (e1 : Int) (n2 : Bool) (m2 : Nat) (e2 : Int) : Ordering :=
  let e := min (if m1 = 0 then e2 else e1) (if m2 = 0 then e1 else e2)
  compare (Val.sgnInt n1 (if m1 = 0 then 0 else m1 <<< (e1 - e).toNat))
    (Val.sgnInt n2 (if m2 = 0 then 0 else m2 <<< (e2 - e).toNat))

/-- Comparison (R112): none when unordered; the zeros compare equal. -/
def Val.cmp : Val → Val → Option Ordering
  | .nan, _ => none
  | _, .nan => none
  | .inf a, .inf b => some (if a = b then .eq else if a then .lt else .gt)
  | .inf a, .fin _ _ _ => some (if a then .lt else .gt)
  | .fin _ _ _, .inf b => some (if b then .gt else .lt)
  | .fin n1 m1 e1, .fin n2 m2 e2 => some (finCmp n1 m1 e1 n2 m2 e2)

def Val.lt (a b : Val) : Bool := a.cmp b == some .lt
def Val.eqv (a b : Val) : Bool := a.cmp b == some .eq

/-- Maximum (R112): NaN with any NaN operand, +0 of the two zeros. -/
def Val.max (a b : Val) : Val :=
  match a.cmp b with
  | none => .nan
  | some .lt => b
  | some .gt => a
  | some .eq => if a.isNeg then b else a

/-- Minimum (R112): NaN with any NaN operand, -0 of the two zeros. -/
def Val.min (a b : Val) : Val :=
  match a.cmp b with
  | none => .nan
  | some .lt => a
  | some .gt => b
  | some .eq => if a.isNeg then a else b

/-! ### Rounding -/

/-- Drop k low bits of m with round to nearest, ties to even (R8). -/
def shiftRne (m k : Nat) : Nat :=
  if k = 0 then m
  else
    let q := m >>> k
    let r := m % 2 ^ k
    let half := 2 ^ (k - 1)
    if r > half ∨ (r = half ∧ q % 2 = 1) then q + 1 else q

/-- Round a magnitude to p significant bits, exponent unbounded. -/
def roundSig (p m : Nat) (e : Int) : Nat × Int :=
  let len := Nat.log2 m + 1
  if m = 0 then (0, 0)
  else if len ≤ p then (m, e)
  else
    let r := shiftRne m (len - p)
    if r = 2 ^ p then (2 ^ (p - 1), e + (len - p : Nat) + 1) else (r, e + (len - p : Nat))

/-- Round a magnitude to a multiple of 2^g, ties to even; the multiple. -/
def roundGrid (g : Int) (m : Nat) (e : Int) : Nat :=
  if g ≤ e then m <<< (e - g).toNat else shiftRne m (g - e).toNat

/-- Round to a binary format of p bits whose smallest normal is 2^emin and whose largest exponent is emax: to nearest even with unbounded exponent, then flush (R109), then overflow to infinity (R133). -/
def roundBin (p : Nat) (emin emax : Int) : Val → Val
  | .nan => .nan
  | .inf n => .inf n
  | .fin n m e =>
    let r := roundSig p m e
    if r.1 = 0 then .zero n
    else if leadExp r.1 r.2 < emin then .zero n
    else if emax < leadExp r.1 r.2 then .inf n
    else .fin n r.1 r.2

/-- Precision, smallest normal exponent and largest exponent of a floating format (R105, R107, R126). -/
def Fmt.params : Fmt → Nat × Int × Int
  | .e4m3 => (4, -6, 8)
  | .e5m2 => (3, -14, 15)
  | .bf16 => (8, -126, 127)
  | .fp16 => (11, -14, 15)
  | .fp32 => (24, -126, 127)
  | .xf => (64, -131070, 131071)
  | _ => (0, 0, 0)

/-- round(xf, x) (R125, R126). -/
def roundXf (v : Val) : Val := roundBin 64 (-131070) 131071 v

/-- round(fp32, x) with flushing (R109, R136). -/
def round32 (v : Val) : Val := roundBin 24 (-126) 127 v

/-! ### Decoding stored elements -/

/-- A floating code: sign, exponent field, mantissa of w bits, bias; subnormals flush (R108) and the top exponent is special where `ieee` holds. -/
def decodeFloat (w : Nat) (bias emaxField : Nat) (ieee : Bool) (s : Bool) (e m : Nat) : Val :=
  if e = 0 then .zero s
  else if ieee ∧ e = emaxField then (if m = 0 then .inf s else .nan)
  else .fin s (2 ^ w + m) ((e : Int) - bias - w)

/-- The value of an integer element (R105). -/
def decodeInt (i : Int) (e : Int) : Val := Val.ofInt i e

/-- The value a code of a format reads as (R105, R107, R108, R110, R117). -/
def decodeElem (f : Fmt) (x : Nat) : Val :=
  match f with
  | .e2m1 =>
    let s := bitOf x 3
    let e := bits x 2 1
    let m := bits x 0 0
    if e = 0 then (if m = 0 then .zero s else .fin s 1 (-1)) else .fin s (2 + m) ((e : Int) - 2)
  | .int4 => decodeInt (sext 4 x) 0
  | .uint4 => decodeInt (x % 16 : Nat) 0
  | .int8 => decodeInt (sext 8 x) 0
  | .uint8 => decodeInt (x % 256 : Nat) 0
  | .mxint8 => decodeInt (sext 8 x) (-6)
  | .e4m3 =>
    let s := bitOf x 7
    let e := bits x 6 3
    let m := bits x 2 0
    if e = 15 ∧ m = 7 then .nan else decodeFloat 3 7 16 false s e m
  | .e5m2 => decodeFloat 2 15 31 true (bitOf x 7) (bits x 6 2) (bits x 1 0)
  | .bf16 => decodeFloat 7 127 255 true (bitOf x 15) (bits x 14 7) (bits x 6 0)
  | .fp16 => decodeFloat 10 15 31 true (bitOf x 15) (bits x 14 10) (bits x 9 0)
  | .fp32 => decodeFloat 23 127 255 true (bitOf x 31) (bits x 30 23) (bits x 22 0)
  | .xf =>
    let s := bitOf x 82
    let e := bits x 81 64
    let m := bits x 63 0
    if e = 0x3FFFF then (if m = 0 then .inf s else .nan)
    else if e = 0 ∨ m < 2 ^ 63 then .zero s
    else .fin s m ((e : Int) - 131071 - 63)

/-- The largest magnitude of a format that saturates, as a value (R105, R133). -/
def maxVal : Fmt → Val
  | .e4m3 => .fin false 448 0
  | .e5m2 => .fin false 57344 0
  | .e2m1 => .fin false 6 0
  | .mxint8 => .fin false 127 (-6)
  | .int4 => .fin false 7 0
  | .uint4 => .fin false 15 0
  | .int8 => .fin false 127 0
  | .uint8 => .fin false 255 0
  | _ => .inf false

/-! ### Encoding -/

/-- The canonical NaN of a format, or the value a NaN is written as (R113, R133). -/
def nanCode : Fmt → Nat
  | .e4m3 => 0x7F
  | .e5m2 => 0x7E
  | .bf16 => 0x7FC0
  | .fp16 => 0x7E00
  | .fp32 => 0x7FC00000
  | .xf => 0x3FFFF * 2 ^ 64 + 0xC000000000000000
  | _ => 0

/-- The code of a value that the floating format holds exactly. -/
def encodeFloat (p w bias : Nat) (ebits : Nat) (n : Bool) (m : Nat) (e : Int) : Nat :=
  let sgn := b2n n * 2 ^ (w + ebits)
  if m = 0 then sgn
  else
    let l := leadExp m e
    let sig := m <<< (p - 1 - Nat.log2 m)
    sgn + (l + bias).toNat * 2 ^ w + (sig - 2 ^ w)

/-- The code of an infinity of a format that has one. -/
def infCode : Fmt → Bool → Nat
  | .e5m2, n => b2n n * 0x80 + 0x7C
  | .bf16, n => b2n n * 0x8000 + 0x7F80
  | .fp16, n => b2n n * 0x8000 + 0x7C00
  | .fp32, n => b2n n * 0x80000000 + 0x7F800000
  | .xf, n => b2n n * 2 ^ 82 + 0x3FFFF * 2 ^ 64
  | _, _ => 0

/-- The integer range of an integer format: least, largest, and the exponent of its unit. The MXINT8 element is never written as -128 (R117). -/
def intRange : Fmt → Int × Int × Int
  | .int4 => (-8, 7, 0)
  | .uint4 => (0, 15, 0)
  | .int8 => (-128, 127, 0)
  | .uint8 => (0, 255, 0)
  | _ => (-127, 127, -6)

/-- A conversion's code and whether it saturated (R133, R641). -/
structure Conv where
  code : Nat
  sat  : Bool
deriving DecidableEq, Repr

/-- Round to an integer grid and clamp (R133). -/
def convInt (f : Fmt) (n : Bool) (m : Nat) (e : Int) : Conv :=
  let r := intRange f
  let k : Int := Val.sgnInt n (roundGrid r.2.2 m e)
  let c := if k < r.1 then r.1 else if r.2.1 < k then r.2.1 else k
  { code := twos f.width c, sat := c != k }

/-- Round to E2M1: grid of halves below one, two significant bits above (R105, R110, R133). -/
def convE2m1 (n : Bool) (m : Nat) (e : Int) : Conv :=
  let sgn := b2n n * 8
  let halves := roundGrid (-1) m e
  if m = 0 then { code := sgn, sat := false }
  else if leadExp m e < 0 then { code := sgn + halves, sat := false }
  else
    let r := roundSig 2 m e
    let l := leadExp r.1 r.2
    if 2 < l then { code := sgn + 7, sat := true }
    else { code := sgn + (l + 1).toNat * 2 + ((r.1 <<< (1 - Nat.log2 r.1)) - 2), sat := false }

/-- Convert a value to a storage format with one rounding (R133, R641). `clamp` is the quantiser's rule that every over-range value saturates (R135). -/
def convert (f : Fmt) (clamp : Bool) (v : Val) : Conv :=
  match f, v with
  | f, .nan => { code := nanCode f, sat := false }
  | .e2m1, .inf n => { code := b2n n * 8 + 7, sat := true }
  | .e2m1, .fin n m e => convE2m1 n m e
  | .int4, .inf n | .int8, .inf n | .uint4, .inf n | .uint8, .inf n | .mxint8, .inf n =>
    { code := twos f.width (if n then (intRange f).1 else (intRange f).2.1), sat := true }
  | .int4, .fin n m e | .int8, .fin n m e | .uint4, .fin n m e | .uint8, .fin n m e
  | .mxint8, .fin n m e => convInt f n m e
  | .e4m3, .inf n => { code := b2n n * 0x80 + 0x7E, sat := true }
  | .e4m3, .fin n m e =>
    let r := roundSig 4 m e
    if r.1 = 0 ∨ leadExp r.1 r.2 < -6 then { code := b2n n * 0x80, sat := false }
    else if (Val.fin false 448 0).lt (.fin false r.1 r.2) then { code := b2n n * 0x80 + 0x7E, sat := true }
    else { code := encodeFloat 4 3 7 4 n r.1 r.2, sat := false }
  | .e5m2, v =>
    match roundBin 3 (-14) 15 v with
    | .fin n m e => { code := encodeFloat 3 2 15 5 n m e, sat := false }
    | .inf n => if clamp && !v.isInf then { code := b2n n * 0x80 + 0x7B, sat := true }
                else { code := infCode .e5m2 n, sat := false }
    | .nan => { code := nanCode .e5m2, sat := false }
  | .bf16, v =>
    match roundBin 8 (-126) 127 v with
    | .fin n m e => { code := encodeFloat 8 7 127 8 n m e, sat := false }
    | .inf n => { code := infCode .bf16 n, sat := false }
    | .nan => { code := nanCode .bf16, sat := false }
  | .fp16, v =>
    match roundBin 11 (-14) 15 v with
    | .fin n m e => { code := encodeFloat 11 10 15 5 n m e, sat := false }
    | .inf n => { code := infCode .fp16 n, sat := false }
    | .nan => { code := nanCode .fp16, sat := false }
  | .fp32, v =>
    match roundBin 24 (-126) 127 v with
    | .fin n m e => { code := encodeFloat 24 23 127 8 n m e, sat := false }
    | .inf n => { code := infCode .fp32 n, sat := false }
    | .nan => { code := nanCode .fp32, sat := false }
  | .xf, v =>
    match roundXf v with
    | .fin n m e =>
      if m = 0 then { code := b2n n * 2 ^ 82, sat := false }
      else { code := b2n n * 2 ^ 82 + (leadExp m e + 131071).toNat * 2 ^ 64 + m <<< (63 - Nat.log2 m), sat := false }
    | .inf n => { code := infCode .xf n, sat := false }
    | .nan => { code := nanCode .xf, sat := false }

/-- round(fmt, x) as a value: the code read back. -/
def roundFmt (f : Fmt) (v : Val) : Val :=
  match f with
  | .xf => roundXf v
  | .fp32 => round32 v
  | .bf16 => roundBin 8 (-126) 127 v
  | .fp16 => roundBin 11 (-14) 15 v
  | f => decodeElem f (convert f false v).code

/-! ### Quantisation (R134, R135) -/

/-- emax of a format (R134). -/
def emaxOf : Fmt → Int
  | .e4m3 => 8 | .e5m2 => 15 | .e2m1 => 2 | .mxint8 => 0 | .int4 => 2 | .uint4 => 3 | .int8 => 6
  | .uint8 => 7 | _ => 0

/-- Formats that have a negative zero (R134). -/
def hasNegZero : Fmt → Bool
  | .e4m3 | .e5m2 | .e2m1 | .bf16 | .fp16 | .fp32 | .xf => true
  | _ => false

/-- A quantised block: its E8M0 scale, its codes, its saturations, and whether it was special. -/
structure QBlock where
  scale   : Nat
  codes   : List Nat
  sats    : Nat
  special : Bool
deriving DecidableEq, Repr

/-- quantise_block of R134; missing values of a short block are +0 and are not in `xs`. -/
def quantBlock (f : Fmt) (xs : List Val) : QBlock :=
  if xs.any Val.isSpecial then
    { scale := 0xFF, codes := xs.map (fun _ => 0), sats := 0, special := true }
  else
    let amax := xs.foldl (fun a x => if a.lt x.abs then x.abs else a) (Val.zero false)
    match amax with
    | .fin _ m e =>
      if m = 0 then
        { scale := 0x7F, sats := 0, special := false
          codes := xs.map (fun x => if x.isNeg && hasNegZero f then 2 ^ (f.width - 1) else 0) }
      else
        let x0 := leadExp m e - emaxOf f
        let x1 := min (max x0 (-127)) 127
        let cs := xs.map (fun x => convert f true (x.scale (-x1)))
        { scale := (x1 + 127).toNat, codes := cs.map Conv.code, special := false
          sats := (cs.filter Conv.sat).length }
    | _ => { scale := 0x7F, codes := xs.map (fun _ => 0), sats := 0, special := false }

/-- An E8M0 scale as an exponent; none is NaN (R115). -/
def scaleExp (v : Nat) : Option Int := if v = 0xFF then none else some ((v : Int) - 127)

/-- An element under its block scale, exactly. -/
def scaled (v : Val) (s : Nat) : Val :=
  match scaleExp s with
  | none => .nan
  | some k => v.scale k

/-! ### Block sums (R119-R125, R128-R130) -/

/-- The pieces of a finite element in pass order, as magnitude and exponent (R128); a native element is one piece. -/
def pieces (f : Fmt) (m : Nat) (e : Int) : List (Nat × Int) :=
  match f with
  | .bf16 => [(m / 16, e + 4), (m % 16, e)]
  | .fp16 => [(m / 8, e + 3), (m % 8, e)]
  | .fp32 => [(m / 65536, e + 16), (m / 256 % 256, e + 8), (m % 256, e)]
  | _ => [(m, e)]

/-- Pieces of an operand format, the passes it takes (R129). -/
def pieceCount : Fmt → Nat
  | .bf16 | .fp16 => 2
  | .fp32 => 3
  | _ => 1

/-- Whether products of a pair involve split pieces (R123). -/
def splitPair (fa fb : Fmt) : Bool := decide (1 < pieceCount fa) || decide (1 < pieceCount fb)

/-- One signed piece product. -/
structure PieceProd where
  neg   : Bool
  m     : Nat
  e     : Int
  first : Bool
deriving DecidableEq, Repr

/-- The piece products of a finite pair, A's pieces outer and B's inner (R130); `first` marks the high × high pass. -/
def pairProducts (fa fb : Fmt) (na : Bool) (ma : Nat) (ea : Int) (nb : Bool) (mb : Nat) (eb : Int) :
    List PieceProd :=
  ((pieces fa ma ea).zipIdx).flatMap (fun x =>
    ((pieces fb mb eb).zipIdx).map (fun y =>
      { neg := na != nb, m := x.1.1 * y.1.1, e := x.1.2 + y.1.2, first := x.2 == 0 && y.2 == 0 }))

/-- A block sum: exact value or class, whether a nonzero bit was dropped (R123), whether the block was special by R124. -/
structure BlockSum where
  val     : Val
  dropped : Bool
  special : Bool
deriving DecidableEq, Repr, Inhabited

/-- One product's contribution to the window whose lowest weight is 2^lo: truncated toward zero (R123). -/
def windowTerm (lo : Int) (p : PieceProd) : Int × Bool :=
  if lo ≤ p.e then (Val.sgnInt p.neg (p.m <<< (p.e - lo).toNat), false)
  else
    let k := (lo - p.e).toNat
    (Val.sgnInt p.neg (p.m >>> k), p.m % 2 ^ k != 0)

/-- The exponent of the leading bit of the largest first-pass product (R121, R130); none without a nonzero product. -/
def anchorExp (ps : List PieceProd) : Option Int :=
  ps.foldl (fun a p => if p.first && p.m != 0 then
      (match a with | none => some (leadExp p.m p.e) | some x => some (max x (leadExp p.m p.e))) else a) none

/-- The sum over a window (R121, R123). -/
def windowSum (ps : List PieceProd) : BlockSum :=
  match anchorExp ps with
  | none => { val := .zero false, dropped := false, special := false }
  | some em =>
    let lo := em - 73
    let r := ps.foldl (fun (acc : Int × Bool) p =>
      let t := windowTerm lo p
      (acc.1 + t.1, acc.2 || t.2)) (0, false)
    { val := Val.ofInt r.1 lo, dropped := r.2, special := false }

/-- The class of one product of a special block (R124). -/
def prodClass (a b : Val) : Val :=
  match a, b with
  | .fin n1 _ _, .fin n2 _ _ => .zero (n1 != n2)
  | a, b => a.mul b

/-- The pairs of a block as they multiply in a pass for the real part of a complex product (R131): the product of every odd row has its sign inverted, so the elements stay as they are encoded. -/
def invertOdd (xs : List ((Fmt × Val) × (Fmt × Val))) : List ((Fmt × Val) × (Fmt × Val)) :=
  (xs.zipIdx).map (fun p => if p.2 % 2 = 1 then (p.1.1, (p.1.2.1, p.1.2.2.neg)) else p.1)

/-- The block sum of up to 32 element pairs, each with its format (R121, R124, R130). Padded pairs are zeros. -/
def blockSum (xs : List ((Fmt × Val) × (Fmt × Val))) : BlockSum :=
  if xs.any (fun p => p.1.2.isSpecial || p.2.2.isSpecial) then
    let cls := xs.map (fun p => prodClass p.1.2 p.2.2)
    let v := if cls.any Val.isNan || (cls.any (· == .inf true) && cls.any (· == .inf false)) then Val.nan
             else if cls.any (· == .inf true) then .inf true
             else .inf false
    { val := v, dropped := false, special := true }
  else
    windowSum (xs.flatMap (fun p =>
      match p.1.2, p.2.2 with
      | .fin n1 m1 e1, .fin n2 m2 e2 => pairProducts p.1.1 p.2.1 n1 m1 e1 n2 m2 e2
      | _, _ => []))

/-- A block's contribution after its scales (R118), and whether it is special by a 0xFF scale. -/
def scaleBlock (b : BlockSum) (va vb : Nat) : Val × Bool :=
  match scaleExp va, scaleExp vb with
  | some x, some y => (b.val.scale (x + y), false)
  | _, _ => (.nan, true)

/-- One fold step into the XF accumulator (R125). -/
def foldXf (acc c : Val) : Val := roundXf (acc.add c)

/-- Pairs of a pass's product slots that are computed, and that are gated, over all passes (R149). -/
def slotCounts (xs : List ((Fmt × Val) × (Fmt × Val))) : Nat × Nat :=
  xs.foldl (fun acc p =>
    let na := pieceCount p.1.1
    let nb := pieceCount p.2.1
    let all := na * nb
    let comp := match p.1.2, p.2.2 with
      | .fin _ m1 e1, .fin _ m2 e2 =>
        ((pieces p.1.1 m1 e1).filter (·.1 != 0)).length * ((pieces p.2.1 m2 e2).filter (·.1 != 0)).length
      | .fin _ 0 _, .inf _ | .inf _, .fin _ 0 _ => all
      | _, _ => all
    (acc.1 + comp, acc.2 + (all - comp))) (0, 0)

/-! ### Correctly rounded algebraic functions -/

/-- Integer square root by binary digits; fuel is the number of result bits. -/
def isqrtAux : Nat → Nat → Nat → Nat
  | 0, _, r => r
  | k + 1, n, r => let c := r + 2 ^ k
                   isqrtAux k n (if c * c ≤ n then c else r)

/-- floor(√n). -/
def isqrt (n : Nat) : Nat := isqrtAux (Nat.log2 n / 2 + 1) n 0

/-- A quotient of magnitudes with at least `p` bits and a sticky low bit: rounding it to fewer bits rounds the exact quotient. -/
def divSticky (p m1 : Nat) (e1 : Int) (m2 : Nat) (e2 : Int) : Nat × Int :=
  let k := p + 2 + Nat.log2 m2
  let q := (m1 <<< k) / m2
  (2 * q + b2n ((m1 <<< k) % m2 != 0), e1 - e2 - k - 1)

/-- The exact quotient of two values, finite nonzero cases with a sticky bit good for 80-bit rounding (R136, R299). -/
def Val.div : Val → Val → Val
  | .nan, _ => .nan
  | _, .nan => .nan
  | .inf _, .inf _ => .nan
  | .inf a, .fin n _ _ => .inf (a != n)
  | .fin n _ _, .inf b => .zero (n != b)
  | .fin n1 m1 e1, .fin n2 m2 e2 =>
    if m2 = 0 then (if m1 = 0 then .nan else .inf (n1 != n2))
    else if m1 = 0 then .zero (n1 != n2)
    else let r := divSticky 80 m1 e1 m2 e2
         .fin (n1 != n2) r.1 r.2

/-- A square root with at least 80 bits and a sticky low bit. -/
def sqrtSticky (m : Nat) (e : Int) : Nat × Int :=
  let k : Nat := 200 + (if (e % 2 = 0) then 0 else 1)
  let n := m <<< k
  let r := isqrt n
  (2 * r + b2n (r * r != n), (e - k) / 2 - 1)

/-- Square root (R136): negative nonzero values give NaN, zeros keep their sign. -/
def Val.sqrt : Val → Val
  | .nan => .nan
  | .inf n => if n then .nan else .inf false
  | .fin n m e => if m = 0 then .zero n else if n then .nan
                  else let r := sqrtSticky m e
                       .fin false r.1 r.2

/-- Reciprocal square root with a sticky bit (R137): the cases of its table, zeros give infinities of their sign. -/
def Val.rsqrt : Val → Val
  | .nan => .nan
  | .inf n => if n then .nan else .zero false
  | .fin n m e => if m = 0 then .inf n else if n then .nan
    else
      let k : Nat := 2 * (Nat.log2 m / 2 + 100) + (if (e % 2 = 0) then 0 else 1)
      let y := 2 ^ k / m
      let r := isqrt y
      .fin false (2 * r + b2n (r * r * m != 2 ^ k)) ((-e - k) / 2 - 1)

/-! ### The vector unit's FP32 operations (R136-R138) -/

def f32add (a b : Val) : Val := round32 (a.add b)
def f32sub (a b : Val) : Val := round32 (a.sub b)
def f32mul (a b : Val) : Val := round32 (a.mul b)
def f32div (a b : Val) : Val := round32 (a.div b)
def f32sqrt (a : Val) : Val := round32 a.sqrt
def f32rsqrt (a : Val) : Val := round32 a.rsqrt
def f32recip (a : Val) : Val := round32 (Val.one.div a)

end Sys2Proof.Machine
end

