-- ==== Sys2Proof/Machine/SMap.lean ====
section
/-! DEFINITION. Sparse maps in one canonical form: keys strictly rising, and no entry equal to the value an unlisted key reads as. Every sparse part of State, its memories included, is one of these, so equal contents are equal data. -/

namespace Sys2Proof.Machine

/-- A sparse map from numbers: sorted pairs, an unlisted key reading as a default that the user of the map fixes. -/
abbrev SMap (α : Type) := List (Nat × α)

/-- A sparse map of numbers. -/
abbrev NMap := SMap Nat

/-- The value at key k, d where none is listed. -/
def mget {α : Type} (d : α) : SMap α → Nat → α
  | [], _ => d
  | (k', v) :: t, k => if k = k' then v else mget d t k

/-- Put an entry, keeping the keys in order. -/
def mput {α : Type} : SMap α → Nat → α → SMap α
  | [], k, v => [(k, v)]
  | (k', v') :: t, k, v =>
    if k < k' then (k, v) :: (k', v') :: t
    else if k = k' then (k, v) :: t
    else (k', v') :: mput t k v

/-- Remove an entry. -/
def mdel {α : Type} : SMap α → Nat → SMap α
  | [], _ => []
  | (k', v') :: t, k => if k = k' then mdel t k else (k', v') :: mdel t k

/-- Write value v at key k: the default removes the entry, so the form stays canonical. -/
def mset {α : Type} [DecidableEq α] (d : α) (m : SMap α) (k : Nat) (v : α) : SMap α :=
  if v = d then mdel m k else mput m k v

/-- Change the value at a key. -/
def mupd {α : Type} [DecidableEq α] (d : α) (m : SMap α) (k : Nat) (f : α → α) : SMap α :=
  mset d m k (f (mget d m k))

/-- Every key of the list is above k. -/
def keysAbove {α : Type} (k : Nat) : SMap α → Bool
  | [] => true
  | (k', _) :: _ => decide (k < k')

/-- The canonical form: keys strictly rising and no entry equal to the default. -/
def mwf {α : Type} [DecidableEq α] (d : α) : SMap α → Bool
  | [] => true
  | (k, v) :: t => decide (v ≠ d) && keysAbove k t && mwf d t

/-- Keys strictly rising. -/
def rising {α : Type} : SMap α → Bool
  | [] => true
  | (k, _) :: t => keysAbove k t && rising t

/-- Remove every entry whose key lies in lo..hi-1. -/
def mdelRange {α : Type} (m : SMap α) (lo hi : Nat) : SMap α :=
  m.filter (fun e => !(decide (lo ≤ e.1) && decide (e.1 < hi)))

/-- Put an element before the first that it may precede. -/
def insertBy {α : Type} (le : α → α → Bool) (a : α) : List α → List α
  | [] => [a]
  | b :: t => if le a b then a :: b :: t else b :: insertBy le a t

/-- A list in order; elements that tie keep the order they had. -/
def sortBy {α : Type} (le : α → α → Bool) (l : List α) : List α := l.foldr (insertBy le) []

end Sys2Proof.Machine
end

