-- ==== Sys2Proof/Machine/State.lean ====
section
/-! DEFINITION. The state of one RJX-8440 package: every register, memory, queue and mode the manual gives it, as plain data. Catalogue objects (R20) keep their values in `cat`; INVENTORY.md lists them all. -/

namespace Sys2Proof.Machine

/-- A courier frame's message (R75, R82, R84, R232, R355, R74, R431, R577, R542, R464): the manual gives no TYPE numbers for them. -/
inductive Courier where
  /-- a beat marker, on the route X then Y or Y then X (R75) -/
  | marker (beat : Nat) (advance : Bool) (period master : Nat) (yx : Bool)
  | ready (beat slack ceiling power : Nat)
  | notReady (beat : Nat) (recovering : Bool) (ceiling power : Nat)
  | commit (beat : Nat)
  | withdraw (beat : Nat)
  | jobStart (wing beat image record : Nat)
  | announce (wing hall ring slots expected slotSize : Nat)
  | credits (hall ring count : Nat) (voided : Bool)
  | timing
  | linkCut (device : Nat) (yLink : Bool)
  | deviceMissing (device : Nat)
  | restored (device : Nat) (link : Option Bool)
  | errorRecord (record : List Byte)
  | shares (beat : Nat) (watts : List Nat) (cap : Option Nat)
  /-- the frames of collectives: 0 LAUNCH, 1 COURIER_DATA, 2 ABORT (R463, R464) -/
  | collective (kind wing : Nat) (payload : List Byte)
deriving DecidableEq, Repr

/-- A node of the field network: MAC address, IPv6 address, UDP port (R49). -/
structure Peer where
  mac  : List Byte := []
  addr : List Byte := []
  port : Nat := 0
deriving DecidableEq, Repr

/-- What the package sends over its boundary. -/
inductive Out where
  /-- an Ethernet frame of the field network whose UDP payload is a Lormal frame (R49, R50) -/
  | lormal (frame : List Byte)
  /-- an Ethernet frame of the field network with an ICMPv6 message: an answer, or the probe of duplicate address detection (R49) -/
  | field (frame : List Byte)
  /-- the Clause 148 settings programmed into the field network's PHY over MDC and MDIO (R48): PLCA on, or CSMA/CD; node id and count, transmit-opportunity timer, burst count and timer -/
  | phy (plca : Bool) (node count toTimer burst burstTimer : Nat)
  /-- a courier frame (R433) to one device (none: broadcast) -/
  | courier (dest : Option Nat) (msg : Courier)
  /-- a torus packet (R416): destination, WING, TYPE, channel, bytes after the route word -/
  | packet (dest wing type channel : Nat) (payload : List Byte)
  /-- a flit handed to a door (R414) -/
  | flit (door : Nat) (bytes : List Byte)
  /-- a completion-queue entry written to host memory (R508) -/
  | hostWrite (fn address : Nat) (bytes : List Byte)
  /-- an MSI-X message (R519): the address and the data that its table entry holds (R500) -/
  | msix (fn vector address data : Nat)
  /-- the completion of a BAR4 read: 0 successful, 1 Unsupported Request, 4 Completer Abort (R515) -/
  | bar4 (fn status : Nat) (bytes : List Byte)
  /-- a Poisoned TLP Received, advisory non-fatal, reported through a function's AER capability (R499) -/
  | aer (fn : Nat)
  /-- an Ethernet frame sent at a door: an Ailas frame in UDP, or ICMPv6 (R474, R475, R484) -/
  | eth (door : Nat) (bytes : List Byte)
  /-- a DOE or SPDM response (R520): transport and bytes -/
  | spdm (transport : Nat) (bytes : List Byte)
  /-- a Catalogue request forwarded to a package (R36, R616): destination, wing, view -/
  | forward (dest wing view : Nat) (req : Request)
  /-- a command or BAR4 access carried to a package (R517, R522): kinds 1-4 the entries of R506 (data the entry), 0x10 a BAR4 read (data the length), 0x11 a BAR4 write, 0x20 the effects of an FLR on the wing (R523), 0x21 SHIP_CANCEL (data the SHIP_ID); the manual gives the packets no layout -/
  | distribute (dest wing view kind address : Nat) (data : List Byte)
  /-- what a package answers to the anchor (R522) -/
  | result (dest : Nat) (answer : ForwardAnswer)
  /-- a pin driven (R633) -/
  | pin (name : String) (level : Bool)
  /-- a PMBus voltage command: rail and millivolts (R534) -/
  | vout (hall millivolts : Nat)
  /-- a laser module's output enable (R407) -/
  | laser (module : Nat) (on : Bool)
deriving DecidableEq, Repr

/-- The path a Catalogue request took (R34): a window's function, the torus with a view (R616), a Lormal session, or Lormal 1.x (R54). -/
inductive Path where
  | window (fn : Nat)
  | torus (view : Nat)
  | lormal (session : Nat)
  | lormal1
deriving DecidableEq, Repr

/-- The BAR0 window of one function (R42, R47): registers, data buffer, notification ring, and the path's NOTIFY_MASK (R45). -/
structure Window where
  req      : Nat := 0
  offset   : Nat := 0
  busy     : Bool := false
  done     : Bool := false
  result   : Nat := 0
  returned : Nat := 0
  buffer   : SMap Byte := []
  noteHead : Nat := 0
  noteTail : Nat := 0
  noteSeq  : Nat := 0
  ring     : NMap := []
  mask     : Nat := 0x0020
deriving DecidableEq, Repr

/-- SPDM connection state of one transport (R520, R610). -/
structure Spdm where
  version    : Nat := 0
  capsDone   : Bool := false
  algsDone   : Bool := false
  response   : List Byte := []
deriving DecidableEq, Repr

/-- An open Lormal or physical-function-window session (R44, R53-R59). -/
structure Session where
  id       : Nat
  slot     : Nat
  role     : Nat
  window   : Bool
  lastSeq  : Nat
  txSeq    : Nat
  stored   : List Byte
  key      : List Byte
  /-- the path's NOTIFY_MASK -/
  mask     : Nat
  noteSeq  : Nat
  spdm     : Spdm
  /-- the node whose request came last, to which NOTIFY frames go; the window's session has none -/
  peer     : Peer := {}
deriving DecidableEq, Repr

/-- A half-open session (R57). -/
structure HalfOpen where
  id      : Nat
  slot    : Nat
  window  : Bool
  phase1  : List Byte
  phase2  : List Byte
  ephKey  : Nat
deriving DecidableEq, Repr

/-- A claim on a DOMAIN object (R39). -/
structure Claim where
  key  : Nat
  who  : Path
  data : List Byte
deriving DecidableEq, Repr

/-- A request that was ready when the server took another one, and waits for its turn (R38): a Lormal frame, or what a packet of the anchor carries (R616). A window's waits in its registers. -/
inductive Waiting where
  | frame (bytes : List Byte)
  | torus (source wing view : Nat) (req : Request)
deriving DecidableEq, Repr

/-- The Catalogue server's paths and sessions (R34-R39, R44-R60). -/
structure Server where
  windows  : SMap Window := []
  sessions : List Session := []
  half     : List HalfOpen := []
  nextId   : Nat := 1
  claims   : List Claim := []
  /-- functions whose request has been forwarded and not yet answered (R33, R36) -/
  forwards : List (Nat × Nat) := []
  /-- requests that wait for their turn, and the Lormal session served last (R38) -/
  ready    : List Waiting := []
  lastLormal : Nat := 0
  /-- duplicate address detection on the field network (R49): the address is tentative until a node speaks to it, and not used once another node has it -/
  tentative : Bool := false
  duplicate : Bool := false
deriving DecidableEq, Repr

/-- A firmware slot of the flash (R606, R609). -/
structure FwSlot where
  status   : Nat := 0
  version  : Nat := 0
  svn      : Nat := 0
  revoke   : Nat := 0
  digest   : Nat := 0
  /-- KEY_INDEX of its signing key -/
  key      : Nat := 0
  /-- the last confirmed slot (R588), and a slot activated and not yet confirmed (R583) -/
  confirmed : Bool := false
  trial    : Bool := false
deriving DecidableEq, Repr

/-- The board flash (R635): persistent store with its layout version (R29, R31), writes not yet done (R30), the two report areas (R599), the firmware slots. -/
structure Flash where
  store    : NMap := []
  domains  : SMap (List Byte) := []
  layout   : Nat := 4
  badCopies : List Nat := []
  /-- the remap tables as last written (R381, R635) -/
  remap    : NMap := []
  queue    : List (Nat × Nat) := []
  report0  : List Byte := []
  report1  : List Byte := []
  slotA    : FwSlot := { status := 1, digest := Config.slotDigest 0, confirmed := true }
  slotB    : FwSlot := {}
deriving DecidableEq, Repr

/-- Instructions of the IEEE 1149.1 port that R618 names; `network` selects an IEEE 1687 instrument network. -/
inductive TapInstr where
  | bypass
  | idcode
  | samplePreload
  | extest
  | network (number : Nat)
deriving DecidableEq, Repr

/-- The security block (R602-R608, R618, R619). -/
structure Security where
  rollback  : Nat := 0
  revoked   : Nat := 0
  cdi1      : List Byte := []
  deviceKey : Nat := 0
  aliasKey  : Nat := 0
  seedLock  : Bool := false
  debug     : Bool := false
  digest    : Nat := 0
  /-- the instruction that the test port holds (R618) -/
  tap       : TapInstr := .idcode
deriving DecidableEq, Repr

/-- Pins and the power-on circuit (R587, R630, R633). -/
structure Pins where
  vddSys      : Bool := true
  resetN      : Bool := false
  startFlag   : Bool := false
  thermtripN  : Bool := true
  coolantOk   : Bool := false
  coolantSeen : Bool := false
  coolantLow  : Bool := false
deriving DecidableEq, Repr

/-- The checks of a beat that can fail (R83). -/
inductive Check where
  | column | duplicate | lockstep | residue | hbm (address : Nat) | sram (address : Nat) | fabric
  | inbound | fault (wing code : Nat) | coolant
deriving DecidableEq, Repr

/-- The beat unit and the package's place in the beat (R69-R97). -/
structure BeatUnit where
  synced     : Bool := false
  /-- the action of the next boundary, once known: true for ADVANCE -/
  action     : Option Bool := none
  nextBeat   : Nat := 0
  nextPeriod : Nat := 32
  latency    : Nat := 0
  latencies  : NMap := []
  /-- the last beat, plus 1, that each device is known to have committed: by its commit tokens, and by a READY for the next one (R82, R84) -/
  commits    : NMap := []
  /-- round trips of the timing frames that a measurement still gathers, by device (R74) -/
  trips      : SMap (List Nat) := []
  /-- the package that the last election found with ANCHOR_ENABLE (R73) -/
  anchor     : Option Nat := none
  /-- the beat whose work this package does; equal to BEAT_NUMBER unless it is behind (R89) -/
  doing      : Nat := 0
  committed  : Bool := true
  finished   : Bool := false
  readySent  : Bool := false
  recovering : Bool := false
  attempt    : Nat := 1
  fails      : Nat := 0
  checks     : List Check := []
  /-- the stored words that a read found uncorrectable in a failed attempt, and those of the attempt under way, less what has been written since (R395) -/
  badWords   : List Nat := []
  metBad     : List Nat := []
  ready      : List Nat := []
  notReady   : List (Nat × Bool) := []
  stretches  : Nat := 0
  overrun    : Nat := 0
  missed     : Nat := 0
  /-- the attempt is withheld and its replay has not begun (R88) -/
  dead : Bool := false
  /-- slack reports of the millisecond by device: sum and count, and the lowest ceiling each reported (R542, R543) -/
  slackSum   : NMap := []
  slackCount : NMap := []
  ceilings   : NMap := []
  /-- an edge of BEAT_IN has started a boundary that has not fallen yet (R79) -/
  beatInDue : Bool := false
  /-- the master has returned to its own timer (R79) -/
  ownTimer : Bool := false
deriving DecidableEq, Repr

/-- A running or waiting job (R221) and the manifest row in force (R227). -/
structure Job where
  image     : Nat
  record    : Nat
  sequences : Nat
  chunks    : Nat
  beatCount : Nat
  adapters  : Nat
  layers    : Nat
  manifest  : Nat
  seqTable  : Nat
  segDir    : Nat
  adapterTable : Nat
  layerTable : Nat
  recordArea : Nat
  recordCap : Nat
  start     : Nat
  written   : Nat
  step      : Nat
  chunk     : Nat
  lengths   : List Nat
  rows      : Nat
  opened    : Bool
deriving DecidableEq, Repr

/-- A submission-queue command taken and not yet completed (R507); `image` holds the SHIP_ID of a SHIP. -/
structure Pending where
  queue   : Nat
  command : Nat
  kind    : Nat
  address : Nat
  image   : Nat
  length  : Nat
  /-- order of the doorbell write that made the entry available -/
  order   : Nat := 0
  /-- packages whose result is still out, and whether one refused -/
  acks    : List Nat := []
  refused : Bool := false
deriving DecidableEq, Repr

/-- A wing (R65, R68, R231, R567). -/
structure Wing where
  job       : Option Job := none
  fatal     : Option (Nat × Nat) := none
  waiting   : List Pending := []
  running   : Option Pending := none
  commands  : List Pending := []
  poolStale : Bool := true
  /-- its images are unloaded when it halts (R523) -/
  dropImages : Bool := false
deriving DecidableEq, Repr

/-- A loaded program image (R513): its bytes as they were accepted, which the device does not read again (R514). -/
structure Image where
  address  : Nat
  length   : Nat
  steps    : Nat
  table    : Nat
  set      : Nat
  bytes    : List Byte
deriving DecidableEq, Repr

/-- Why a sequencer is held. -/
inductive Hold where
  | none
  | dependency
  | ringSlot
  | fillSlot
  | openRing
  | closeRing
  | cancelRing
  | counter
  | flag
  | collect
  | peerCredit
  | lightPath
deriving DecidableEq, Repr

/-- A completion record to be (R217), or the memory of a heavy descriptor in flight. -/
structure CRec where
  id      : Nat
  pos     : Nat
  desc    : Nat
  status  : Nat
  length  : Nat
  trunc   : Nat
  sat     : Nat
  special : Nat
  detail0 : Nat
  detail1 : Nat
deriving DecidableEq, Repr

/-- The status of a slot's sequencer in the beat: no program; waiting for its start; running; past SEAL; faulted or stopped. -/
inductive SeqStatus where
  | idle | waiting | running | sealed | stopped
deriving DecidableEq, Repr

/-- The sequencer of a logical slot (R174, R233). -/
structure Seq where
  wing    : Nat := 0
  program : List Nat := []
  pos     : Nat := 0
  status  : SeqStatus := .idle
  hold    : Hold := .none
  /-- the rings a held sequencer waits on (R362) -/
  waits   : List Nat := []
  /-- what a held descriptor reads, while earlier writes are not complete (R148) -/
  dep     : List (Nat × Nat) := []
  /-- body runs of the claim loop in progress (R217) -/
  runs    : Nat := 0
  cregs   : List Nat := [0, 0, 0, 0]
  /-- a claim loop in progress: position of its CLAIM and of the end of its body -/
  loop    : Option (Nat × Nat) := none
  phase   : Nat := 0
  /-- outer iterations of the current descriptor already done (ring consumers), or rows of a MOVE already issued -/
  iter    : Nat := 0
  /-- the ring slot that a MOVE has taken, by its address -/
  taken   : Option Nat := none
  leader  : Nat := 0
  members : List Nat := []
  group   : Nat := 16
  offset  : Nat := 0
  region  : Nat := 0
  regionSize : Nat := 0
  records : List CRec := []
  nextRec : Nat := 0
  /-- what the program meets, by position: upsets of the core (R157, R163), and passes that form the real part of a complex product (R131) -/
  slips    : List (Nat × Slip) := []
  realPart : List Nat := []
deriving DecidableEq, Repr

/-- An array instruction of a heavy descriptor (R235): one row pass and one K tile of one iteration. `gid` is the record number at rank 0, which names the group-wide issue; addresses are physical. -/
structure AInstr where
  recId  : Nat
  gid    : Nat
  pos    : Nat
  desc   : Nat
  rank   : Nat
  members : List Nat
  aAddr  : Nat
  /-- the chain's parameter block as the sequencer read it, empty for MATMUL (R255, R256) -/
  block  : List Byte
  bAddr  : Nat
  dAddr  : Nat
  auxAddr : Nat
  row0   : Nat
  rows   : Nat
  ktile  : Nat
  lastK  : Bool
  m      : Nat
  k      : Nat
  pass   : Nat
  /-- the run's adapter: store record, rank, scale bits (R269), 0 where none -/
  adapter : Nat
  aRank  : Nat
  aScale : Nat
  /-- products at odd K rows enter with their sign inverted: the real part of a complex product (R131) -/
  inverts : Bool
  /-- the instruction with K = RANK that forms the adapter term (R273) -/
  term   : Bool
deriving DecidableEq, Repr

/-- The weight tiles of a slot's arrays with their check weights (R143, R151, R152, R158): per column its format, its 64 elements and the scales of its two blocks; per array the sums c_k, the counts s_b and full mode. -/
structure Tile where
  fmts   : List Nat
  cols   : List (List Nat)
  scales : List (List Nat)
  check  : List (List Val)
  counts : List (List Nat)
  full   : List Bool
deriving DecidableEq, Repr

/-- A result row on its way out of the arrays (R146): per column the sums of its blocks, per array and block the check column's value (R153, R154), and per array whether its tile is checked in full mode (R152). -/
structure OutRow where
  instr  : AInstr
  row    : Nat
  sums   : List (List BlockSum)
  aScales : List Nat
  bScales : List (List Nat)
  checks : List (List (Option Val))
  specials : List (List (Option Nat))
  full   : List Bool
deriving DecidableEq, Repr

/-- Fold registers of one row of a pass (R236). -/
structure FoldRow where
  recId : Nat
  pass : Nat
  row  : Nat
  acc  : List Val
deriving DecidableEq, Repr

/-- A row whose epilogue waits for its adapter term (R273). -/
structure WaitRow where
  instr : AInstr
  row   : Nat
  acc   : List Val
deriving DecidableEq, Repr

/-- A factor r of the deferred row scale, as it went out with row i of the pass (R260). -/
structure Factor where
  gid  : Nat
  pass : Nat
  row  : Nat
  r    : Val
deriving DecidableEq, Repr

/-- u of a row after the pass's last K tile, converted to U_FMT: element values and block scales (R272, R273). -/
structure AdapterRow where
  gid    : Nat
  pass   : Nat
  row    : Nat
  fmt    : Nat
  vals   : List Val
  scales : List Nat
deriving DecidableEq, Repr

/-- A row pass of a chain with X (R265): this member's bytes by offset in the slot's lines, and whether all of its rows are in. -/
structure PeerPass where
  gid  : Nat
  desc : Nat
  pass : Nat
  row0 : Nat
  rows : Nat
  segs : List (Nat × List Byte)
  full : Bool
deriving DecidableEq, Repr

/-- A row-statistic partial on its way to rank 0 (R169). -/
structure Partial where
  gid  : Nat
  row  : Nat
  tile : Nat
  val  : Val
deriving DecidableEq, Repr

/-- The arrays of a slot's core (R142-R156, R235, R236). -/
structure Engine where
  queue    : List AInstr := []
  shadow   : Option Tile := none
  active   : Option Tile := none
  rows     : List OutRow := []
  folds    : List FoldRow := []
  waits    : List WaitRow := []
  peers    : List PeerPass := []
  partials : List Partial := []
  /-- partials that wait at rank 0, in the reserved region (R169) -/
  region   : List Partial := []
  /-- what this slot broadcasts to its group: row factors as rank 0, adapter rows as the holder of the adapter column tile -/
  factors  : List Factor := []
  uRows    : List AdapterRow := []
  streaming : Bool := false
  /-- row cycles that the arrays have taken since they last were idle (R546) -/
  taken    : Nat := 0
deriving DecidableEq, Repr

/-- A physical core (R162, R170). -/
structure Core where
  rowstat : NMap := []
  /-- 0: unlisted registers read +0; n + 1: they read free values of draw n (R162) -/
  rsDraw  : Nat := 0
  stopped : Bool := false
deriving DecidableEq, Repr

/-- A piece of a collective as a slot of a SOURCE 2 ring carries it (R467): its launch, origin, index and destination. -/
structure PieceId where
  group  : Nat
  seq    : Nat
  origin : Nat
  index  : Nat
  dest   : Nat
deriving DecidableEq, Repr

/-- A slot of a ring (R340, R347): 0 empty, 1 filling, 2 full, 3 draining. -/
structure RSlot where
  st     : Nat
  tag    : Nat
  len    : Nat
  sender : Nat
  beat   : Nat
  /-- every line is in; for SOURCE 1 and 2 a sender's data is there, in an empty slot what this beat has emptied of it (R357) -/
  landed : Bool
  /-- the sender's data is committed (R85) -/
  ok     : Bool := false
  folios : List Nat
  /-- the fill that claimed the slot last, and the order key of its descriptor (R325, R359) -/
  fill   : Nat := 0
  filler : Nat := 0
  /-- the order key of the descriptor that emptied or took the slot's committed contents in this beat (R359) -/
  emptier : Option Nat := none
  /-- the piece that a SOURCE 2 slot carries -/
  piece   : Option PieceId := none
deriving DecidableEq, Repr

/-- A stream ring (R340-R362). -/
structure Ring where
  isOpen   : Bool := false
  wing     : Nat := 0
  inHall   : Bool := false
  owner    : Nat := 0
  base     : Nat := 0
  slotSize : Nat := 0
  source   : Nat := 0
  peer     : Nat := 0
  head     : Nat := 0
  tail     : Nat := 0
  gen      : Nat := 0
  slots    : List RSlot := []
  closing  : Bool := false
  producer : Option Nat := none
  consumer : Option Nat := none
  touched  : Bool := false
  fresh    : Bool := false
  emptied  : Nat := 0
  /-- credits that the sender of a SOURCE 1 ring holds or has in flight (R355) -/
  credit   : Nat := 0
  stall    : Nat := 0
  waited   : Bool := false
  moved    : Bool := false
deriving DecidableEq, Repr

/-- A fill in flight (R348): the lines not yet landed. -/
structure Fill where
  hall    : Nat
  ring    : Nat
  id      : Nat
  slot    : Nat
  tag     : Nat
  lines   : List (Nat × List Byte)
  dropped : Bool
  len     : Nat
  folios  : List Nat
deriving DecidableEq, Repr

/-- The sender's side of a peer ring (R355). -/
structure PeerRing where
  credits  : Nat := 0
  granted  : Bool := false
  slotSize : Nat := 0
deriving DecidableEq, Repr

/-- Sequencing and streams of the package. -/
@[ext] structure Work where
  seqs      : SMap Seq := []
  engines   : SMap Engine := []
  cores     : SMap Core := []
  /-- work counters (R244), key (hall × 64 + leader) × 32 + counter -/
  counters  : NMap := []
  /-- local flags (R212), key hall × 64 + flag -/
  flags     : NMap := []
  /-- remote flags (R212), key wing × 64 + flag -/
  remote    : NMap := []
  /-- row-completion counters (R277), key hall × 16 + group -/
  rowsDone  : NMap := []
  rings     : SMap Ring := []
  ringsSeal : SMap Ring := []
  fills     : List Fill := []
  nextFill  : Nat := 0
  peers     : SMap PeerRing := []
  /-- contended cycles that held opens have lost in a row (R249), key hall × 64 + slot -/
  openLosses : NMap := []
  /-- credits the attempt spent, by peer ring (R355) -/
  peerSpent : NMap := []
  lightPath : NMap := []
  /-- remote signals due at the seal (R212): device, wing, flag, add, account tag -/
  signals   : List (Nat × Nat × Nat × Nat × Nat) := []
  /-- devices this package sent data to in the beat (R84) -/
  sentTo    : List Nat := []
  /-- counters that advance at the committing seal (R141), by wing × 2^24 + object key -/
  due       : NMap := []
  /-- images by wing × 2^32 + handle -/
  images    : SMap Image := []
deriving DecidableEq, Repr

/-- A correction-log entry (R378): sector and whether it was written back. -/
structure LogEntry where
  sector : Nat
  back   : Bool
deriving DecidableEq, Repr

/-- A descriptor as a fault names it (R219): hall, slot, wing, TAG and opcode. -/
structure Writer where
  hall : Nat
  slot : Nat
  wing : Nat
  tag  : Nat
  op   : Nat
deriving DecidableEq, Repr

/-- What one writer has put into a merge-buffer entry (R382): 64-byte sector number, its bytes by offset, and who wrote it: 0 a beat program, n + 1 function n, 101 a received shipment, 102 an edit of a folio table, 103 completion records. The parts of a sector are one entry. -/
structure Merge where
  sector : Nat
  bytes  : SMap (Option Byte)
  owner  : Nat
  /-- the descriptor of the beat program that wrote it last (R395) -/
  writer : Option Writer := none
deriving DecidableEq, Repr

/-- A pending write of the beat with its attempt mark (R247). -/
structure PWrite where
  attempt : Nat
  address : Nat
  bytes   : List Byte
deriving DecidableEq, Repr

/-- An HBM request that waits for admission (R365, R366): the hall that asks, the requester's index, the bytes, and whether it writes them. -/
structure HbmReq where
  hall    : Nat
  index   : Nat
  address : Nat
  bytes   : Nat
  write   : Bool
deriving DecidableEq, Repr

/-- Bytes of a core buffer that were copied from HBM: where they lie, where they came from, how many. -/
structure Load where
  dst : Nat
  src : Nat
  len : Nat
deriving DecidableEq, Repr

/-- Memories and their controllers (R368-R395). -/
structure Mem where
  /-- data bytes by device address, physical core buffers included -/
  cells     : List Host.Cell := []
  /-- check bytes by word address (device address ÷ 8): HBM unlisted 0, SRAM unlisted 0xFF -/
  checks    : SMap Byte := []
  /-- granules of HBM whose valid bit is set (R391) -/
  valid     : NMap := []
  /-- words of the valid-bit map that are uncorrectable: key stack × 2^20 + map word, value 1 copy one, 2 copy two, 3 both (R392) -/
  mapBad    : NMap := []
  logs      : SMap (List LogEntry) := []
  merges    : List Merge := []
  writes    : List PWrite := []
  /-- remap tables (R381): key stack × 256 + 8p + k for spare k of pseudo-channel p; value sector of the stack + 2^32 × valid + 2^40 once used -/
  remap     : NMap := []
  exhausted : List Nat := []
  noted     : List Nat := []
  scrubPos  : NMap := []
  storePos  : NMap := []
  lapTime   : NMap := []
  lapNoted  : List Nat := []
  selfRefresh : Bool := false
  /-- HBM admission (R365): 1 + the bytes in a hall's bucket, 0 while it has been full; waiting requests; contended cycles lost in a row (R249), key hall × 64 + index -/
  bucket    : NMap := []
  waiting   : List HbmReq := []
  losses    : NMap := []
  /-- sequence bits of the fabric (R375), by link × 2^16 + channel: the sender's next bit + 2 × the bit that the receiver expects; links as `linkOf` numbers them -/
  linkSeq   : NMap := []
  /-- where in HBM the bytes of core buffers came from, that a MOVE wrote there (R88, R394) -/
  loaded    : List Load := []
deriving DecidableEq, Repr

/-- A side record's header and scales (R310). -/
structure Side where
  format  : Nat := 0
  version : Nat := 1
  wing    : Nat := 0
  layout  : Nat := 0
  layer   : Nat := 0
  table   : Nat := 0
  loans   : Nat := 0
  keys    : Nat := 0
  values  : Nat := 0
  tokens  : Nat := 0
  gen     : Nat := 0
  firstPos : Nat := 0
  scales  : NMap := []
deriving DecidableEq, Repr

/-- The free list of one slot kind of a pool (R315): released folios, last in first out, then the indices never taken. -/
structure FreeList where
  stack : List Nat := []
  fresh : Nat := 0
  inUse : Nat := 0
deriving DecidableEq, Repr

/-- Where a folio table's entry lies: address of the entry, or of a global-list pair. -/
structure TableEdit where
  address : Nat
  value   : Nat
deriving DecidableEq, Repr

/-- A descriptor of FOLIO_COPY or FOLIO_LOAN waiting for the package's checks (R205). -/
structure LoanOp where
  hall : Nat
  slot : Nat
  pos  : Nat
  recId : Nat
  wing : Nat
  desc : Nat
deriving DecidableEq, Repr

/-- A change of a loan count that the seal makes besides those of FOLIO_COPY and FOLIO_LOAN: the order key of its descriptor, its place within the descriptor, the folio, and whether a loan is taken (R325, R328, R359). -/
structure LoanChange where
  key   : Nat
  sub   : Nat
  folio : Nat
  take  : Bool
deriving DecidableEq, Repr

/-- A table entry that appends of the beat write through (R328, R332, R333): the folio they write, the value its FIRST_POS must have, its done counts before the beat and now, and whether it is reused in place. -/
structure Append where
  wing   : Nat
  seq    : Nat
  layer  : Nat
  table  : Nat
  entry  : Nat
  folio  : Nat
  first  : Nat
  keys0  : Nat
  values0 : Nat
  keys   : Nat
  values : Nat
  reuse  : Bool
deriving DecidableEq, Repr

/-- Folios, as they stand in the beat (R308-R336). -/
structure Folios where
  sides  : SMap Side := []
  full   : SMap FreeList := []
  half   : SMap FreeList := []
deriving DecidableEq, Repr

/-- The folio unit: the state in the beat, the state at the last seal, and what is due at the seal. -/
structure FolioUnit where
  now      : Folios := {}
  sealed   : Folios := {}
  ops      : List LoanOp := []
  appends  : List Append := []
  edits    : List TableEdit := []
  /-- loans that appends release at the seal (R325, R328) -/
  changes  : List LoanChange := []
  /-- the beat's changes of loan counts have been made, in their order (R205, R325) -/
  settled  : Bool := false
deriving DecidableEq, Repr

/-- A packet being joined at a door (R421): its number and the flit indices held. -/
structure Join where
  packet : Nat
  have_  : List Nat
deriving DecidableEq, Repr

/-- A flit held by the router or a door (R414). -/
structure Flit where
  kind    : Nat
  vc      : Nat
  head    : Bool
  tail    : Bool
  packet  : Nat
  index   : Nat
  bytes   : List Byte
  /-- courier frames in marked sectors of a data flit (R415, R425) -/
  frames  : List (List Byte) := []
  /-- a codeword that carried it could not be corrected, though its CRC holds (R83, R413) -/
  lost    : Bool := false
  /-- on the package that sends it first: whose energy it is (R544): 1 + wing × 65,536 + tag; 0: nobody's -/
  owner   : Nat := 0
deriving DecidableEq, Repr

/-- A door (R399-R421); its STATE, MODE, VERSION, lanes and neighbour are Catalogue objects. -/
structure Door where
  locked   : Nat := 0
  /-- SEQ of the next flit sent; flits sent and not acknowledged with their resends (R417); flits that wait for credit after another door went down (R420) -/
  seq      : Nat := 0
  window   : List (Nat × Flit × Nat) := []
  queue    : List Flit := []
  /-- SEQ expected next, and whether a NAK is out (R417) -/
  expect   : Nat := 0
  nak      : Bool := false
  /-- credits held at the far end and to be returned to it, by channel (R426) -/
  credits  : List Nat := [0, 0, 0, 0, 0]
  returns  : List Nat := [0, 0, 0, 0, 0]
  pktId    : Nat := 0
  /-- packets of which part has come (R421) -/
  joins    : List Join := []
  /-- L8 is free, on the receive and on the transmit side (R418) -/
  spare    : Bool := false
  spareTx  : Bool := false
  /-- down for want of light (R407, R408) -/
  dark     : Bool := false
deriving DecidableEq, Repr

/-- A laser module (R405-R407); its STATE is a Catalogue object. -/
structure Laser where
  present  : Bool := false
  enabled  : Bool := false
deriving DecidableEq, Repr

/-- Doors, lasers and router (R399-R436). -/
structure Torus where
  doors    : SMap Door := []
  lasers   : SMap Laser := []
  /-- flits and courier frames waiting at a port and channel, key port × 8 + channel -/
  inputs   : SMap (List Flit) := []
  /-- input port and channel to what its packet holds until the tail leaves (R423): 1 + output port × 8 + channel + 256 × PKT_ID; 2^30: taken out here, 2^31: taken out as data of the beat -/
  holds    : NMap := []
  /-- contended cycles lost in a row at an output (R249): channels by door × 8 + channel - 1, input ports by 1024 + (door × 8 + channel) × 32 + port -/
  losses   : NMap := []
  /-- entries of `out` that the router has looked at for packets of its own package -/
  taken    : Nat := 0
  forwarding : Bool := false
  /-- the torus shape in force, set at start (R64) -/
  shapeX   : Nat := 4
  shapeY   : Nat := 4
deriving DecidableEq, Repr

/-- A collective group (R437-R444). -/
structure Group where
  wing    : Nat
  members : List Nat
  digest  : Nat
  depth   : Nat
  conc    : Nat
  seqs    : NMap
  broken  : Option Nat
deriving DecidableEq, Repr

/-- A piece of a run on this package, received or formed (R457-R460): the rank it comes from (0xFFFF for a reduced piece), the rank it is for, its index, whether it is on its way back, its level, the beat that formed it, the package that sent it, whether it is committed, its elements as codes of DTYPE. -/
structure Piece where
  origin : Nat
  dest   : Nat
  index  : Nat
  back   : Bool
  level  : Nat
  beat   : Nat
  sender : Nat
  ok     : Bool
  codes  : List Nat
deriving DecidableEq, Repr

/-- A launch of a member on this package (R444-R450). -/
structure Launch where
  group    : Nat
  wing     : Nat
  hall     : Nat
  slot     : Nat
  inst     : Nat
  seq      : Nat
  rank     : Nat
  cop      : Nat
  dtype    : Nat
  narrow   : Option Nat
  /-- the run-time count; 0 for an empty member (R447) -/
  count    : Nat
  capacity : Nat
  root     : Nat
  src      : Nat
  dst      : Nat
  /-- the SOURCE 2 ring that DST names (R467) -/
  ring     : Option Nat
  tag      : Nat
  account  : Nat
  beat     : Nat
  committed : Bool
  /-- its COLLECT_WAIT has completed in the beat under way -/
  waited   : Bool
  drops    : Nat
  dropDests : Nat
deriving DecidableEq, Repr

/-- What this package knows of one launch of a group (R455-R466): the members' identities, its pieces, the courier sums by device and frame, its slots. -/
structure CollRun where
  group   : Nat
  seq     : Nat
  /-- rank, identity, empty -/
  frames  : List (Nat × List Byte × Bool) := []
  pieces  : List Piece := []
  /-- reducing pieces already formed here: stage, index, beat -/
  made    : List (Nat × Nat × Nat) := []
  courier : List (Nat × Nat × List Byte) := []
  /-- pieces delivered: hall, origin, index -/
  got     : List (Nat × Nat × Nat) := []
  slots   : Bool := false
  waited  : Nat := 0
  aborted : Option (Nat × List Byte) := none
deriving DecidableEq, Repr

/-- Collectives (R437-R471): groups, launches now and at the last seal, runs, commit tokens known by device and beat. -/
structure Collect where
  groups    : SMap (Option Group) := []
  seqsSeal  : SMap NMap := []
  launches  : List Launch := []
  launchesSeal : List Launch := []
  runs      : List CollRun := []
  tokens    : List (Nat × Nat) := []
  /-- withdrawals whose beats are being done again: device, beat (R461) -/
  redo      : List (Nat × Nat) := []
deriving DecidableEq, Repr

/-- A chunk of a shipment (R481, R490, R491). -/
structure Chunk where
  number : Nat
  folios : List Nat
  door   : Nat
  sends  : Nat
  acked  : Bool
  later  : Nat
deriving DecidableEq, Repr

/-- A shipment's session on this package (R477-R493): its record, the package that asked for it. STATE: 0 opening, 1 open, 2 closing, 3 ended. -/
structure Ship where
  session : Nat
  ship    : Nat
  wing    : Nat
  record  : List Byte
  home    : Nat
  st      : Nat := 0
  version : Nat := 0
  credit  : Nat := 0
  cum     : Nat := 0
  formats : Nat := 0
  chunks  : List Chunk := []
  /-- folios not yet eligible: layer, table, entry -/
  todo    : List (Nat × Nat × Nat) := []
  opens   : Nat := 0
  expiries : Nat := 0
  closes  : Nat := 0
  /-- the retransmission time in µs -/
  rtx     : Nat := 0
  /-- frames sent over the torus (R494) -/
  frames  : Nat := 0
  status  : Nat := 0
  /-- folios whose loans the next seal releases -/
  release : List Nat := []
  /-- every folio taken on loan, with its layer, table and entry (R480) -/
  taken   : List ((Nat × Nat × Nat) × Nat) := []
deriving DecidableEq, Repr

/-- A receive session (R495): the chunks whose folios the next seal takes. -/
structure Recv where
  session : Nat
  source  : Nat
  wing    : Nat
  record  : List Byte
  home    : Nat
  version : Nat
  cum     : Nat := 0
  marks   : List Nat := []
  /-- chunk number, entries, body -/
  held    : List (Nat × Nat × List Byte) := []
  frames  : Nat := 0
deriving DecidableEq, Repr

/-- Export (R472-R497). -/
structure Export where
  ships     : List Ship := []
  recvs     : List Recv := []
  /-- shipments that wait for a session (R493): wing, record, the package that asked -/
  waiting   : List (Nat × List Byte × Nat) := []
  /-- records with RECEIVE set (R495) -/
  receives  : List (Nat × List Byte × Nat) := []
  /-- fragments not yet joined (R494): source, session, frame count, index, count, bytes -/
  fragments : List (Nat × Nat × Nat × Nat × List Byte) := []
  nextSession : Nat := 1
  /-- resolved next hops: door, address and MAC address -/
  neighbours : List (Nat × List Byte × List Byte) := []
  /-- duplicate address detection on Ethernet doors (R475): addresses probed for, and addresses that another node has, by door -/
  tentative : List (Nat × List Byte) := []
  duplicates : List (Nat × List Byte) := []
  /-- ended shipments of the group on the anchor: wing, SHIP_ID, device, status -/
  ends      : List (Nat × Nat × Nat × Nat) := []
deriving DecidableEq, Repr

/-- A submission queue (R504-R507). -/
structure Sq where
  enable  : Bool := false
  size    : Nat := 0
  cq      : Nat := 0
  head    : Nat := 0
  tail    : Nat := 0
  st      : Nat := 0
  cause   : Nat := 0
  entries : NMap := []
  /-- order of the doorbell write that made each entry available -/
  orders  : NMap := []
  rest    : Nat := 0
deriving DecidableEq, Repr

/-- A completion queue (R504, R508, R510, R519). -/
structure Cq where
  base    : Nat := 0
  enable  : Bool := false
  size    : Nat := 0
  vector  : Nat := 0
  count   : Nat := 1
  time    : Nat := 0
  tail    : Nat := 0
  phase   : Bool := true
  fullWait : Bool := false
  head    : Nat := 0
  unsignalled : Nat := 0
  waiting : List Nat := []
deriving DecidableEq, Repr

/-- The host interface (R498-R524). -/
structure HostIf where
  sqs      : SMap Sq := []
  cqs      : SMap Cq := []
  /-- doorbell writes so far, for the order of R507 -/
  bells    : Nat := 0
  aperture : NMap := []
  /-- MSI-X table entries and Pending Bits by function × 4096 + vector; an entry is address, data and, in bit 96, the mask; an unlisted one is masked (log entry 19) -/
  vectors  : NMap := []
  pendingMsi : NMap := []
  busMaster : NMap := []
  vfEnable : Bool := false
  numVfs   : Nat := 0
  doe      : Spdm := {}
deriving DecidableEq, Repr

/-- Power and thermal control (R526-R552). Energies are in fJ; a power over one 10 µs window is kept as its energy. -/
structure Power where
  /-- counts of the window by unit × 16 + kind (kinds of R527: 0 to 6); units 0-7 halls, 8-15 engines, 16 the system die -/
  counts    : NMap := []
  /-- events of the window by descriptor: ((hall × 16 + wing) × 65,536 + tag) × 8 + kind (R544) -/
  attributed : NMap := []
  /-- whose energy the packets are (R544): place in `out` to 1 + wing × 65,536 + tag -/
  owners    : NMap := []
  /-- counts of the millisecond, its raw estimate, its power figure, its windows (R529, R539) -/
  msCounts  : NMap := []
  rawSum    : Nat := 0
  powSum    : Nat := 0
  windows   : Nat := 0
  /-- milliseconds counted by POWER_CALIBRATION -/
  msTick    : Nat := 0
  /-- g in units of 1/65,536 (R529) -/
  gain      : Nat := 65536
  /-- last reading in W and failed reads in a row, by regulator (R530) -/
  lastPout  : NMap := []
  failed    : NMap := []
  /-- PMBUS_LOST is in force, and the good milliseconds since (R530) -/
  lost      : Bool := false
  goodMs    : Nat := 0
  /-- comparisons in a row above 15%, above 30% and within 15% (R531, R532) -/
  over15    : Nat := 0
  over30    : Nat := 0
  within15  : Nat := 0
  /-- M of the last millisecond, in W -/
  measured  : Nat := 0
  /-- the point a hall rises to while its voltage settles: hall to point + 1 (R534) -/
  target    : NMap := []
  /-- milliseconds above the limit at FLOOR_POINT (R539) -/
  unreachMs : Nat := 0
  /-- a hall ran below FIXED_POINT in the beat; milliseconds of the last records (R540, R549) -/
  departed  : Bool := false
  departAt  : Option Nat := none
  throttleAt : NMap := []
  /-- the common cap in force, and the share from the master (R541, R543); none: POWER_LIMIT -/
  cap       : Option Nat := none
  share     : Option Nat := none
  /-- shares that wait for their beat's open -/
  coming    : Option (Nat × List Nat × Option Nat) := none
  /-- on the master: slack of the finished millisecond (device to mean + 1), lowest ceiling reported, whether the move of R542 is due, and what it last sent -/
  msSlack   : NMap := []
  msCeiling : Nat := 15
  moveDue   : Bool := false
  sent      : List Nat × Option Nat := ([], none)
  /-- attributed energy in fJ since start, by wing × 65,536 + tag; key 2^20: unassigned (R545) -/
  energy    : NMap := []
  /-- the coolant stop in force and the beat at which compute stopped (R551) -/
  coolStop  : Bool := false
  coolBeat  : Nat := 0
deriving DecidableEq, Repr

/-- An error record (R574). -/
structure ErrRec where
  code    : Nat
  device  : Nat
  unit    : Nat
  index   : Nat
  wing    : Option Nat
  beat    : Nat
  supp    : Nat
  number  : Nat
  detail  : List Byte
deriving DecidableEq, Repr

/-- What a snapshot shows of values that the machine keeps outside the Catalogue's store, as they stood at the last beat seal (R40). -/
structure SealView where
  server   : Server := {}
  sec      : Security := {}
  doms     : SMap (List Byte) := []
  passedMs : NMap := []
  records  : List ErrRec := []
  report   : List Byte := []
  cycles   : List Nat := []
  msTick   : Nat := 0
  slotA    : FwSlot := {}
  slotB    : FwSlot := {}
  groups   : SMap (Option Group) := []
  remap    : NMap := []
deriving DecidableEq, Repr

/-- A sparing under way (R560): hall, slot, the failed core and the reserve that takes its place. -/
structure Spare where
  hall : Nat
  slot : Nat
  failed : Nat
  reserve : Nat
deriving DecidableEq, Repr

/-- The curator, the fault records, service and start (R556-R601). -/
structure Curator where
  records   : List ErrRec := []
  number    : Nat := 0
  suppressed : NMap := []
  sparing   : List Spare := []
  /-- physical core by hall × 64 + core: order number of its last passed test, 0 for none since start -/
  passed    : NMap := []
  passCount : Nat := 0
  /-- the millisecond of that test + 1 -/
  passedMs  : NMap := []
  tested    : List Nat := []
  exchange  : List (Nat × Nat) := []
  suspended : List Nat := []
  /-- changes of the enabled-core map that the next seal makes (R63, R561): core (hall × 64 + core), and whether it has passed its test -/
  mapDue    : List (Nat × Bool) := []
  restarts  : Nat := 0
  down      : Bool := false
  heldRecords : List ErrRec := []
  removing  : Bool := false
  stopKind  : Nat := 0
  stopBeat  : Nat := 0
  testStatus : Nat := 0
  sample    : Nat := 0
  report    : List Byte := []
  newReport : List Byte := []
  unusable  : Blocks := { cores := [], stores := 0, hbmStacks := 0, routers := 0, fabrics := 0, doors := 0, lanes := [] }
  failedNow : Blocks := { cores := [], stores := 0, hbmStacks := 0, routers := 0, fabrics := 0, doors := 0, lanes := [] }
  /-- switched power domains that are on (R17), by number: cores 64h + c below 512, stores 512 + h, HBM controllers 528 + h, doors 536 + d, slices 552 + k, system 560-565; the fabrics 520 + h are on whenever the package is powered and are not switched (R12, `State.domainOn`) -/
  domains   : NMap := []
  /-- the activation under way (R581, R583): 0 none, 1 of the inactive slot, 2 back by command, 3 back by expiry of the trial -/
  activating : Nat := 0
  fatalPending : Bool := false
  /-- every hall is stopped by a package fault (R571), a thermal trip (R550) or a coolant stop (R551) -/
  hallsStopped : Bool := false
  /-- the millisecond count at the last WING_MISMATCH record (R615) -/
  mismatchAt : Option Nat := none
  /-- draws of passing cycles since start, which every core's CYCLE_COUNTER sums (R164) -/
  cycles    : List Nat := []
  /-- the machine's other Catalogue values as at the last seal (R40) -/
  seen      : SealView := {}
deriving DecidableEq, Repr

/-- The whole package, with the queue of waiting commands. -/
@[ext]
structure State where
  /-- the commands that are waiting, first in first out -/
  pending : List Instr := []
  /-- draws of free values made so far: the model's own -/
  free    : Nat := 0
  out     : List Out := []
  /-- Catalogue values (R20): accession × 256 + subindex; an unlisted object reads its default -/
  cat     : NMap := []
  /-- Catalogue values as they stood at the last beat seal (R40, R611) -/
  catSeal : NMap := []
  /-- values in use of objects flagged "applies at beat open" (R28), where they differ from `cat` -/
  inUse   : SMap (Option Nat) := []
  /-- contents of DOMAIN objects -/
  doms    : SMap (List Byte) := []
  server  : Server := {}
  flash   : Flash := {}
  sec     : Security := {}
  pins    : Pins := {}
  beat    : BeatUnit := {}
  wings   : SMap Wing := []
  work    : Work := {}
  mem     : Mem := {}
  folio   : FolioUnit := {}
  torus   : Torus := {}
  coll    : Collect := {}
  ship    : Export := {}
  host    : HostIf := {}
  power   : Power := {}
  cur     : Curator := {}
deriving DecidableEq, Repr

/-- The machine right after reset (R29, R587, R601): every object at its default, every memory as R389 and R391 say, RESET_N still low, nothing started. The power-on circuit's flag is clear. Values for which the manual gives no reset value are zero or empty (log entry 4). -/
def State.reset : State := {}

/-- No command of this model ends in a fault: every failure of the manual is a state. The type has one constructor for a state that no package can be in. -/
inductive Fault where
  /-- raised by nobody; it stands for a machine without power, which takes no command at all. Safe. -/
  | noPower
deriving DecidableEq, Repr

/-- Why a command is refused. -/
inductive Refusal where
  /-- raised by an arm of `exec` whose command has no meaning yet. Safe. -/
  | notModelled (mnemonic : String)
deriving DecidableEq, Repr

end Sys2Proof.Machine
end

