-- ==== Sys2Proof/Machine/Keep.lean ====
section
/-! DEFINITION. What each family of commands leaves alone, said once: a family's effect is taken together with the parts of the state it owns, and every other part stays as it was. -/

namespace Sys2Proof.Machine

/-- Descriptors that compute and move (R174-R201, R206-R216, R235-R307): latched values, domains, security, pins, doors, collectives and export stay. -/
def keepWork (s t : State) : State :=
  { t with pending := s.pending, inUse := s.inUse, doms := s.doms, sec := s.sec, pins := s.pins, torus := s.torus
           coll := s.coll, ship := s.ship }

/-- Descriptors that leave the folio unit alone as well. -/
def keepCompute (s t : State) : State := { keepWork s t with folio := s.folio }

/-- Collectives and the beat: security, pins and doors stay. -/
def keepBeat (s t : State) : State := { t with pending := s.pending, sec := s.sec, pins := s.pins, torus := s.torus }

/-- Memory events (R365, R383-R388): the wing's work, streams of descriptors and everything outside memory, records and counters stay. -/
def keepMemory (s t : State) : State :=
  { keepWork s t with folio := s.folio, power := s.power, work := s.work }

/-- Memory, but for what an error record in the HBM ring changes of it (R575). -/
def keepRecords (m n : Mem) : Mem := { m with cells := n.cells, checks := n.checks, valid := n.valid, merges := n.merges }

/-- Doors, lasers and the router (R399-R436, R472): security, pins, folios, memory but for error records, and jobs stay. -/
def keepLink (s t : State) : State :=
  { t with pending := s.pending, sec := s.sec, pins := s.pins, folio := s.folio, mem := keepRecords s.mem t.mem, host := s.host, doms := s.doms }

/-- Power and temperature (R526-R552): security, pins, folios, doors and collectives stay. -/
def keepPower (s t : State) : State :=
  { t with pending := s.pending, pins := s.pins, sec := s.sec, folio := s.folio, torus := s.torus, coll := s.coll, doms := s.doms }

/-- The host interface and export (R472-R524): security, pins and doors stay. -/
def keepHost (s t : State) : State := { t with pending := s.pending, sec := s.sec, pins := s.pins, torus := s.torus }

/-- The Catalogue (R20-R60) and services behind it: security and pins stay. -/
def keepCatalogue (s t : State) : State := { t with pending := s.pending, sec := s.sec, pins := s.pins }

/-- Service commands that may change fuses, keys and pins: only the queue stays. -/
def keepQueue (s t : State) : State := { t with pending := s.pending }

end Sys2Proof.Machine
end

