-- ==== Sys2Proof/Machine/Crypto.lean ====
section
/-! DEFINITION. The codes and the cryptography the manual names: CRC-32C (R415), CRC-64 of ECMA-182 (R486), SHA-256, HMAC and HKDF (R50, R56, R603), and P-256 with ECDSA and ECDH (R55, R56, R603, R606). -/

namespace Sys2Proof.Machine

/-! ### CRCs -/

/-- One bit of a reflected CRC register. -/
def crcReflBit (poly c : Nat) : Nat := if c % 2 = 1 then (c >>> 1) ^^^ poly else c >>> 1

/-- CRC-32C: polynomial 0x1EDC_6F41 reflected, initial value and final exclusive OR all ones (R415). -/
def crc32c (bs : List Byte) : Nat :=
  (bs.foldl (fun c b =>
    (List.range 8).foldl (fun c _ => crcReflBit 0x82F63B78 c) (c ^^^ b.toNat)) 0xFFFFFFFF) ^^^ 0xFFFFFFFF

/-- One bit of an unreflected CRC-64 register. -/
def crc64Bit (c : Nat) : Nat :=
  if 2 ^ 63 ≤ c then (2 * c) % 2 ^ 64 ^^^ 0x42F0E1EBA9EA3693 else 2 * c

/-- CRC-64: the ECMA-182 polynomial, initial value 0, no reflection, no final exclusive OR (R486). -/
def crc64 (bs : List Byte) : Nat :=
  bs.foldl (fun c b => (List.range 8).foldl (fun c _ => crc64Bit c) (c ^^^ (b.toNat <<< 56))) 0

/-! ### SHA-256

The constants are computed from their definition: fraction bits of roots of the first primes. -/

/-- The largest n below 2^k, counted from `lo`, whose value under a rising function does not pass x. -/
def rootBelow (f : Nat → Nat) (x : Nat) : Nat → Nat → Nat
  | 0, lo => lo
  | k + 1, lo => rootBelow f x k (if f (lo + 2 ^ k) ≤ x then lo + 2 ^ k else lo)

/-- The first 64 primes. -/
def primes64 : List Nat :=
  [2, 3, 5, 7, 11, 13, 17, 19, 23, 29, 31, 37, 41, 43, 47, 53, 59, 61, 67, 71, 73, 79, 83, 89, 97, 101, 103, 107, 109, 113, 127, 131] ++
  [137, 139, 149, 151, 157, 163, 167, 173, 179, 181, 191, 193, 197, 199, 211, 223, 227, 229, 233, 239, 241, 251, 257, 263, 269, 271, 277,
   281, 283, 293, 307, 311]

/-- The first 32 fraction bits of a number's square root, and of its cube root. -/
def sqrtFraction (p : Nat) : Nat := rootBelow (fun n => n * n) (p <<< 64) 37 0 % 2 ^ 32
def cbrtFraction (p : Nat) : Nat := rootBelow (fun n => n * n * n) (p <<< 96) 35 0 % 2 ^ 32

/-- The round constants and the initial hash value. -/
def shaK : List Nat := primes64.map cbrtFraction
def shaInit : List Nat := (primes64.take 8).map sqrtFraction

/-- The exclusive OR of a 32-bit word's rotations to the right, and of one shift. -/
def rotations (rs : List Nat) (shift : Nat) (x : Nat) : Nat :=
  rs.foldl (fun acc r => acc ^^^ (x * 2 ^ (32 - r) % 2 ^ 32 + x / 2 ^ r)) (if shift = 0 then 0 else x / 2 ^ shift)

/-- The message schedule: each further word from the last sixteen, which stand newest first. -/
def shaExtend : Nat → List Nat → List Nat
  | 0, l => l
  | k + 1, l =>
    let back := fun i => l.getD (i - 1) 0
    shaExtend k ((back 16 + rotations [7, 18] 3 (back 15) + back 7 + rotations [17, 19] 10 (back 2)) % 2 ^ 32 :: l)

/-- One round: the working words move down by one place, the first and the fifth get new sums. -/
def shaStep (h : List Nat) (k w : Nat) : List Nat :=
  let v := fun i => h.getD i 0
  let pick := (v 4 &&& v 5) ||| ((2 ^ 32 - 1 - v 4) &&& v 6)
  let most := (v 0 &&& (v 1 ||| v 2)) ||| (v 1 &&& v 2)
  let sum := v 7 + rotations [6, 11, 25] 0 (v 4) + pick + k + w
  (sum + rotations [2, 13, 22] 0 (v 0) + most) % 2 ^ 32 :: (h.take 7).set 3 ((v 3 + sum) % 2 ^ 32)

/-- One 64-byte block. -/
def shaBlock (h : List Nat) (blk : List Byte) : List Nat :=
  let words := ((List.range 16).map (fun i => beAt blk (4 * i) 4)).reverse
  let out := (shaK.zip (shaExtend 48 words).reverse).foldl (fun a e => shaStep a e.1 e.2) h
  (h.zip out).map (fun e => (e.1 + e.2) % 2 ^ 32)

/-- SHA-256, 32 bytes: the message, a one bit, zeros up to eight bytes short of a whole block, and the length in bits. -/
def sha256 (bs : List Byte) : List Byte :=
  let body := bs ++ [0x80#8]
  let padded := body ++ List.replicate ((56 + 64 - body.length % 64) % 64) 0#8 ++ beBytes 8 (8 * bs.length)
  ((chunksOf 64 padded).foldl shaBlock shaInit).flatMap (beBytes 4)

/-- HMAC-SHA-256. -/
def hmac (key msg : List Byte) : List Byte :=
  let k := fitBytes 64 (if 64 < key.length then sha256 key else key)
  let pad := fun (p : Byte) => k.map (fun b => b ^^^ p)
  sha256 (pad 0x5C#8 ++ sha256 (pad 0x36#8 ++ msg))

/-- HKDF-SHA-256, n bytes. -/
def hkdf (salt ikm info : List Byte) (n : Nat) : List Byte :=
  let prk := hmac (if salt = [] then List.replicate 32 0 else salt) ikm
  let t := (List.range (ceilDiv n 32)).foldl (fun (s : List Byte × List Byte) i =>
    let b := hmac prk (s.1 ++ info ++ [BitVec.ofNat 8 (i + 1)])
    (b, s.2 ++ b)) ([], [])
  t.2.take n

/-- The ASCII bytes of a text. -/
def ascii (s : String) : List Byte := s.toList.map (fun c => BitVec.ofNat 8 c.toNat)

/-! ### P-256 -/

def p256p : Nat := 0xffffffff00000001000000000000000000000000ffffffffffffffffffffffff
def p256n : Nat := 0xffffffff00000000ffffffffffffffffbce6faada7179e84f3b9cac2fc632551
def p256b : Nat := 0x5ac635d8aa3a93e7b3ebbd55769886bc651d06b0cc53b0f63bce3c3e27d2604b
def p256g : Nat × Nat :=
  (0x6b17d1f2e12c4247f8bce6e563a440f277037d812deb33a0f4a13945d898c296,
   0x4fe342e2fe1a7f9b8ee7eb4a7c0f9e162bce33576b315ececbb6406837bf51f5)

/-- b^x mod m by the low `k` bits of x. -/
def powMod (m : Nat) : Nat → Nat → Nat → Nat → Nat
  | 0, _, _, acc => acc
  | k + 1, b, x, acc => powMod m k (b * b % m) (x / 2) (if x % 2 = 1 then acc * b % m else acc)

/-- The inverse modulo a prime. -/
def invMod (m a : Nat) : Nat := powMod m 256 (a % m) (m - 2) 1

/-- A point of the curve; none is the point at infinity. -/
abbrev Point := Option (Nat × Nat)

/-- The point sum. -/
def pointAdd : Point → Point → Point
  | none, q => q
  | p, none => p
  | some (x1, y1), some (x2, y2) =>
    let m := p256p
    if x1 = x2 ∧ (y1 + y2) % m = 0 then none
    else
      let l := if x1 = x2 then (3 * x1 * x1 + (m - 3)) * invMod m (2 * y1) % m
               else (y2 + m - y1) * invMod m (x2 + m - x1) % m
      let x3 := (l * l + (m - x1) + (m - x2)) % m
      some (x3, (l * (x1 + m - x3) + (m - y1)) % m)

/-- The multiple k · P. -/
def pointMulAux : Nat → Nat → Point → Point → Point
  | 0, _, _, acc => acc
  | n + 1, k, p, acc =>
    pointMulAux n (k / 2) (pointAdd p p) (if k % 2 = 1 then pointAdd acc p else acc)

def pointMul (k : Nat) (p : Point) : Point := pointMulAux 256 k p none

/-- The point is on the curve, its coordinates reduced. -/
def onCurve (x y : Nat) : Bool :=
  decide (x < p256p) && decide (y < p256p) &&
    decide (y * y % p256p = (x * x * x + (p256p - 3) * x + p256b) % p256p)

/-- A public key as 64 bytes, x then y, big-endian. -/
def keyBytes : Point → List Byte
  | none => List.replicate 64 0
  | some (x, y) => beBytes 32 x ++ beBytes 32 y

/-- The point 64 bytes name, where it is on the curve. -/
def keyPoint (bs : List Byte) : Point :=
  let x := beAt bs 0 32
  let y := beAt bs 32 32
  if onCurve x y then some (x, y) else none

/-- ECDSA signature r then s of a message under a private key with per-signature number k (R55, R600). -/
def ecdsaSign (d k : Nat) (msg : List Byte) : List Byte :=
  let z := beNat (sha256 msg)
  let kk := k % (p256n - 1) + 1
  let r := match pointMul kk (some p256g) with
    | some (x, _) => x % p256n
    | none => 0
  let s := invMod p256n kk * (z + r * d) % p256n
  beBytes 32 r ++ beBytes 32 s

/-- ECDSA verification (R55, R606). -/
def ecdsaVerify (key : List Byte) (msg sig : List Byte) : Bool :=
  let r := beAt sig 0 32
  let s := beAt sig 32 32
  let z := beNat (sha256 msg)
  match keyPoint key with
  | none => false
  | some q =>
    if r = 0 ∨ s = 0 ∨ p256n ≤ r ∨ p256n ≤ s then false
    else
      let w := invMod p256n s
      match pointAdd (pointMul (z * w % p256n) (some p256g)) (pointMul (r * w % p256n) (some q)) with
      | none => false
      | some (x, _) => x % p256n == r

/-- The private key of a CDI (R603): (h mod (n - 1)) + 1 of 48 bytes of HKDF output with an empty salt. -/
def keyOfCdi (cdi : List Byte) (info : String) : Nat :=
  beNat (hkdf [] cdi (ascii info) 48) % (p256n - 1) + 1

/-- The public key of a private one. -/
def publicKey (d : Nat) : List Byte := keyBytes (pointMul d (some p256g))

end Sys2Proof.Machine
end

