-- ==== Sys2Proof/Machine/Net.lean ====
section
/-! DEFINITION. Ethernet, IPv6, UDP and ICMPv6 frames of the Ethernet doors and of the field network (R49, R474, R475): building, parsing and checksums. The layouts are those of the standards the manual names. -/

namespace Sys2Proof.Machine

open Sys2Proof

/-- The CRC-32 of the Ethernet frame check sequence. -/
def crc32 (bs : List Byte) : Nat :=
  (bs.foldl (fun c b => (List.range 8).foldl (fun c _ => crcReflBit 0xEDB88320 c) (c ^^^ b.toNat)) 0xFFFFFFFF) ^^^ 0xFFFFFFFF

/-- The Internet checksum of a byte string: the complement of the one's complement sum of its 16-bit words. -/
def inetSum (bs : List Byte) : Nat :=
  let s := (chunksOf 2 bs).foldl (fun a w => a + ((w[0]?).getD 0).toNat * 256 + ((w[1]?).getD 0).toNat) 0
  let f := fun (x : Nat) => x % 65536 + x / 65536
  65535 - f (f (f s))

/-- The checksum of an upper-layer payload with its IPv6 pseudo-header. -/
def upperSum (src dst : List Byte) (next : Nat) (payload : List Byte) : Nat :=
  inetSum (src ++ dst ++ beBytes 4 payload.length ++ [0, 0, 0] ++ beBytes 1 next ++ payload)

/-- The payload with its checksum field, at offset `off`, filled in. -/
def withSum (src dst : List Byte) (next off : Nat) (payload : List Byte) : List Byte :=
  let c := upperSum src dst next payload
  overlay payload off (beBytes 2 (if c = 0 ∧ next = 17 then 0xFFFF else c))

/-- The link-local address formed from a MAC address by modified EUI-64 (R49, R475). -/
def linkLocal (mac : List Byte) : List Byte :=
  [0xFE, 0x80, 0, 0, 0, 0, 0, 0] ++ [(mac.headD 0) ^^^ 0x02] ++ slice mac 1 2 ++ [0xFF, 0xFE] ++ slice mac 3 3

/-- The solicited-node multicast address of an address, and the MAC addresses of multicast groups. -/
def solicitedNode (a : List Byte) : List Byte := [0xFF, 0x02, 0, 0, 0, 0, 0, 0, 0, 0, 0, 1, 0xFF] ++ slice a 13 3
def multicastMac (a : List Byte) : List Byte := [0x33, 0x33] ++ slice a 12 4
def allNodes : List Byte := [0xFF, 0x02, 0, 0, 0, 0, 0, 0, 0, 0, 0, 0, 0, 0, 0, 1]
def noAddress : List Byte := List.replicate 16 0

/-- An Ethernet interface: its MAC address, its own addresses, VLAN, traffic class and hop limit. -/
structure Iface where
  mac   : List Byte
  addrs : List (List Byte)
  vlan  : Nat
  tc    : Nat
  hops  : Nat
deriving DecidableEq, Repr

/-- An IPv6 packet taken from a frame. -/
structure Ip6 where
  srcMac : List Byte
  src    : List Byte
  dst    : List Byte
  next   : Nat
  hops   : Nat
  body   : List Byte
deriving DecidableEq, Repr

/-- A frame with one IPv6 packet, padded to 60 bytes, and its frame check sequence. -/
def Iface.frame (i : Iface) (dstMac src dst : List Byte) (next hops : Nat) (body : List Byte) : List Byte :=
  let ip := beBytes 4 (6 * 2 ^ 28 + i.tc * 2 ^ 20) ++ beBytes 2 body.length ++ beBytes 1 next ++ beBytes 1 hops ++ src ++ dst ++ body
  let tag := if i.vlan = 0 then [] else beBytes 2 0x8100 ++ beBytes 2 i.vlan
  let f := dstMac ++ i.mac ++ tag ++ beBytes 2 0x86DD ++ ip
  let f := f ++ List.replicate (60 - f.length) 0
  f ++ leBytes 4 (crc32 f)

/-- The MAC addresses an interface accepts (R474). -/
def Iface.macs (i : Iface) : List (List Byte) := i.mac :: multicastMac allNodes :: i.addrs.map (fun a => multicastMac (solicitedNode a))

/-- The packet of a frame that the interface accepts (R474): size, destination, tag, EtherType, and UDP or ICMPv6 next. The frame includes its frame check sequence. -/
def Iface.accept (i : Iface) (f : List Byte) : Option Ip6 :=
  let off := if i.vlan = 0 then 12 else 16
  let ip := f.drop (off + 2)
  let len := beAt ip 4 2
  let next := beAt ip 6 1
  if f.length < 64 ∨ 9216 < f.length ∨ !i.macs.contains (slice f 0 6) then none
  else if i.vlan ≠ 0 ∧ (beAt f 12 2 ≠ 0x8100 ∨ beAt f 14 2 % 4096 ≠ i.vlan) then none
  else if beAt f off 2 ≠ 0x86DD ∨ beAt ip 0 1 / 16 ≠ 6 ∨ (next ≠ 17 ∧ next ≠ 58) ∨ ip.length < 40 + len + 4 then none
  else some { srcMac := slice f 6 6, src := slice ip 8 16, dst := slice ip 24 16, next := next, hops := beAt ip 7 1, body := slice ip 40 len }

/-- The checksum of a packet holds; a UDP datagram must carry one. -/
def Ip6.sumOk (p : Ip6) : Bool :=
  upperSum p.src p.dst p.next p.body == 0 && (p.next != 17 || beAt p.body 6 2 != 0)

/-- The packet is for one of the interface's addresses, or for all nodes or the solicited nodes. -/
def Iface.mine (i : Iface) (a : List Byte) : Bool := i.addrs.contains a || a == allNodes || (i.addrs.map solicitedNode).contains a

/-- The neighbour advertisement that answers a solicitation for one of the interface's addresses; a probe of duplicate address detection, whose source is unspecified, is answered to all nodes. -/
def Iface.advertise (i : Iface) (p : Ip6) (target : List Byte) : List Byte :=
  let dad := p.src == noAddress
  let dst := if dad then allNodes else p.src
  let flags := if dad then 0x20000000 else 0x60000000
  let body := [(136 : Byte), 0, 0, 0] ++ beBytes 4 flags ++ target ++ [2, 1] ++ i.mac
  i.frame (if dad then multicastMac allNodes else p.srcMac) target dst 58 255 (withSum target dst 58 2 body)

/-- The probe of duplicate address detection for an address: a solicitation from the unspecified address (R49). -/
def Iface.probe (i : Iface) (target : List Byte) : List Byte :=
  let dst := solicitedNode target
  let body := [(135 : Byte), 0, 0, 0, 0, 0, 0, 0] ++ target
  i.frame (multicastMac dst) noAddress dst 58 255 (withSum noAddress dst 58 2 body)

/-- A packet that shows an address to be another node's (R49): its advertisement, or another node's probe for it. -/
def Ip6.claims (p : Ip6) (a : List Byte) : Bool :=
  p.next == 58 && p.sumOk && p.hops == 255 && decide (24 ≤ p.body.length) && slice p.body 8 16 == a &&
    (beAt p.body 0 1 == 136 || (beAt p.body 0 1 == 135 && p.src == noAddress))

/-- The neighbour solicitation that resolves an address. -/
def Iface.solicit (i : Iface) (target : List Byte) : List Byte :=
  let src := (i.addrs.headD noAddress)
  let dst := solicitedNode target
  let body := [(135 : Byte), 0, 0, 0, 0, 0, 0, 0] ++ target ++ [1, 1] ++ i.mac
  i.frame (multicastMac dst) src dst 58 255 (withSum src dst 58 2 body)

/-- The answer of an echo request. -/
def Iface.echo (i : Iface) (p : Ip6) : List Byte :=
  let src := if i.addrs.contains p.dst then p.dst else i.addrs.headD noAddress
  let body := [(129 : Byte), 0, 0, 0] ++ p.body.drop 4
  i.frame p.srcMac src p.src 58 i.hops (withSum src p.src 58 2 body)

/-- What the interface answers to an ICMPv6 packet (R49, R475): neighbour solicitations for its addresses and, where `echoes`, echo requests; nothing else. -/
def Iface.icmp (i : Iface) (echoes : Bool) (p : Ip6) : Option (List Byte) :=
  let kind := beAt p.body 0 1
  let target := slice p.body 8 16
  if p.next ≠ 58 ∨ !p.sumOk then none
  else if kind = 135 ∧ p.hops = 255 ∧ 24 ≤ p.body.length ∧ i.addrs.contains target then some (i.advertise p target)
  else if kind = 128 ∧ echoes ∧ 8 ≤ p.body.length then some (i.echo p)
  else none

/-- The address and MAC address a neighbour advertisement reports. -/
def Ip6.learned (p : Ip6) : Option (List Byte × List Byte) :=
  if p.next = 58 ∧ p.sumOk ∧ p.hops = 255 ∧ beAt p.body 0 1 = 136 ∧ 32 ≤ p.body.length ∧ beAt p.body 24 1 = 2 ∧ beAt p.body 25 1 = 1 then
    some (slice p.body 8 16, slice p.body 26 6)
  else none

/-- The payload of a UDP datagram that carries a checksum which holds, is as long as it says and is for a port, with its source port. -/
def Ip6.datagram (p : Ip6) (port : Nat) : Option (Nat × List Byte) :=
  let len := beAt p.body 4 2
  if p.next = 17 ∧ p.sumOk = true ∧ 8 ≤ len ∧ len ≤ p.body.length ∧ beAt p.body 2 2 = port then some (beAt p.body 0 2, slice p.body 8 (len - 8)) else none

/-- A UDP datagram in a frame to a resolved next hop. -/
def Iface.udp (i : Iface) (dstMac src dst : List Byte) (srcPort dstPort : Nat) (payload : List Byte) : List Byte :=
  let body := beBytes 2 srcPort ++ beBytes 2 dstPort ++ beBytes 2 (payload.length + 8) ++ [0, 0] ++ payload
  i.frame dstMac src dst 17 i.hops (withSum src dst 17 6 body)

end Sys2Proof.Machine
end

