-- ==== Sys2Proof/Machine/Objects.lean ====
section
/-! DEFINITION. The Catalogue's objects (R20-R26, R61-R65 and the object tables of every chapter): accessions, subindices, types, access classes, flags, defaults and stated limits. An object is keyed by accession × 256 + subindex; every accession is a record (R20). -/

namespace Sys2Proof.Machine

/-- The stated limits of an object's value (R33, result RANGE). -/
inductive Limits where
  | any
  | range (lo hi : Nat)
  | mult (unit : Nat)
  /-- 0, or a power of two in the range (R586) -/
  | pow2 (lo hi : Nat)
  /-- an operator key: role byte 0-3 (R61) -/
  | key
deriving DecidableEq, Repr

/-- One row of an object table: accessions lo..hi, subindices sub..subHi, type code and length (R23), access class (R26), flags (R22: 1 persistent, 2 wing-scoped, 4 notifying, 8 public, 16 applies at beat open; 32 stands for "write only"), default, limits. -/
structure Obj where
  lo     : Nat
  hi     : Nat
  sub    : Nat
  subHi  : Nat
  ty     : Nat
  len    : Nat
  cls    : Nat
  flags  : Nat
  dflt   : Nat
  limits : Limits
deriving DecidableEq, Repr

/-- Objects of R61. -/
def objsR61 : List Obj := [
  ⟨0x1000, 0x1000, 1, 1, 12, 32, 0, 8, 2574115460306667510019499924231300680786471002, .any⟩,
  ⟨0x1000, 0x1000, 2, 2, 12, 16, 0, 8, 3473458628493068882, .any⟩,
  ⟨0x1000, 0x1000, 3, 3, 12, 16, 0, 8, 81357763343820193164446290, .any⟩,
  ⟨0x1000, 0x1000, 4, 4, 12, 4, 0, 8, 12609, .any⟩,
  ⟨0x1000, 0x1000, 5, 5, 11, 16, 0, 8, 0, .any⟩,
  ⟨0x1000, 0x1000, 6, 6, 3, 2, 0, 8, 33856, .any⟩,
  ⟨0x1000, 0x1000, 7, 7, 2, 1, 1, 8, 0, .any⟩,
  ⟨0x1000, 0x1000, 8, 8, 1, 1, 1, 8, 0, .any⟩,
  ⟨0x1000, 0x1000, 9, 9, 4, 4, 1, 0, 0, .any⟩,
  ⟨0x1000, 0x1000, 10, 10, 2, 1, 1, 0, 0, .any⟩,
  ⟨0x1000, 0x1000, 11, 11, 13, 0, 1, 0, 0, .any⟩,
  ⟨0x1010, 0x1010, 1, 7, 3, 2, 0, 8, 0, .any⟩,
  ⟨0x1011, 0x1011, 1, 7, 3, 2, 0, 8, 0, .any⟩,
  ⟨0x1020, 0x1020, 1, 1, 1, 1, 2, 1, 1, .any⟩,
  ⟨0x1020, 0x1020, 2, 2, 3, 2, 4, 1, 50730, .range 1024 65535⟩,
  ⟨0x1020, 0x1020, 3, 3, 11, 6, 4, 1, 0, .any⟩,
  ⟨0x1020, 0x1020, 4, 4, 2, 1, 4, 1, 255, .any⟩,
  ⟨0x1020, 0x1020, 5, 5, 2, 1, 4, 1, 8, .range 2 255⟩,
  ⟨0x1020, 0x1020, 6, 6, 2, 1, 4, 1, 32, .any⟩,
  ⟨0x1020, 0x1020, 7, 7, 2, 1, 4, 1, 0, .any⟩,
  ⟨0x1020, 0x1020, 8, 8, 2, 1, 4, 1, 128, .any⟩,
  ⟨0x1020, 0x1020, 9, 9, 2, 1, 1, 0, 0, .any⟩,
  ⟨0x1020, 0x1020, 10, 10, 3, 2, 0, 0, 60, .any⟩,
  ⟨0x1020, 0x1020, 11, 11, 1, 1, 1, 0, 0, .any⟩,
  ⟨0x1020, 0x1020, 12, 12, 4, 4, 1, 0, 0, .any⟩,
  ⟨0x1020, 0x1020, 13, 13, 4, 4, 1, 0, 0, .any⟩,
  ⟨0x1022, 0x1022, 1, 1, 3, 2, 2, 0, 32, .any⟩,
  ⟨0x1022, 0x1022, 2, 2, 2, 1, 1, 0, 0, .any⟩,
  ⟨0x1030, 0x1030, 1, 8, 11, 65, 5, 1, 0, .key⟩]

/-- Objects of R63. -/
def objsR63 : List Obj := [
  ⟨0x2000, 0x2007, 1, 40, 2, 1, 1, 1, 0, .any⟩,
  ⟨0x2000, 0x2007, 41, 41, 2, 1, 1, 1, 40, .any⟩,
  ⟨0x2000, 0x2007, 42, 42, 2, 1, 1, 1, 41, .any⟩,
  ⟨0x2008, 0x2008, 1, 8, 5, 8, 1, 0, 0, .any⟩,
  ⟨0x2100, 0x2100, 1, 1, 2, 1, 4, 1, 4, .any⟩,
  ⟨0x2100, 0x2100, 2, 2, 2, 1, 4, 1, 4, .any⟩,
  ⟨0x2100, 0x2100, 3, 3, 2, 1, 4, 1, 0, .any⟩,
  ⟨0x2100, 0x2100, 4, 4, 1, 1, 4, 1, 0, .any⟩,
  ⟨0x2100, 0x2100, 5, 5, 1, 1, 5, 32, 0, .any⟩]

/-- Objects of R65. -/
def objsR65 : List Obj := [
  ⟨0x3000, 0x300f, 1, 1, 5, 8, 4, 3, 0, .mult 268435456⟩,
  ⟨0x3000, 0x300f, 2, 2, 5, 8, 4, 3, 0, .mult 268435456⟩,
  ⟨0x3000, 0x300f, 3, 3, 2, 1, 1, 6, 0, .any⟩,
  ⟨0x3000, 0x300f, 4, 4, 2, 1, 3, 2, 0, .any⟩,
  ⟨0x3000, 0x300f, 5, 5, 2, 1, 4, 3, 0, .any⟩,
  ⟨0x3000, 0x300f, 6, 6, 1, 1, 4, 3, 0, .any⟩]

/-- Objects of R98. -/
def objsR98 : List Obj := [
  ⟨0x6000, 0x6000, 1, 1, 3, 2, 4, 1, 32, .range 4 4000⟩,
  ⟨0x6000, 0x6000, 2, 2, 3, 2, 1, 0, 32, .any⟩,
  ⟨0x6000, 0x6000, 3, 3, 2, 1, 4, 1, 0, .range 0 1⟩,
  ⟨0x6000, 0x6000, 4, 4, 2, 1, 1, 0, 0, .any⟩,
  ⟨0x6000, 0x6000, 5, 5, 3, 2, 1, 0, 0, .any⟩,
  ⟨0x6000, 0x6000, 6, 6, 3, 2, 1, 0, 0, .any⟩,
  ⟨0x6000, 0x6000, 7, 7, 3, 2, 1, 0, 0, .any⟩,
  ⟨0x6000, 0x6000, 8, 8, 5, 8, 1, 0, 0, .any⟩,
  ⟨0x6000, 0x6000, 9, 9, 5, 8, 1, 0, 0, .any⟩,
  ⟨0x6000, 0x6000, 10, 10, 5, 8, 1, 0, 0, .any⟩,
  ⟨0x6000, 0x6000, 11, 11, 5, 8, 1, 0, 0, .any⟩,
  ⟨0x6000, 0x6000, 12, 12, 4, 4, 1, 4, 0, .any⟩,
  ⟨0x6000, 0x6000, 13, 13, 3, 2, 4, 1, 64, .range 8 4096⟩,
  ⟨0x6000, 0x6000, 14, 14, 4, 4, 1, 0, 0, .any⟩,
  ⟨0x6000, 0x6000, 15, 15, 5, 8, 1, 0, 0, .any⟩]

/-- Objects of R140. -/
def objsR140 : List Obj := [
  ⟨0xc100, 0xc107, 1, 42, 5, 8, 1, 0, 0, .any⟩,
  ⟨0xc110, 0xc117, 1, 42, 5, 8, 1, 0, 0, .any⟩,
  ⟨0xc120, 0xc127, 1, 42, 5, 8, 1, 0, 0, .any⟩]

/-- Objects of R173. -/
def objsR173 : List Obj := [
  ⟨0x2010, 0x2017, 1, 42, 2, 1, 1, 4, 0, .any⟩,
  ⟨0x5100, 0x5107, 1, 42, 4, 4, 1, 0, 0, .any⟩,
  ⟨0x5110, 0x5117, 1, 42, 4, 4, 1, 0, 0, .any⟩,
  ⟨0xc130, 0xc137, 1, 42, 5, 8, 1, 0, 0, .any⟩,
  ⟨0xc140, 0xc147, 1, 42, 5, 8, 1, 0, 0, .any⟩,
  ⟨0xc150, 0xc157, 1, 42, 5, 8, 1, 0, 0, .any⟩,
  ⟨0xc160, 0xc167, 1, 42, 5, 8, 1, 0, 0, .any⟩,
  ⟨0xc170, 0xc177, 1, 42, 5, 8, 1, 0, 0, .any⟩,
  ⟨0xc180, 0xc187, 1, 42, 5, 8, 1, 0, 0, .any⟩]

/-- Objects of R251. -/
def objsR251 : List Obj := [
  ⟨0x3100, 0x310f, 1, 1, 2, 1, 1, 6, 0, .any⟩,
  ⟨0x3100, 0x310f, 2, 2, 4, 4, 1, 2, 0, .any⟩,
  ⟨0x3100, 0x310f, 3, 3, 5, 8, 1, 2, 0, .any⟩,
  ⟨0x3100, 0x310f, 4, 4, 4, 4, 1, 2, 0, .any⟩,
  ⟨0x6010, 0x6010, 1, 1, 2, 1, 4, 1, 8, .range 2 64⟩,
  ⟨0xc190, 0xc197, 1, 1, 5, 8, 1, 0, 0, .any⟩,
  ⟨0xc190, 0xc197, 2, 2, 5, 8, 1, 0, 0, .any⟩,
  ⟨0xc190, 0xc197, 3, 3, 5, 8, 1, 0, 0, .any⟩,
  ⟨0xc190, 0xc197, 4, 4, 5, 8, 1, 0, 0, .any⟩,
  ⟨0xc190, 0xc197, 5, 5, 5, 8, 1, 0, 0, .any⟩,
  ⟨0xc190, 0xc197, 6, 6, 5, 8, 1, 0, 0, .any⟩,
  ⟨0xc190, 0xc197, 7, 7, 5, 8, 1, 0, 0, .any⟩]

/-- Objects of R280. -/
def objsR280 : List Obj := [
  ⟨0xc1a0, 0xc1a7, 1, 1, 5, 8, 1, 0, 0, .any⟩,
  ⟨0xc1a0, 0xc1a7, 2, 2, 5, 8, 1, 0, 0, .any⟩,
  ⟨0xc1a0, 0xc1a7, 3, 3, 5, 8, 1, 0, 0, .any⟩,
  ⟨0xc1a0, 0xc1a7, 4, 4, 5, 8, 1, 0, 0, .any⟩,
  ⟨0xc1a0, 0xc1a7, 5, 5, 5, 8, 1, 0, 0, .any⟩]

/-- Objects of R306. -/
def objsR306 : List Obj := [
  ⟨0xc1b0, 0xc1b7, 1, 1, 5, 8, 1, 0, 0, .any⟩,
  ⟨0xc1b0, 0xc1b7, 2, 2, 5, 8, 1, 0, 0, .any⟩,
  ⟨0xc1b0, 0xc1b7, 3, 3, 5, 8, 1, 0, 0, .any⟩,
  ⟨0xc1b0, 0xc1b7, 4, 4, 5, 8, 1, 0, 0, .any⟩,
  ⟨0xc1b0, 0xc1b7, 5, 5, 5, 8, 1, 0, 0, .any⟩]

/-- Objects of R338. -/
def objsR338 : List Obj := [
  ⟨0x7000, 0x7000, 1, 1, 5, 8, 4, 1, 0, .mult 268435456⟩,
  ⟨0x7000, 0x7000, 2, 2, 5, 8, 1, 0, 341181464576, .any⟩,
  ⟨0x7100, 0x710f, 1, 1, 5, 8, 4, 3, 0, .mult 4096⟩,
  ⟨0x7100, 0x710f, 2, 2, 4, 4, 4, 3, 0, .range 0 134217727⟩,
  ⟨0x7100, 0x710f, 3, 3, 4, 4, 4, 3, 0, .range 0 134217727⟩,
  ⟨0x7100, 0x710f, 4, 4, 4, 4, 2, 3, 4294967295, .any⟩,
  ⟨0x7100, 0x710f, 5, 5, 4, 4, 2, 3, 4294967295, .any⟩,
  ⟨0x7100, 0x710f, 6, 6, 4, 4, 1, 2, 0, .any⟩,
  ⟨0x7100, 0x710f, 7, 7, 4, 4, 1, 2, 0, .any⟩,
  ⟨0x7100, 0x710f, 8, 8, 4, 4, 1, 2, 0, .any⟩,
  ⟨0x7100, 0x710f, 9, 9, 4, 4, 1, 2, 0, .any⟩,
  ⟨0x7100, 0x710f, 10, 10, 5, 8, 1, 2, 0, .any⟩,
  ⟨0x7100, 0x710f, 11, 11, 5, 8, 1, 2, 0, .any⟩,
  ⟨0x7100, 0x710f, 12, 12, 5, 8, 1, 2, 0, .any⟩,
  ⟨0x7100, 0x710f, 13, 13, 4, 4, 2, 2, 4294967295, .any⟩,
  ⟨0x7100, 0x710f, 14, 14, 11, 32, 1, 2, 0, .any⟩]

/-- Objects of R367. -/
def objsR367 : List Obj := [
  ⟨0x7200, 0x7207, 1, 1, 3, 2, 2, 17, 1088, .range 64 2176⟩,
  ⟨0x7200, 0x7207, 2, 2, 4, 4, 2, 17, 262144, .range 4096 4194304⟩,
  ⟨0x7200, 0x7207, 3, 3, 5, 8, 1, 0, 0, .any⟩,
  ⟨0x7200, 0x7207, 4, 4, 2, 1, 1, 0, 0, .any⟩,
  ⟨0x7200, 0x7207, 5, 5, 3, 2, 1, 0, 0, .any⟩,
  ⟨0xc1c0, 0xc1c7, 1, 1, 5, 8, 1, 0, 0, .any⟩,
  ⟨0xc1c0, 0xc1c7, 2, 2, 5, 8, 1, 0, 0, .any⟩,
  ⟨0xc1c0, 0xc1c7, 3, 3, 5, 8, 1, 0, 0, .any⟩,
  ⟨0xc1c0, 0xc1c7, 4, 4, 5, 8, 1, 0, 0, .any⟩,
  ⟨0xc1c0, 0xc1c7, 5, 5, 5, 8, 1, 0, 0, .any⟩,
  ⟨0xc1c0, 0xc1c7, 6, 6, 5, 8, 1, 0, 0, .any⟩,
  ⟨0xc1c0, 0xc1c7, 7, 7, 5, 8, 1, 0, 0, .any⟩,
  ⟨0xc1c0, 0xc1c7, 8, 8, 4, 4, 1, 0, 0, .any⟩,
  ⟨0xc1c0, 0xc1c7, 9, 9, 5, 8, 1, 0, 0, .any⟩]

/-- Objects of R397. -/
def objsR397 : List Obj := [
  ⟨0x7000, 0x7000, 3, 3, 5, 8, 0, 0, 341181464576, .any⟩,
  ⟨0x7000, 0x7000, 4, 4, 5, 8, 0, 0, 42647683072, .any⟩,
  ⟨0x7300, 0x7307, 1, 1, 1, 1, 2, 1, 1, .any⟩,
  ⟨0x7300, 0x7307, 2, 2, 3, 2, 2, 1, 16, .range 1 128⟩,
  ⟨0x7300, 0x7307, 3, 3, 4, 4, 1, 0, 0, .any⟩,
  ⟨0x7300, 0x7307, 4, 4, 4, 4, 1, 0, 0, .any⟩,
  ⟨0x7300, 0x7307, 5, 5, 3, 2, 1, 0, 0, .any⟩,
  ⟨0x7300, 0x7307, 6, 6, 4, 4, 2, 1, 86400, .range 60 604800⟩,
  ⟨0x7300, 0x7307, 7, 7, 3, 2, 1, 1, 0, .any⟩,
  ⟨0x7300, 0x7307, 8, 8, 13, 0, 1, 1, 0, .any⟩,
  ⟨0x7300, 0x7307, 9, 9, 5, 8, 1, 4, 0, .any⟩,
  ⟨0xc1d0, 0xc1d7, 1, 1, 5, 8, 1, 0, 0, .any⟩,
  ⟨0xc1d0, 0xc1d7, 2, 2, 5, 8, 1, 0, 0, .any⟩,
  ⟨0xc1d0, 0xc1d7, 3, 3, 5, 8, 1, 0, 0, .any⟩,
  ⟨0xc1d0, 0xc1d7, 4, 4, 5, 8, 1, 0, 0, .any⟩,
  ⟨0xc1d0, 0xc1d7, 5, 5, 5, 8, 1, 0, 0, .any⟩,
  ⟨0xc1d0, 0xc1d7, 6, 6, 5, 8, 1, 0, 0, .any⟩,
  ⟨0xc1d0, 0xc1d7, 7, 7, 5, 8, 1, 0, 0, .any⟩,
  ⟨0xc1d0, 0xc1d7, 8, 8, 5, 8, 1, 0, 0, .any⟩,
  ⟨0xc1d0, 0xc1d7, 9, 9, 5, 8, 1, 0, 0, .any⟩,
  ⟨0xc1d0, 0xc1d7, 10, 10, 5, 8, 1, 0, 0, .any⟩,
  ⟨0xc1e0, 0xc1e7, 1, 1, 5, 8, 1, 0, 0, .any⟩,
  ⟨0xc1e0, 0xc1e7, 2, 2, 5, 8, 1, 0, 0, .any⟩,
  ⟨0xc1e0, 0xc1e7, 3, 3, 5, 8, 1, 0, 0, .any⟩,
  ⟨0xc1e0, 0xc1e7, 4, 4, 5, 8, 1, 0, 0, .any⟩,
  ⟨0xc1e0, 0xc1e7, 5, 5, 5, 8, 1, 0, 0, .any⟩]

/-- Objects of R435. -/
def objsR435 : List Obj := [
  ⟨0x8000, 0x800f, 1, 1, 2, 1, 4, 1, 0, .range 0 2⟩,
  ⟨0x8000, 0x800f, 2, 2, 2, 1, 1, 4, 0, .any⟩,
  ⟨0x8000, 0x800f, 3, 3, 2, 1, 1, 0, 255, .any⟩,
  ⟨0x8000, 0x800f, 4, 4, 2, 1, 1, 0, 255, .any⟩,
  ⟨0x8000, 0x800f, 5, 5, 3, 2, 1, 0, 0, .any⟩,
  ⟨0x8000, 0x800f, 6, 6, 3, 2, 1, 0, 0, .any⟩,
  ⟨0x8000, 0x800f, 7, 7, 3, 2, 1, 0, 0, .any⟩,
  ⟨0x8000, 0x800f, 15, 15, 4, 4, 2, 1, 20000, .range 100 1000000⟩,
  ⟨0x8100, 0x8100, 1, 1, 5, 8, 1, 0, 18446744073709551615, .any⟩,
  ⟨0x8100, 0x8100, 2, 2, 11, 16, 1, 0, 0, .any⟩,
  ⟨0x8200, 0x8203, 1, 1, 2, 1, 1, 4, 0, .any⟩,
  ⟨0x8200, 0x8203, 2, 2, 2, 1, 3, 0, 0, .any⟩,
  ⟨0x8200, 0x8203, 3, 3, 3, 2, 1, 0, 0, .any⟩,
  ⟨0x8200, 0x8203, 4, 4, 7, 2, 1, 0, 0, .any⟩,
  ⟨0xc200, 0xc20f, 1, 1, 5, 8, 1, 0, 0, .any⟩,
  ⟨0xc200, 0xc20f, 2, 2, 5, 8, 1, 0, 0, .any⟩,
  ⟨0xc200, 0xc20f, 3, 3, 5, 8, 1, 0, 0, .any⟩,
  ⟨0xc200, 0xc20f, 4, 4, 5, 8, 1, 0, 0, .any⟩,
  ⟨0xc200, 0xc20f, 5, 5, 5, 8, 1, 0, 0, .any⟩,
  ⟨0xc200, 0xc20f, 6, 6, 5, 8, 1, 0, 0, .any⟩,
  ⟨0xc200, 0xc20f, 7, 7, 4, 4, 1, 0, 0, .any⟩,
  ⟨0xc200, 0xc20f, 8, 8, 5, 8, 1, 0, 0, .any⟩,
  ⟨0xc210, 0xc210, 1, 1, 5, 8, 1, 0, 0, .any⟩,
  ⟨0xc210, 0xc210, 2, 2, 5, 8, 1, 0, 0, .any⟩,
  ⟨0xc210, 0xc210, 3, 3, 5, 8, 1, 0, 0, .any⟩]

/-- Objects of R470. -/
def objsR470 : List Obj := [
  ⟨0x9000, 0x9000, 1, 1, 3, 2, 1, 0, 0, .any⟩,
  ⟨0x9000, 0x9000, 2, 2, 3, 2, 1, 0, 1024, .any⟩,
  ⟨0x9000, 0x9000, 3, 3, 2, 1, 4, 1, 4, .range 1 64⟩,
  ⟨0x9100, 0x910f, 1, 1, 13, 0, 3, 2, 0, .any⟩,
  ⟨0x9100, 0x910f, 2, 2, 3, 2, 3, 2, 0, .any⟩,
  ⟨0x9100, 0x910f, 3, 3, 13, 0, 1, 2, 0, .any⟩,
  ⟨0xc230, 0xc230, 1, 1, 5, 8, 1, 0, 0, .any⟩,
  ⟨0xc230, 0xc230, 2, 2, 5, 8, 1, 0, 0, .any⟩,
  ⟨0xc230, 0xc230, 3, 3, 5, 8, 1, 0, 0, .any⟩,
  ⟨0xc230, 0xc230, 4, 4, 4, 4, 1, 0, 0, .any⟩,
  ⟨0xc230, 0xc230, 5, 5, 5, 8, 1, 0, 0, .any⟩,
  ⟨0xc230, 0xc230, 6, 6, 5, 8, 1, 0, 0, .any⟩,
  ⟨0xc230, 0xc230, 7, 7, 5, 8, 1, 0, 0, .any⟩,
  ⟨0xc230, 0xc230, 8, 8, 4, 4, 1, 0, 0, .any⟩]

/-- Objects of R496. -/
def objsR496 : List Obj := [
  ⟨0xd000, 0xd003, 1, 1, 11, 6, 4, 1, 0, .any⟩,
  ⟨0xd000, 0xd003, 2, 2, 11, 16, 4, 1, 0, .any⟩,
  ⟨0xd000, 0xd003, 3, 3, 2, 1, 4, 1, 64, .range 1 128⟩,
  ⟨0xd000, 0xd003, 4, 4, 11, 16, 4, 1, 0, .any⟩,
  ⟨0xd000, 0xd003, 5, 5, 3, 2, 4, 1, 0, .range 0 4094⟩,
  ⟨0xd000, 0xd003, 6, 6, 2, 1, 2, 1, 0, .range 0 63⟩,
  ⟨0xd000, 0xd003, 7, 7, 2, 1, 2, 1, 64, .range 1 255⟩,
  ⟨0xd000, 0xd003, 8, 8, 2, 1, 1, 4, 0, .any⟩,
  ⟨0xd100, 0xd100, 1, 1, 4, 4, 2, 1, 250, .range 20 100000⟩,
  ⟨0xd100, 0xd100, 2, 2, 3, 2, 1, 0, 0, .any⟩,
  ⟨0xd100, 0xd100, 3, 3, 4, 4, 3, 2, 0, .any⟩,
  ⟨0xc240, 0xc243, 1, 1, 5, 8, 1, 0, 0, .any⟩,
  ⟨0xc240, 0xc243, 2, 2, 5, 8, 1, 0, 0, .any⟩,
  ⟨0xc240, 0xc243, 3, 3, 5, 8, 1, 0, 0, .any⟩,
  ⟨0xc240, 0xc243, 4, 4, 5, 8, 1, 0, 0, .any⟩,
  ⟨0xc250, 0xc250, 1, 1, 5, 8, 1, 0, 0, .any⟩,
  ⟨0xc250, 0xc250, 2, 2, 5, 8, 1, 0, 0, .any⟩,
  ⟨0xc250, 0xc250, 3, 3, 5, 8, 1, 0, 0, .any⟩,
  ⟨0xc250, 0xc250, 4, 4, 5, 8, 1, 0, 0, .any⟩,
  ⟨0xc250, 0xc250, 5, 5, 5, 8, 1, 0, 0, .any⟩,
  ⟨0xc250, 0xc250, 6, 6, 5, 8, 1, 0, 0, .any⟩]

/-- Objects of R524. -/
def objsR524 : List Obj := [
  ⟨0x1040, 0x1040, 1, 1, 2, 1, 1, 0, 0, .any⟩,
  ⟨0x1040, 0x1040, 2, 2, 2, 1, 1, 0, 0, .any⟩,
  ⟨0x1040, 0x1040, 3, 3, 1, 1, 1, 0, 0, .any⟩,
  ⟨0x1040, 0x1040, 4, 4, 1, 1, 2, 1, 1, .any⟩,
  ⟨0xc260, 0xc260, 1, 1, 5, 8, 1, 0, 0, .any⟩,
  ⟨0xc260, 0xc260, 2, 2, 5, 8, 1, 0, 0, .any⟩,
  ⟨0xc260, 0xc260, 3, 3, 5, 8, 1, 0, 0, .any⟩,
  ⟨0xc260, 0xc260, 4, 4, 5, 8, 1, 0, 0, .any⟩]

/-- Objects of R527. -/
def objsR527 : List Obj := [
  ⟨0x4000, 0x4000, 1, 1, 4, 4, 2, 17, 221, .any⟩,
  ⟨0x4000, 0x4000, 2, 2, 4, 4, 2, 17, 118, .any⟩,
  ⟨0x4000, 0x4000, 3, 3, 4, 4, 2, 17, 9, .any⟩,
  ⟨0x4000, 0x4000, 4, 4, 4, 4, 2, 17, 18, .any⟩,
  ⟨0x4000, 0x4000, 5, 5, 4, 4, 2, 17, 2, .any⟩,
  ⟨0x4000, 0x4000, 6, 6, 4, 4, 2, 17, 1792, .any⟩,
  ⟨0x4000, 0x4000, 7, 7, 4, 4, 2, 17, 3300, .any⟩,
  ⟨0x4000, 0x4000, 8, 8, 4, 4, 2, 17, 10000, .any⟩,
  ⟨0x4000, 0x4000, 9, 9, 4, 4, 2, 17, 6250, .any⟩,
  ⟨0x4000, 0x4000, 10, 10, 4, 4, 2, 17, 15000, .any⟩,
  ⟨0x4000, 0x4000, 11, 11, 4, 4, 2, 17, 3000, .any⟩,
  ⟨0x4000, 0x4000, 12, 12, 4, 4, 2, 17, 30000, .any⟩]

/-- Objects of R554. -/
def objsR554 : List Obj := [
  ⟨0x4010, 0x4010, 1, 24, 4, 4, 4, 1, 0, .any⟩,
  ⟨0x4100, 0x4100, 1, 16, 3, 2, 0, 0, 0, .any⟩,
  ⟨0x4101, 0x4101, 1, 16, 3, 2, 1, 0, 0, .any⟩,
  ⟨0x4110, 0x4117, 1, 1, 2, 1, 1, 0, 0, .any⟩,
  ⟨0x4110, 0x4117, 2, 2, 2, 1, 1, 0, 0, .any⟩,
  ⟨0x4110, 0x4117, 3, 3, 2, 1, 1, 0, 15, .any⟩,
  ⟨0x4110, 0x4117, 4, 4, 7, 2, 1, 0, 0, .any⟩,
  ⟨0x4120, 0x4120, 1, 1, 1, 1, 2, 17, 0, .any⟩,
  ⟨0x4120, 0x4120, 2, 2, 2, 1, 2, 17, 11, .range 0 11⟩,
  ⟨0x4120, 0x4120, 3, 3, 3, 2, 2, 1, 2400, .range 1200 2400⟩,
  ⟨0x4120, 0x4120, 4, 4, 3, 2, 0, 0, 2600, .any⟩,
  ⟨0x4120, 0x4120, 5, 5, 2, 1, 2, 1, 3, .range 0 11⟩,
  ⟨0x4120, 0x4120, 6, 6, 2, 1, 1, 0, 15, .any⟩,
  ⟨0x4120, 0x4120, 7, 7, 4, 4, 2, 1, 0, .any⟩,
  ⟨0x4120, 0x4120, 8, 8, 2, 1, 2, 1, 0, .range 0 1⟩,
  ⟨0x4120, 0x4120, 9, 9, 3, 2, 1, 0, 2400, .any⟩,
  ⟨0x4120, 0x4120, 10, 10, 4, 4, 1, 0, 0, .any⟩,
  ⟨0x4130, 0x4130, 1, 16, 2, 1, 2, 1, 15, .range 0 15⟩,
  ⟨0x4140, 0x4140, 1, 1, 3, 2, 1, 0, 0, .any⟩,
  ⟨0x4140, 0x4140, 2, 2, 3, 2, 1, 0, 0, .any⟩,
  ⟨0x4140, 0x4140, 3, 3, 3, 2, 1, 0, 0, .any⟩,
  ⟨0x4140, 0x4140, 4, 4, 3, 2, 1, 0, 4096, .any⟩,
  ⟨0x4140, 0x4140, 5, 5, 2, 1, 1, 4, 0, .any⟩,
  ⟨0x4140, 0x4140, 6, 6, 1, 1, 3, 0, 0, .any⟩,
  ⟨0x4200, 0x4200, 1, 1, 7, 2, 2, 1, 950, .range 700 1000⟩,
  ⟨0x4200, 0x4200, 2, 2, 7, 2, 0, 0, 1150, .any⟩,
  ⟨0x4200, 0x4200, 3, 3, 13, 0, 1, 0, 0, .any⟩,
  ⟨0x4200, 0x4200, 4, 4, 2, 1, 1, 4, 0, .any⟩,
  ⟨0x4200, 0x4200, 5, 5, 1, 1, 3, 0, 0, .any⟩,
  ⟨0x4200, 0x4200, 6, 6, 4, 4, 1, 1, 0, .any⟩]

/-- Objects of R554. -/
def objsR554b : List Obj := [
  ⟨0xc300, 0xc30f, 1, 1, 5, 8, 1, 2, 0, .any⟩,
  ⟨0xc300, 0xc30f, 2, 2, 13, 0, 1, 2, 0, .any⟩,
  ⟨0xc310, 0xc310, 1, 1, 5, 8, 1, 0, 0, .any⟩,
  ⟨0xc310, 0xc310, 2, 2, 5, 8, 1, 0, 0, .any⟩,
  ⟨0xc310, 0xc310, 3, 3, 5, 8, 1, 0, 0, .any⟩,
  ⟨0xc310, 0xc310, 4, 4, 5, 8, 1, 0, 0, .any⟩,
  ⟨0xc310, 0xc310, 5, 5, 5, 8, 1, 0, 0, .any⟩,
  ⟨0xc310, 0xc310, 6, 6, 5, 8, 1, 0, 0, .any⟩]

/-- Objects of R586. -/
def objsR586 : List Obj := [
  ⟨0x5000, 0x5000, 1, 1, 5, 8, 4, 1, 0, .mult 4096⟩,
  ⟨0x5000, 0x5000, 2, 2, 4, 4, 4, 1, 0, .pow2 256 65536⟩,
  ⟨0x5000, 0x5000, 3, 3, 4, 4, 1, 0, 0, .any⟩,
  ⟨0x5000, 0x5000, 4, 4, 4, 4, 2, 0, 0, .any⟩,
  ⟨0x5000, 0x5000, 5, 5, 13, 0, 1, 0, 0, .any⟩,
  ⟨0x5000, 0x5000, 6, 6, 5, 8, 1, 0, 0, .any⟩,
  ⟨0x5000, 0x5000, 7, 7, 5, 8, 1, 0, 0, .any⟩,
  ⟨0x5000, 0x5000, 8, 8, 2, 1, 1, 4, 0, .any⟩,
  ⟨0x5010, 0x5010, 1, 1, 1, 1, 2, 1, 1, .any⟩,
  ⟨0x5010, 0x5010, 2, 2, 3, 2, 2, 1, 14, .range 14 60⟩,
  ⟨0x5010, 0x5010, 3, 3, 4, 4, 1, 0, 0, .any⟩,
  ⟨0x5020, 0x5027, 1, 42, 4, 4, 1, 0, 4294967295, .any⟩,
  ⟨0x5300, 0x5300, 1, 1, 2, 1, 5, 32, 0, .any⟩,
  ⟨0x5300, 0x5300, 2, 2, 2, 1, 1, 4, 0, .any⟩,
  ⟨0x5300, 0x5300, 3, 3, 3, 2, 2, 1, 600, .range 60 86400⟩,
  ⟨0x5300, 0x5300, 4, 4, 2, 1, 2, 32, 0, .any⟩]

/-- Objects of R601. -/
def objsR601 : List Obj := [
  ⟨0xa000, 0xa000, 1, 1, 2, 1, 1, 4, 0, .any⟩,
  ⟨0xa000, 0xa000, 2, 2, 2, 1, 1, 0, 0, .any⟩,
  ⟨0xa000, 0xa000, 3, 3, 2, 1, 1, 0, 0, .any⟩,
  ⟨0xa000, 0xa000, 4, 4, 4, 4, 1, 1, 0, .any⟩,
  ⟨0xa000, 0xa000, 5, 5, 4, 4, 1, 0, 0, .any⟩,
  ⟨0xa000, 0xa000, 6, 6, 13, 0, 1, 0, 0, .any⟩,
  ⟨0xa000, 0xa000, 7, 7, 3, 2, 1, 0, 0, .any⟩,
  ⟨0xa000, 0xa000, 8, 8, 1, 1, 2, 1, 0, .any⟩,
  ⟨0xa100, 0xa100, 1, 1, 2, 1, 4, 32, 0, .any⟩,
  ⟨0xa100, 0xa100, 2, 2, 2, 1, 5, 32, 0, .any⟩,
  ⟨0xa100, 0xa100, 3, 3, 2, 1, 1, 4, 0, .any⟩]

/-- Objects of R621. -/
def objsR621 : List Obj := [
  ⟨0x3010, 0x301f, 1, 1, 3, 2, 4, 3, 0, .range 0 256⟩,
  ⟨0x3010, 0x301f, 2, 2, 3, 2, 4, 3, 0, .range 0 256⟩,
  ⟨0xb000, 0xb000, 1, 1, 2, 1, 1, 12, 0, .any⟩,
  ⟨0xb000, 0xb000, 2, 2, 2, 1, 1, 8, 0, .any⟩,
  ⟨0xb000, 0xb000, 3, 3, 2, 1, 1, 0, 0, .any⟩,
  ⟨0xb000, 0xb000, 4, 4, 11, 32, 0, 8, 0, .any⟩,
  ⟨0xb000, 0xb000, 5, 5, 11, 64, 1, 8, 0, .any⟩,
  ⟨0xb000, 0xb000, 6, 6, 5, 8, 1, 0, 0, .any⟩,
  ⟨0xb100, 0xb100, 1, 2, 2, 1, 1, 0, 0, .any⟩,
  ⟨0xb100, 0xb100, 3, 4, 4, 4, 1, 0, 0, .any⟩,
  ⟨0xb100, 0xb100, 5, 6, 2, 1, 1, 0, 0, .any⟩,
  ⟨0xb100, 0xb100, 7, 7, 13, 0, 5, 0, 0, .any⟩,
  ⟨0xb200, 0xb200, 1, 1, 13, 0, 3, 0, 0, .any⟩,
  ⟨0xb200, 0xb200, 2, 2, 13, 0, 1, 0, 0, .any⟩,
  ⟨0xb300, 0xb300, 1, 1, 2, 1, 5, 32, 0, .any⟩]

/-- All object rows. -/
def objTable : List Obj := objsR61 ++ objsR63 ++ objsR65 ++ objsR98 ++ objsR140 ++ objsR173 ++ objsR251 ++ objsR280 ++ objsR306 ++ objsR338 ++ objsR367 ++ objsR397 ++
  objsR435 ++ objsR470 ++ objsR496 ++ objsR524 ++ objsR527 ++ objsR554 ++ objsR554b ++ objsR586 ++ objsR601 ++ objsR621

/-- The rows of an accession. -/
def rowsOf (acc : Nat) : List Obj := objTable.filter (fun o => decide (o.lo ≤ acc) && decide (acc ≤ o.hi))

/-- The accession exists (R33, NO_OBJECT). -/
def accExists (acc : Nat) : Bool := objTable.any (fun o => decide (o.lo ≤ acc) && decide (acc ≤ o.hi))

/-- The highest subindex in use of a record, the value of its subindex 0 (R20). -/
def subCount (acc : Nat) : Nat := (rowsOf acc).foldl (fun a o => max a o.subHi) 0

/-- Key of an object. -/
def objKey (acc sub : Nat) : Nat := acc * 256 + sub

/-- The row of an object; subindex 0 of a record is a U8 CONST (R20), public where the whole record is (R54). -/
def findObj (acc sub : Nat) : Option Obj :=
  if sub = 0 then
    if accExists acc then
      some ⟨acc, acc, 0, 0, 2, 1, 0,
        (if acc = 0x1010 ∨ acc = 0x1011 then 8 else 0) + (if (rowsOf acc).all (fun o => bitOf o.flags 1) then 2 else 0),
        subCount acc, .any⟩
    else none
  else objTable.find? (fun o => decide (o.lo ≤ acc) && decide (acc ≤ o.hi) && decide (o.sub ≤ sub) && decide (sub ≤ o.subHi))

/-- The current and oldest interface versions (R62). -/
def versionCurrent (sub : Nat) : Nat := ([0x0101, 0x0200, 0x0102, 0x0300, 0x0400, 0x0200, 0x0102][sub - 1]?).getD 0
def versionOldest (sub : Nat) : Nat := ([0x0100, 0x0100, 0x0100, 0x0200, 0x0400, 0x0200, 0x0101][sub - 1]?).getD 0

/-- The frequency of operating point p in MHz (R533). -/
def pointFreq (p : Nat) : Nat := (([500, 600, 700, 800, 875, 950, 1000, 1050, 1100, 1150, 1200, 1250, 1300, 1350, 1400, 1450] : List Nat)[p]?).getD 0

/-- The typical voltage of point p in mV, and the part's fused one within 30 mV of it (R533). -/
def typicalMv (p : Nat) : Nat := (([600, 620, 640, 660, 680, 700, 720, 740, 760, 780, 800, 820, 850, 880, 910, 940] : List Nat)[p]?).getD 0

def pointMv (p : Nat) : Nat := typicalMv p - 30 + Config.pointVoltage p % 61

/-- The default of an object: the row's, or the value that depends on the instance (R61-R65, R435, R496, R533, R602-R605, R608). -/
def defaultOf (key : Nat) : Nat :=
  let acc := key / 256
  let sub := key % 256
  if acc = 0x1010 then (if sub = 0 then 7 else versionCurrent sub)
  else if acc = 0x1011 then (if sub = 0 then 7 else versionOldest sub)
  else if key = objKey 0x1000 5 then Config.serial % 2 ^ 128
  else if key = objKey 0x1020 3 then 0x02 + Config.serial % 2 ^ 128 / 2 ^ 88 * 256
  else if 0x2000 ≤ acc ∧ acc ≤ 0x2007 ∧ 1 ≤ sub ∧ sub ≤ 40 then sub - 1
  else if key = objKey 0x3000 2 then 341181464576
  else if key = objKey 0x3000 5 then 0xFF
  else if key = objKey 0x3010 2 then 256
  else if 0x800C ≤ acc ∧ acc ≤ 0x800F ∧ sub = 1 then 1
  else if 0xD000 ≤ acc ∧ acc ≤ 0xD003 ∧ sub = 1 then
    0x06 + 4 * (acc - 0xD000) + Config.serial % 2 ^ 128 / 2 ^ 88 * 256
  else if acc = 0x4100 ∧ 1 ≤ sub ∧ sub ≤ 16 then pointFreq (sub - 1)
  else if acc = 0x4101 ∧ 1 ≤ sub ∧ sub ≤ 16 then pointMv (sub - 1)
  else if key = objKey 0xB000 4 then Config.rootHash % 2 ^ 256
  else match findObj acc sub with
    | some o => o.dflt
    | none => 0

end Sys2Proof.Machine
end

