-- ==== Sys2Proof/Machine/Ops.lean ====
section
/-! DEFINITION. Named operations that every family uses: Catalogue values and counters (R20-R30), notifications (R45-R47), MSI-X messages (R519), SECDED memory words (R372, R373), writes of memory (R389-R391), error records and their effects (R571, R574-R578), random and free values. -/

namespace Sys2Proof.Machine

open Sys2Proof

/-! ### Catalogue values -/

/-- The stored value of an object, its default where none is listed. -/
def catGet (m : NMap) (k : Nat) : Nat := mget (defaultOf k) m k

/-- Store a value; the default is not listed. -/
def catSet (m : NMap) (k v : Nat) : NMap := if v = defaultOf k then mdel m k else mput m k v

/-- The value most recently written to an object (R28). -/
def State.obj (s : State) (acc sub : Nat) : Nat := catGet s.cat (objKey acc sub)

/-- The value in use: the latched one for an object that applies at beat open (R28). -/
def State.objUsed (s : State) (acc sub : Nat) : Nat :=
  match mget none s.inUse (objKey acc sub) with
  | some v => v
  | none => s.obj acc sub

/-- Store a value with no further effect. -/
def State.setObj (s : State) (acc sub v : Nat) : State := { s with cat := catSet s.cat (objKey acc sub) v }

/-- The flags of an object (R22). -/
def objFlags (acc sub : Nat) : Nat := match findObj acc sub with
  | some o => o.flags
  | none => 0

/-- The length of an object's value in bytes. -/
def objLen (acc sub : Nat) : Nat := match findObj acc sub with
  | some o => o.len
  | none => 0

/-- Add to a counter object, modulo its width. -/
def State.count (s : State) (acc sub n : Nat) : State :=
  if n = 0 then s else s.setObj acc sub ((s.obj acc sub + n) % 2 ^ (8 * objLen acc sub))

/-- This package's device id (R61, R404). -/
def State.device (s : State) : Nat := s.obj 0x1000 7 % 64

/-- The beat number in force (R72, R98). -/
def State.beatNo (s : State) : Nat := s.obj 0x6000 8 % 2 ^ 48

/-- The STATE of a wing: 0 halted, 1 running, 2 stopping, 3 fatal (R65). -/
def State.wingState (s : State) (w : Nat) : Nat := s.obj (0x3000 + w) 3

/-- The package is the anchor (R521). -/
def State.isAnchor (s : State) : Bool := s.obj 0x1000 8 == 1

/-- The master of the beat (R73, R98). -/
def State.isMaster (s : State) : Bool := s.obj 0x6000 4 == s.obj 0x1000 7

/-- A device is present in the router's map (R431). -/
def State.present (s : State) (d : Nat) : Bool := bitOf (s.obj 0x8100 1) d

/-- The devices of the torus (R64): ids with x < TORUS_X and y < TORUS_Y, ascending. -/
def State.torusIds (s : State) : List Nat :=
  (List.range 64).filter (fun d => decide (d / 8 < s.torus.shapeX) && decide (d % 8 < s.torus.shapeY))

/-- The members of the group: the present devices of the torus, ascending. -/
def State.members (s : State) : List Nat := s.torusIds.filter s.present

/-- A wing's structure. -/
def State.wing (s : State) (w : Nat) : Wing := mget {} s.wings w

def State.setWing (s : State) (w : Nat) (v : Wing) : State := { s with wings := mset {} s.wings w v }

/-- Add something that leaves the package. -/
def State.send (s : State) (o : Out) : State := { s with out := s.out ++ [o] }

/-! ### Arbitration (R248, R249) -/

/-- The key of a requester among n in a beat (R248). -/
def arbKey (beat n j : Nat) : Nat := (beat + j) % n

/-- Requester j is granted before the others that ask (R248); those that have lost 64 contended cycles in a row come first, by key (R249). -/
def arbFirst (beat n : Nat) (lost : Nat → Nat) (asking : List Nat) (j : Nat) : Bool :=
  let starved := asking.filter (fun k => decide (64 ≤ lost k))
  let field := if starved = [] then asking else starved
  field.contains j && field.all (fun k => decide (arbKey beat n j ≤ arbKey beat n k))

/-- Losses in a row after a contended cycle that j has won, by base + index. -/
def arbLost (base : Nat) (m : NMap) (asking : List Nat) (j : Nat) : NMap :=
  mset 0 ((asking.filter (· != j)).foldl (fun m k => mset 0 m (base + k) (mget 0 m (base + k) + 1)) m) (base + j) 0

/-- Send a courier frame. -/
def State.courier (s : State) (dest : Option Nat) (m : Courier) : State := s.send (.courier dest m)

/-- A free value of the model: draw the next one (log entry 5). -/
def State.draw (s : State) : Nat × State := (Config.freeValue s.free, { s with free := s.free + 1 })

/-- n fresh random bytes (R55, R56). -/
def State.random (s : State) (n : Nat) : List Byte × State :=
  (beBytes n (Config.freeRandom s.free), { s with free := s.free + 1 })

/-! ### Result codes (R33) -/

abbrev rcOk : Nat := 0x00
abbrev rcNoObject : Nat := 0x01
abbrev rcNoSub : Nat := 0x02
abbrev rcAccess : Nat := 0x03
abbrev rcNotHalted : Nat := 0x04
abbrev rcNotSigned : Nat := 0x05
abbrev rcLength : Nat := 0x06
abbrev rcRange : Nat := 0x07
abbrev rcBusy : Nat := 0x08
abbrev rcTimeout : Nat := 0x09
abbrev rcUnreachable : Nat := 0x0A
abbrev rcConflict : Nat := 0x0B
abbrev rcUnavailable : Nat := 0x0C

/-! ### Persistence (R29, R30) -/

/-- The flash write of a persistent object is due; PERSIST_PENDING reads 1 (R30). -/
def State.persist (s : State) (acc sub v : Nat) : State :=
  let q := s.flash.queue.filter (fun (e : Nat × Nat) => e.1 != objKey acc sub)
  let t := { s with flash := { s.flash with queue := q ++ [(objKey acc sub, v)] } }
  t.setObj 0x1020 0x0B 1

/-! ### MSI-X (R500, R519) -/

/-- An entry of a function's MSI-X table; PRESUMED masked until software writes it (log entry 19). -/
def State.vectorEntry (s : State) (fn vector : Nat) : Nat := mget (2 ^ 96) s.host.vectors (fn * 4096 + vector)

/-- The vector is masked. -/
def State.vectorMasked (s : State) (fn vector : Nat) : Bool := bitOf (s.vectorEntry fn vector) 96

/-- The message of a vector: the data at the address that software placed in the MSI-X table (R500). -/
def State.message (s : State) (fn vector : Nat) : Out :=
  .msix fn vector (s.vectorEntry fn vector % 2 ^ 64) (s.vectorEntry fn vector / 2 ^ 64 % 2 ^ 32)

/-- Signal a vector of a function: only while Bus Master Enable is set; a masked vector sets its Pending Bit. -/
def State.msix (s : State) (fn vector : Nat) : State :=
  if mget 0 s.host.busMaster fn = 0 then s
  else if s.vectorMasked fn vector then
    { s with host := { s.host with pendingMsi := mset 0 s.host.pendingMsi (fn * 4096 + vector) 1 } }
  else s.send (s.message fn vector)

/-- A table entry is written; a vector that is no longer masked and has its Pending Bit set sends its message (R519). -/
def State.setVector (s : State) (fn vector entry : Nat) : State :=
  let k := fn * 4096 + vector
  let t := { s with host := { s.host with vectors := mset (2 ^ 96) s.host.vectors k (entry % 2 ^ 97) } }
  if t.vectorMasked fn vector = false ∧ mget 0 s.host.pendingMsi k = 1 then
    State.msix { t with host := { t.host with pendingMsi := mset 0 t.host.pendingMsi k 0 } } fn vector
  else t

/-! ### Notifications (R45-R47) -/

/-- What a notification says; a value change carries the first four bytes of the new value (R46). -/
structure Note where
  acc    : Nat
  sub    : Nat
  kind   : Nat
  notIn  : Bool
  detail : Nat
deriving DecidableEq, Repr

/-- The 16 bytes of an entry as a number (R46). -/
def Note.word (n : Note) (beat seq : Nat) : Nat :=
  n.acc % 2 ^ 16 + (n.sub % 256) * 2 ^ 16 + (n.kind % 64 + b2n n.notIn * 64) * 2 ^ 24 + (beat % 2 ^ 48) * 2 ^ 32 +
    (seq % 2 ^ 16) * 2 ^ 80 + (n.detail % 2 ^ 32) * 2 ^ 96

/-- Whether virtual function n responds (R501). -/
def State.vfActive (s : State) (n : Nat) : Bool :=
  s.host.vfEnable && decide (n < s.host.numVfs) && decide (n < 16) && s.obj (0x3000 + n) 6 == 1

/-- Whether a function's window exists: the physical function's always, a virtual function's while it responds. -/
def State.fnActive (s : State) (fn : Nat) : Bool := fn == 0 || (decide (fn ≤ 16) && s.vfActive (fn - 1))

/-- The wing whose instance an accession of a wing-scoped record is (R65, R251, R338, R470, R545, R621). -/
def wingOfAcc (acc : Nat) : Option Nat :=
  if [0x300, 0x301, 0x310, 0x710, 0x910, 0xC30].contains (acc / 16) then some (acc % 16) else none

/-- The view of a function includes an object (R35): 0 the physical function, n + 1 virtual function n. -/
def inView (fn acc sub : Nat) : Bool :=
  if fn = 0 then true
  else wingOfAcc acc == some (fn - 1) || (acc == 0xD100 && sub == 3) || (acc == 0x1022 && sub == 1) ||
    bitOf (objFlags acc sub) 3

/-- Put an entry into a window's notification ring (R47): a full ring drops it, sets LOSS in the newest entry, and says so. -/
def Window.putNote (w : Window) (n : Note) (beat : Nat) : Window × Bool :=
  if (w.noteHead + 1) % 256 = w.noteTail then
    let k := (w.noteHead + 255) % 256
    ({ w with ring := mset 0 w.ring k (mget 0 w.ring k ||| 2 ^ 31) }, false)
  else
    ({ w with ring := mset 0 w.ring w.noteHead (n.word beat w.noteSeq), noteHead := (w.noteHead + 1) % 256,
              noteSeq := (w.noteSeq + 1) % 2 ^ 16 }, true)

/-- A function's window (R42). -/
def State.window (s : State) (fn : Nat) : Window := mget {} s.server.windows fn

def State.setWindow (s : State) (fn : Nat) (w : Window) : State :=
  { s with server := { s.server with windows := mset {} s.server.windows fn w } }

/-- Write an entry on a window's path (R47): the ring, and vector 0 of the function. -/
def State.noteWindow (s : State) (fn : Nat) (n : Note) : State :=
  let r := (s.window fn).putNote n s.beatNo
  let t := s.setWindow fn r.1
  if r.2 then t.msix fn 0 else t.count 0x1020 0x0C 1

/-- The interface of the field network (R49). -/
def State.fieldIface (s : State) : Iface :=
  let mac := leBytes 6 (s.obj 0x1020 3)
  { mac := mac, addrs := [linkLocal mac], vlan := 0, tc := 0, hops := 255 }

/-- The addresses that Ethernet door D(12 + k) forms (R475). -/
def State.doorAddrs (s : State) (k : Nat) : List (List Byte) :=
  let ip := s.obj (0xD000 + k) 2
  linkLocal (leBytes 6 (s.obj (0xD000 + k) 1)) :: (if ip = 0 then [] else [leBytes 16 ip])

/-- The interface of Ethernet door D(12 + k) (R475, R496): it uses no address that another node has. -/
def State.doorIface (s : State) (k : Nat) : Iface :=
  let mac := leBytes 6 (s.obj (0xD000 + k) 1)
  { mac := mac, addrs := (s.doorAddrs k).filter (fun a => !s.ship.duplicates.contains (k, a)), vlan := s.obj (0xD000 + k) 5
    tc := 4 * s.obj (0xD000 + k) 6, hops := s.obj (0xD000 + k) 7 }

/-- Send a Lormal frame to a node of the field network: in a UDP datagram with its checksum, over IPv6, from LORMAL_PORT of the link-local address (R49, R50, R61). -/
def State.sendLormal (s : State) (node : Peer) (frame : List Byte) : State :=
  let i := s.fieldIface
  s.send (.lormal (i.udp node.mac (i.addrs.headD noAddress) node.addr (s.obj 0x1020 2) node.port frame))

/-- The Lormal frame that an Ethernet frame of the field network carries to this device, and who sent it (R49). -/
def State.fieldDatagram (s : State) (f : List Byte) : Option (Peer × List Byte) :=
  match s.fieldIface.accept f with
  | some p => if s.fieldIface.addrs.contains p.dst then (p.datagram (s.obj 0x1020 2)).map (fun d => ({ mac := p.srcMac, addr := p.src, port := d.1 }, d.2)) else none
  | none => none

/-- The link-local address is formed, and probed for before it is used (R49). -/
def State.formAddress (s : State) : State :=
  State.send { s with server := { s.server with tentative := true, duplicate := false } } (.field (s.fieldIface.probe (s.fieldIface.addrs.headD noAddress)))

/-- Count an event of the 10 µs power window (R527). -/
def State.powerCount (s : State) (unit kind n : Nat) : State :=
  if n = 0 then s
  else { s with power := { s.power with counts := mset 0 s.power.counts (unit * 16 + kind) (mget 0 s.power.counts (unit * 16 + kind) + n) } }

/-- Count an event and whose energy it is (R544): owner 1 + wing × 65,536 + tag, or 0 for nobody. -/
def State.powerOwned (s : State) (unit kind n owner : Nat) : State :=
  let t := s.powerCount unit kind n
  if n = 0 ∨ owner = 0 then t
  else
    let k := (unit * 2 ^ 20 + (owner - 1)) * 8 + kind
    { t with power := { t.power with attributed := mset 0 t.power.attributed k (mget 0 t.power.attributed k + n) } }

/-- The owner of events that a wing causes without a descriptor: its tag 0xFFFF (R544). -/
def wingOwner (wing : Nat) : Nat := wing * 65536 + 0xFFFF + 1

/-- The owner of a descriptor's events (R544). -/
def tagOwner (wing tag : Nat) : Nat := wing * 65536 + tag + 1

/-- Give the router a packet (R416), with whose energy its flits are (R544). -/
def State.sendPacket (s : State) (owner dest wing type channel : Nat) (bytes : List Byte) : State :=
  State.send { s with power := { s.power with owners := mset 0 s.power.owners s.out.length owner } } (.packet dest wing type channel bytes)

/-- Put a frame on an Ethernet door: it counts, and so does its energy, for each 256 bytes (R478, R527). -/
def State.putEth (s : State) (k owner : Nat) (f : List Byte) : State :=
  ((s.send (.eth (12 + k) f)).count (0xC240 + k) 1 1).powerOwned (14 + k / 2) 6 (ceilDiv f.length 256) owner

/-- An Ethernet door probes for its addresses before it uses them (R475). -/
def State.probeDoor (s : State) (k : Nat) : State :=
  let other := fun (e : Nat × List Byte) => e.1 != k
  let t := { s with ship := { s.ship with tentative := s.ship.tentative.filter other ++ (s.doorAddrs k).map (fun a => (k, a))
                                          duplicates := s.ship.duplicates.filter other } }
  (t.doorAddrs k).foldl (fun t a => t.putEth k 0 ((t.doorIface k).probe a)) t

/-- The PHY is programmed from the PLCA objects: PLCA for node ids 0-254, CSMA/CD for 255 (R48). -/
def State.programPhy (s : State) : State :=
  s.send (.phy (s.obj 0x1020 4 != 255) (s.obj 0x1020 4) (s.obj 0x1020 5) (s.obj 0x1020 6) (s.obj 0x1020 7) (s.obj 0x1020 8))

/-- A Lormal frame without its tag (R50). -/
def lormalHead (version kind session seq acc sub flags offset len result : Nat) : List Byte :=
  beBytes 2 0x4C4D ++ beBytes 1 version ++ beBytes 1 kind ++ beBytes 4 session ++ beBytes 4 seq ++ beBytes 2 acc ++
    beBytes 1 sub ++ beBytes 1 flags ++ beBytes 4 offset ++ beBytes 2 len ++ beBytes 1 result ++ [0]

/-- A frame with the tag of its session (R50). -/
def withTag (key frame : List Byte) : List Byte := frame ++ (hmac key frame).take 16

/-- The entry's bytes in a frame: multi-byte fields big-endian (R4, R46). -/
def Note.frame (n : Note) (beat seq : Nat) : List Byte :=
  beBytes 2 n.acc ++ beBytes 1 n.sub ++ beBytes 1 (n.kind % 64 + b2n n.notIn * 64) ++ beBytes 6 beat ++ beBytes 2 seq ++
    beBytes 4 n.detail

/-- Send a NOTIFY frame on a Lormal session (R45, R51, R53). -/
def State.noteSession (s : State) (id : Nat) (n : Note) : State :=
  match s.server.sessions.find? (fun x => x.id == id && !x.window) with
  | none => s
  | some x =>
    let seq := x.txSeq + 1
    let f := lormalHead 0x20 0x05 id seq n.acc n.sub 0 0 16 0 ++ n.frame s.beatNo x.noteSeq
    let xs := updFirst (fun (y : Session) => y.id == id)
      (fun y => { y with txSeq := seq, noteSeq := (y.noteSeq + 1) % 2 ^ 16 }) s.server.sessions
    let t := { s with server := { s.server with sessions := xs } }
    t.sendLormal x.peer (withTag x.key f)

/-- Write a note to every path of a list of functions, and to every Lormal session, whose mask has the bit (R45). -/
def State.noteAll (s : State) (fns : List Nat) (bit : Nat) (n : Note) : State :=
  let t := (fns.filter (fun fn => s.fnActive fn && bitOf (s.window fn).mask bit)).foldl (fun t fn => t.noteWindow fn n) s
  ((s.server.sessions.filter (fun x => !x.window && bitOf x.mask bit)).map Session.id).foldl (fun t id => t.noteSession id n) t

/-- Store a value as the device: a notifying object whose value changes makes entries (R45), a persistent one is written to flash (R30). -/
def State.put (s : State) (acc sub v : Nat) : State :=
  let f := objFlags acc sub
  let t := s.setObj acc sub v
  let t := if bitOf f 0 && s.obj acc sub != v then t.persist acc sub v else t
  if bitOf f 2 && s.obj acc sub != v then
    t.noteAll ((List.range 17).filter (fun fn => inView fn acc sub)) (acc / 4096)
      { acc := acc, sub := sub, kind := 1, notIn := false, detail := v % 2 ^ 32 }
  else t

/-! ### The SECDED code (R372, R373) -/

/-- The columns h_i as covering masks: check bit r covers the data bits of this mask. -/
def secdedCols : List Nat :=
  let subs3 := (List.range 8).flatMap (fun a => (List.range 8).flatMap (fun b => (List.range 8).filterMap (fun c =>
    if a < b ∧ b < c then some (2 ^ a + 2 ^ b + 2 ^ c) else none)))
  subs3 ++ [0x1F, 0x2F, 0x4F, 0x8F, 0x37, 0x57, 0x97, 0x67]

/-- The check byte of a data word: the exclusive OR of the columns of its set bits (R372). -/
def secded (w : Nat) : Nat :=
  (secdedCols.zipIdx).foldl (fun acc c => if bitOf w c.2 then acc ^^^ c.1 else acc) 0

/-- What a read of a word finds (R373). -/
inductive WordRead where
  | good (data : Nat)
  | corrected (data : Nat) (syndrome : Nat)
  | uncorrectable (data : Nat) (syndrome : Nat)
deriving DecidableEq, Repr

/-- Decode a stored word (R373). -/
def readWord (data check : Nat) : WordRead :=
  let s := check ^^^ secded data
  if s = 0 then .good data
  else if [1, 2, 4, 8, 16, 32, 64, 128].contains s then .corrected data s
  else match secdedCols.findIdx? (· == s) with
    | some i => .corrected (data ^^^ 2 ^ i) s
    | none => .uncorrectable data s

/-- The data a read delivers: an uncorrectable word as it is stored (R393). -/
def WordRead.data : WordRead → Nat
  | .good d => d
  | .corrected d _ => d
  | .uncorrectable d _ => d

/-! ### Memory (R370, R389-R391, R642) -/

def usableBytes : Nat := 341181464576
def stackBytes : Nat := 42647683072
def sideAlias : Nat := 0x700000000000
def physBase : Nat := 0x900000000000
def slotBase : Nat := 0x980000000000
def hallBase : Nat := 0x9C0000000000
def coreSize : Nat := 0x400000
def hallSize : Nat := 0x1000000

/-- An address of usable HBM (R370). -/
def isHbm (a : Nat) : Bool := decide (a < usableBytes)

/-- A byte of memory: HBM never written and SRAM never written read as zero. -/
def Mem.byte (m : Mem) (a : Nat) : Byte := mget 0#8 m.cells a

/-- The check byte of the word at word address w: the unwritten pattern's 0xFF in SRAM (R389), that of a zero word in HBM. -/
def checkDefault (w : Nat) : Byte := if isHbm (8 * w) then 0#8 else 0xFF#8

def Mem.check (m : Mem) (w : Nat) : Byte := mget (checkDefault w) m.checks w

/-- The data of the word at word address w, as stored. -/
def Mem.word (m : Mem) (w : Nat) : Nat := leNat ((List.range 8).map (fun i => m.byte (8 * w + i)))

/-- Store a word's eight bytes. -/
def Mem.putBytes (m : Mem) (a : Nat) (bs : List Byte) : Mem :=
  { m with cells := (bs.zipIdx).foldl (fun c b => mset 0#8 c (a + b.2) b.1) m.cells }

/-- Store a check byte. -/
def Mem.putCheck (m : Mem) (w : Nat) (c : Byte) : Mem :=
  { m with checks := if c = checkDefault w then mdel m.checks w else mput m.checks w c }

/-- The word is SRAM that holds the unwritten pattern exactly (R389). -/
def Mem.unwritten (m : Mem) (w : Nat) : Bool :=
  !isHbm (8 * w) && m.check w == 0xFF#8 && m.word w == 0

/-- What a read of word w finds. -/
def Mem.read (m : Mem) (w : Nat) : WordRead := readWord (m.word w) (m.check w).toNat

/-- Write some bytes of word w: bs from byte `off` on. The word gets fresh check bits; a word written in part that was uncorrectable stays so (R378, R384), an unwritten SRAM word becomes written (R389). -/
def Mem.writeWord (m : Mem) (w off : Nat) (bs : List Byte) : Mem :=
  let covered := decide (off = 0) && decide (8 ≤ bs.length)
  let unw := m.unwritten w
  let old := m.read w
  let base := if covered || unw then List.replicate 8 0#8 else leBytes 8 old.data
  let new := overlay base off bs
  let syn := if covered || unw then 0 else match old with
    | .uncorrectable _ s => s
    | _ => 0
  (m.putBytes (8 * w) new).putCheck w (BitVec.ofNat 8 (secded (leNat new) ^^^ syn))

/-- Write bytes from address a on, word by word. -/
def Mem.writeRaw (m : Mem) (a : Nat) (bs : List Byte) : Mem :=
  let first := a / 8
  let n := (a + bs.length + 7) / 8 - first
  (List.range n).foldl (fun m i =>
    let lo := max a (8 * (first + i))
    let hi := min (a + bs.length) (8 * (first + i) + 8)
    m.writeWord (first + i) (lo % 8) ((bs.drop (lo - a)).take (hi - lo))) m

/-- The granule's valid bit (R391). -/
def Mem.granuleValid (m : Mem) (a : Nat) : Bool := mget 0 m.valid (a / 4096) == 1

/-- The first write that reaches a clear granule zeroes its sectors and sets its bit (R391). -/
def Mem.openGranule (m : Mem) (g : Nat) : Mem :=
  if mget 0 m.valid g = 1 then m
  else { m with cells := mdelRange m.cells (g * 4096) (g * 4096 + 4096)
                checks := mdelRange m.checks (g * 512) (g * 512 + 512)
                valid := mset 0 m.valid g 1 }

/-- Write bytes to memory, opening HBM granules on the way (R391). -/
def Mem.write (m : Mem) (a : Nat) (bs : List Byte) : Mem :=
  if bs = [] then m
  else
    let m := if isHbm a then
        (List.range ((a + bs.length - 1) / 4096 - a / 4096 + 1)).foldl (fun m i => m.openGranule (a / 4096 + i)) m
      else m
    m.writeRaw a bs

/-- Mark granules unwritten, so that they read zero (R67, R391). -/
def Mem.clearGranules (m : Mem) (lo hi : Nat) : Mem :=
  { m with cells := mdelRange m.cells lo hi, checks := mdelRange m.checks (lo / 8) (hi / 8)
           valid := mdelRange m.valid (lo / 4096) (hi / 4096) }

/-- What is left of a copy once the n bytes from address a have been written again. -/
def Load.cut (a n : Nat) (l : Load) : List Load :=
  let lo := max l.dst a
  let hi := min (l.dst + l.len) (a + n)
  if hi ≤ lo then [l]
  else (if l.dst < lo then [{ l with len := lo - l.dst }] else []) ++
    (if hi < l.dst + l.len then [⟨hi, l.src + (hi - l.dst), l.dst + l.len - hi⟩] else [])

/-- Set SRAM words to the unwritten pattern (R389, R390). -/
def Mem.unwrite (m : Mem) (lo hi : Nat) : Mem :=
  { m with cells := mdelRange m.cells lo hi, checks := mdelRange m.checks (lo / 8) (hi / 8), loaded := m.loaded.flatMap (Load.cut lo (hi - lo)) }

/-- The canonical form of memory: cells and valid bits in canonical form, check bytes in order with no default listed. -/
def Mem.wf (m : Mem) : Bool :=
  mwf 0#8 m.cells && mwf 0 m.valid && rising m.checks && m.checks.all (fun e => e.2 != checkDefault e.1)

/-- The stack that holds a device address (R370). -/
def stackOf (a : Nat) : Nat := a / stackBytes

/-- The pseudo-channel of a device address within its stack (R370). -/
def pseudoOf (a : Nat) : Nat := a % stackBytes / 256 % 32

/-- Bytes lo to hi of a sector, written now, replace those that other owners' entries of the sector still hold (R382): one buffer gathers them all. -/
def Mem.supersede (m : Mem) (owner sector lo hi : Nat) : Mem :=
  { m with merges := (m.merges.map (fun e =>
      if e.sector = sector ∧ e.owner ≠ 0 ∧ e.owner ≠ owner then { e with bytes := e.bytes.filter (fun b => !(decide (lo ≤ b.1) && decide (b.1 < hi))) }
      else e)).filter (fun e => e.bytes != []) }

/-! ### Error records (R558, R574-R578) -/

/-- Units of an error record (R574). -/
abbrev unitPackage : Nat := 0
abbrev unitHall : Nat := 1
abbrev unitCore : Nat := 2
abbrev unitStack : Nat := 3
abbrev unitEngine : Nat := 4
abbrev unitDoor : Nat := 5
abbrev unitLaser : Nat := 6
abbrev unitSystem : Nat := 7
abbrev unitRouter : Nat := 8
abbrev unitWing : Nat := 9

/-- The class of a code (R558). -/
def classOf (code : Nat) : Nat := code / 4096 % 16

/-- The 64 bytes of a record (R574). -/
def ErrRec.bytes (r : ErrRec) : List Byte :=
  leBytes 2 r.code ++ leBytes 1 (r.device % 64) ++ leBytes 1 r.unit ++ leBytes 2 r.index ++
    leBytes 2 (match r.wing with | some w => w % 16 + 16 | none => 0) ++ leBytes 6 r.beat ++ leBytes 2 r.supp ++
    leBytes 4 r.number ++ fitBytes 44 r.detail

/-- A record read from 64 bytes (R577). -/
def ErrRec.ofBytes (bs : List Byte) : ErrRec :=
  let w := leAt bs 6 2
  { code := leAt bs 0 2, device := leAt bs 2 1 % 64, unit := leAt bs 3 1, index := leAt bs 4 2
    wing := if bitOf w 4 then some (w % 16) else none
    beat := leAt bs 8 6, supp := leAt bs 14 2, number := leAt bs 16 4, detail := slice bs 20 44 }

/-- Place a record: RECENT_RECORDS, the HBM error ring, and the notifications (R575, R578). -/
def State.placeRecord (s : State) (r0 : ErrRec) : State :=
  let r := { r0 with number := s.cur.number % 2 ^ 32 }
  let n := s.obj 0x5000 2
  let head := s.obj 0x5000 3 % n
  let full := decide ((head + 1) % n = s.obj 0x5000 4 % n)
  let inRing := n != 0 && !full
  let all := s.cur.records ++ [r]
  let t := { s with cur := { s.cur with records := all.drop (all.length - 256), number := s.cur.number + 1
                                        suppressed := mset 0 s.cur.suppressed r.code 0 } }
  let t := if inRing then
      State.setObj { t with mem := (t.mem.supersede 0 ((s.obj 0x5000 1 + 64 * head) / 64) 0 64).write (s.obj 0x5000 1 + 64 * head) r.bytes } 0x5000 3 ((head + 1) % n)
    else if n != 0 then t.count 0x5000 7 1 else t
  let t := t.count 0x5000 6 1
  t.noteAll (0 :: (match r.wing with | some w => [w + 1] | none => [])) 5
    { acc := 0x5000, sub := 5, kind := 2, notIn := !inRing, detail := r.code + (if inRing then head % 65536 else 0) * 65536 }

/-- A wing becomes fatal at the next seal, for the first reason that reaches it (R567). -/
def State.wingFatal (s : State) (w code device : Nat) : State :=
  let x := s.wing w
  match x.fatal with
  | some _ => s
  | none => s.setWing w { x with fatal := some (code, device) }

/-- The effects of an F4 record (R571): every hall stops, DEVICE_MISSING goes out, PACKAGE_STATE reads 1, and forwarding is to stop. -/
def State.packageFatal (s : State) : State :=
  if s.obj 0x5000 8 = 1 then s
  else
    let t := { s with cur := { s.cur with hallsStopped := true, fatalPending := true } }
    ((t.courier none (.deviceMissing s.device)).send (.pin "FAULT_N" false)).put 0x5000 8 1

/-- Raise a fault: its record (R574, held while the firmware is paused, R582), then the effect of its class (R558): a wing of an F3 record becomes fatal and the record goes to every package (R577), an F4 record stops the package (R571). -/
def State.raise (s : State) (code unit index : Nat) (wing : Option Nat) (detail : List Byte) : State :=
  let r : ErrRec := { code := code, device := s.device, unit := unit, index := index, wing := wing, beat := s.beatNo
                      supp := min (mget 0 s.cur.suppressed code) 0xFFFF, number := s.cur.number, detail := fitBytes 44 detail }
  let t := if s.obj 0x5300 2 = 1 then { s with cur := { s.cur with heldRecords := s.cur.heldRecords ++ [r] } }
           else s.placeRecord r
  match classOf code, wing with
  | 3, some w => (t.wingFatal w code s.device).courier none (.errorRecord r.bytes)
  | 4, _ => t.packageFatal
  | _, _ => t

/-- A record that a rate limit withholds (R377, R574, R615). -/
def State.withhold (s : State) (code : Nat) : State :=
  { s with cur := { s.cur with suppressed := mset 0 s.cur.suppressed code (mget 0 s.cur.suppressed code + 1) } }

/-- A packet that reaches no resource of its wing is dropped and counted, with at most one F0 record a second (R615); the detail holds SOURCE, DEST, WING, TYPE and the count withheld. -/
def State.wingMismatch (s : State) (source wing type : Nat) : State :=
  let t := s.count 0xB000 6 1
  let due := match t.cur.mismatchAt with
    | some m => decide (m + 1000 ≤ t.power.msTick)
    | none => true
  if due then
    let held := mget 0 t.cur.suppressed 0x0B01
    State.raise { t with cur := { t.cur with mismatchAt := some t.power.msTick } } 0x0B01 unitPackage 0 none
      (leBytes 1 source ++ leBytes 1 t.device ++ leBytes 1 wing ++ leBytes 1 type ++ leBytes 2 held)
  else t.withhold 0x0B01

/-- Note a failed check of the beat under way (R83). -/
def State.failCheck (s : State) (c : Check) : State :=
  { s with beat := { s.beat with checks := s.beat.checks ++ [c] } }

/-! ### Cores and slots (R63, R159, R172, R199) -/

/-- The physical core bound to a logical slot; none when the slot is unbound (R63, R172). A replay uses the binding of a sparing under way (R560). -/
def State.coreOf (s : State) (hall slot : Nat) : Option Nat :=
  let c := match (s.cur.sparing.filter (fun x => x.hall == hall && x.slot == slot)).getLast? with
    | some x => x.reserve
    | none => s.obj (0x2000 + hall) (slot + 1)
  if c = 0xFF then none else some c

/-- The global core id of a physical core (R159). -/
def coreId (hall core : Nat) : Nat := hall * 64 + core

/-- The device address of a physical core's buffer (R159, R642). -/
def coreAddr (hall core : Nat) : Nat := physBase + coreId hall core * coreSize

/-- The device address of a hall store (R642). -/
def hallAddr (hall : Nat) : Nat := hallBase + hall * hallSize

/-- The buffer of a logical slot, by its physical core; slots that are not bound have no buffer. -/
def State.slotAddr (s : State) (hall slot : Nat) : Nat := coreAddr hall ((s.coreOf hall slot).getD 63)

/-- The key of a hall's slot. -/
def slotKey (hall slot : Nat) : Nat := hall * 64 + slot

/-- The sequencer of a slot. -/
def State.seq (s : State) (hall slot : Nat) : Seq := mget {} s.work.seqs (slotKey hall slot)

def State.setSeq (s : State) (hall slot : Nat) (q : Seq) : State :=
  { s with work := { s.work with seqs := mset {} s.work.seqs (slotKey hall slot) q } }

/-- The arrays of a slot's core. -/
def State.engine (s : State) (hall slot : Nat) : Engine := mget {} s.work.engines (slotKey hall slot)

def State.setEngine (s : State) (hall slot : Nat) (e : Engine) : State :=
  { s with work := { s.work with engines := mset {} s.work.engines (slotKey hall slot) e } }

/-- A physical core's own state. -/
def State.core (s : State) (hall core : Nat) : Core := mget {} s.work.cores (slotKey hall core)

def State.setCore (s : State) (hall core : Nat) (c : Core) : State :=
  { s with work := { s.work with cores := mset {} s.work.cores (slotKey hall core) c } }

/-- A ring of a hall. -/
def State.ring (s : State) (hall ring : Nat) : Ring := mget {} s.work.rings (hall * 256 + ring)

def State.setRing (s : State) (hall ring : Nat) (r : Ring) : State :=
  { s with work := { s.work with rings := mset {} s.work.rings (hall * 256 + ring) r } }

/-- The slot that a physical core serves. -/
def State.slotOf (s : State) (hall core : Nat) : Option Nat := (List.range 40).find? (fun sl => s.coreOf hall sl == some core)

/-- The sequencer stops, and what the arrays have not begun is not issued (R156, R178). -/
def State.stopIssue (s : State) (hall slot : Nat) : State :=
  let q := s.seq hall slot
  let t := s.setSeq hall slot { q with status := .stopped, hold := .none, waits := [] }
  t.setEngine hall slot { t.engine hall slot with queue := [] }

/-- The key of a counter that a wing's work is to advance: wing × 2^24 + object (R141). -/
def dueKey (wing acc sub : Nat) : Nat := wing * 2 ^ 24 + objKey acc sub

/-- Add to a counter that advances at the seal that commits the wing's work (R141). -/
def State.countDue (s : State) (wing acc sub n : Nat) : State :=
  if n = 0 then s
  else { s with work := { s.work with due := mset 0 s.work.due (dueKey wing acc sub) (mget 0 s.work.due (dueKey wing acc sub) + n) } }

/-- An Ethernet door that is up goes down (R472), with its record; the cause is as in DOOR_DOWN, or 4 for a write to MODE (log entry 211). -/
def State.ethFalls (s : State) (d cause : Nat) : State :=
  if s.obj (0xD000 + (d - 12)) 8 = 0 then s else (s.put (0xD000 + (d - 12)) 8 0).raise 0x0F02 unitDoor d none (leBytes 1 d ++ leBytes 1 cause)

end Sys2Proof.Machine
end

