-- ==== Sys2Proof/Machine/Memory.lean ====
section
/-! DEFINITION. Reading and writing memory (12_memory_integrity.md): what a read delivers and what it does to logs, counters and checks (R377-R381, R389, R394-R396), merge buffers (R382-R384), pending writes of a beat (R247), the address map (R642, R199) and the fabric code (R374-R376). -/

namespace Sys2Proof.Machine

open Sys2Proof

/-! ### What a read delivers -/

/-- The bytes merge buffers hold over memory, entries a beat has not committed left out (R382, R84). -/
def Mem.overlayByte (m : Mem) (a : Nat) : Option Byte :=
  m.merges.foldl (fun acc e => if e.sector = a / 64 ∧ e.owner ≠ 0 then (mget none e.bytes (a % 64)).orElse (fun _ => acc) else acc) none

/-- The byte a read of address a delivers: corrected where the code corrects it (R373), zero in a clear granule (R391), merge bytes laid over (R382). -/
def Mem.deliver (m : Mem) (a : Nat) : Byte :=
  let base := if isHbm a && !m.granuleValid a then 0#8
    else BitVec.ofNat 8 ((m.read (a / 8)).data >>> (8 * (a % 8)))
  if isHbm a then (m.overlayByte a).getD base else base

/-- The bytes a read of a range delivers. -/
def Mem.deliverRange (m : Mem) (a n : Nat) : List Byte := (List.range n).map (fun i => m.deliver (a + i))

/-- Word addresses that a byte range touches. -/
def wordsOf (a n : Nat) : List Nat := if n = 0 then [] else (List.range ((a + n - 1) / 8 - a / 8 + 1)).map (· + a / 8)

/-- Sectors that a byte range touches. -/
def sectorsOf (a n : Nat) : List Nat := if n = 0 then [] else (List.range ((a + n - 1) / 64 - a / 64 + 1)).map (· + a / 64)

/-- What a read of word w finds, a word of a clear granule being zero (R391). -/
def Mem.see (m : Mem) (w : Nat) : WordRead :=
  if isHbm (8 * w) && !m.granuleValid (8 * w) then .good 0 else m.read w

/-- The word is uncorrectable. -/
def Mem.bad (m : Mem) (w : Nat) : Bool := match m.see w with
  | .uncorrectable _ _ => true
  | _ => false

/-- The first word of a range that is uncorrectable. -/
def Mem.firstBad (m : Mem) (a n : Nat) : Option Nat := (wordsOf a n).find? m.bad

/-- The first SRAM word of a range that was never written (R389). -/
def Mem.firstUnwritten (m : Mem) (a n : Nat) : Option Nat := (wordsOf a n).find? m.unwritten

/-! ### The correction log (R378-R381) -/

/-- Write a sector back: corrected words with fresh check bits, uncorrectable ones as stored (R378). -/
def Mem.writeBack (m : Mem) (sector : Nat) : Mem :=
  (List.range 8).foldl (fun m i =>
    match m.read (8 * sector + i) with
    | .corrected d _ => (m.putBytes (64 * sector + 8 * i) (leBytes 8 d)).putCheck (8 * sector + i) (BitVec.ofNat 8 (secded d))
    | _ => m) m

/-- Used spares of a pseudo-channel: the next unused index (R380, R381). -/
def Mem.nextSpare (m : Mem) (stack pc : Nat) : Option Nat :=
  (List.range 8).find? (fun k => mget 0 m.remap (stack * 256 + 8 * pc + k) = 0)

/-- Redirect a sector to spare k of its pseudo-channel; a spare it leaves stays used (R380). -/
def Mem.remapSector (m : Mem) (stack pc k sector : Nat) : Mem :=
  let rel := sector - stack * (stackBytes / 64)
  let m1 := (List.range 8).foldl (fun (r : NMap) j =>
    let v := mget 0 r (stack * 256 + 8 * pc + j)
    if v % 2 ^ 33 = rel + 2 ^ 32 then mset 0 r (stack * 256 + 8 * pc + j) (rel + 2 ^ 40) else r) m.remap
  { m with remap := mset 0 m1 (stack * 256 + 8 * pc + k) (rel + 2 ^ 32 + 2 ^ 40) }

/-- The sector is redirected (R380). -/
def Mem.remapped (m : Mem) (sector : Nat) : Bool :=
  let stack := sector / (stackBytes / 64)
  let rel := sector - stack * (stackBytes / 64)
  m.remap.any (fun e => e.1 / 256 == stack && e.2 % 2 ^ 33 == rel + 2 ^ 32)

/-- REMAP_TABLE of a stack: 256 entries of 8 bytes (R397). -/
def Mem.remapTable (m : Mem) (stack : Nat) : List Byte :=
  (List.range 256).flatMap (fun i => leBytes 8 (mget 0 m.remap (stack * 256 + i) % 2 ^ 33))

/-- A correction acts on the log of the sector's pseudo-channel (R378, R380, R381). -/
def State.logCorrection (s : State) (sector : Nat) : State :=
  let a := 64 * sector
  let n := stackOf a
  let pc := pseudoOf a
  let key := n * 32 + pc
  let log := mget [] s.mem.logs key
  let setLog := fun (s : State) (l : List LogEntry) => { s with mem := { s.mem with logs := mset [] s.mem.logs key l } }
  match log.find? (fun e => e.sector == sector) with
  | none =>
    let t := setLog s ((if 16 ≤ log.length then log.drop 1 else log) ++ [⟨sector, false⟩])
    if 16 ≤ log.length then t.count (0xC1D0 + n) 7 1 else t
  | some e =>
    if !e.back then
      let t := setLog s (updFirst (fun e => e.sector == sector) (fun e => { e with back := true }) log)
      (({ t with mem := t.mem.writeBack sector }).count (0xC1D0 + n) 2 1).raise 0x0C02 unitStack key none (leBytes 8 a)
    else
      match s.mem.nextSpare n pc with
      | some k =>
        let t := setLog s (log.filter (fun e => e.sector != sector))
        let t := { t with mem := (t.mem.writeBack sector).remapSector n pc k sector }
        let t := ((t.count (0xC1D0 + n) 3 1).put (0x7300 + n) 7 (t.obj (0x7300 + n) 7 + 1)).persist (0x7300 + n) 8 0
        t.raise 0x2C01 unitStack key none (leBytes 8 a ++ leBytes 1 k)
      | none =>
        let t := setLog s (updFirst (fun e => e.sector == sector) (fun e => { e with back := false }) log)
        if t.mem.exhausted.contains key then t
        else ({ t with mem := { t.mem with exhausted := t.mem.exhausted ++ [key] } }).raise 0x0C06 unitStack key none (leBytes 1 n ++ leBytes 1 pc)

/-- Who reads (R394, R396): a beat, or a reader outside a beat by a number that its record carries: 1 host, 2 shipment, 3 scheduler, 4 curator, 5 the folio unit's edits. -/
inductive Reader where
  | beat
  | outside (who : Nat)
  /-- the conservator: corrections and uncorrectable words count in its own counters too (R385, R388) -/
  | scrub
deriving DecidableEq, Repr

/-- LAST_UNCORRECTABLE of the stack (R394-R397): the address of the sector. -/
def State.lastBad (s : State) (sector : Nat) : State := s.put (0x7300 + stackOf (64 * sector)) 9 (64 * sector)

/-- A beat's read has met an uncorrectable word (R395). -/
def State.meetBad (s : State) (w : Nat) : State :=
  { s with beat := { s.beat with metBad := if s.beat.metBad.contains w then s.beat.metBad else s.beat.metBad ++ [w] } }

/-- An uncorrectable word of HBM that a reader asked for, or met in a sector read whole (R388, R394, R396). -/
def State.hbmBad (s : State) (r : Reader) (w : Nat) (asked : Bool) : State :=
  let a := 8 * w
  let n := stackOf a
  let key := n * 32 + pseudoOf a
  let t := s.lastBad (w / 8)
  match r, asked with
  | .beat, true =>
    (((t.count (0xC1D0 + n) 4 1).raise 0x1C01 unitStack key none (leBytes 8 a ++ leBytes 1 (w % 8))).meetBad w).failCheck (.hbm a)
  | .beat, false => (t.count (0xC1D0 + n) 4 1).raise 0x0C08 unitStack key none (leBytes 8 a ++ [0])
  | .outside who, _ => (t.count (0xC1D0 + n) 4 1).raise 0x0C08 unitStack key none (leBytes 8 a ++ leBytes 1 who)
  | .scrub, _ => t

/-- The corrections of one read of a sector (R377): counted, recorded at most once per pseudo-channel and millisecond, and acting on the log. -/
def State.hbmCorrected (s : State) (sector n w syn : Nat) : State :=
  let a := 64 * sector
  let st := stackOf a
  let key := st * 32 + pseudoOf a
  let t := s.count (0xC1D0 + st) 1 n
  let t := if t.mem.noted.contains key then t.withhold 0x0C01
    else ({ t with mem := { t.mem with noted := t.mem.noted ++ [key] } }).raise 0x0C01 unitStack key none
      (leBytes 8 (8 * w) ++ leBytes 1 (w % 8) ++ leBytes 1 syn)
  t.logCorrection sector

/-- The corrected words of a sector with their syndromes. -/
def Mem.correctedIn (m : Mem) (sector : Nat) : List (Nat × Nat) :=
  (List.range 8).filterMap (fun i => match m.see (8 * sector + i) with
    | .corrected _ s => some (8 * sector + i, s)
    | _ => none)

/-- The uncorrectable words of a sector. -/
def Mem.badIn (m : Mem) (sector : Nat) : List Nat := ((List.range 8).map (8 * sector + ·)).filter m.bad

/-- A sector of HBM read whole by a reader that asked for bytes lo..hi-1 (R377, R394). -/
def State.touchSector (s : State) (r : Reader) (lo hi sector : Nat) : State :=
  let cs := s.mem.correctedIn sector
  let bs := s.mem.badIn sector
  let t := match cs with
    | [] => s
    | c :: _ => s.hbmCorrected sector cs.length c.1 c.2
  bs.foldl (fun t w => t.hbmBad r w (decide (lo < 8 * w + 8) && decide (8 * w < hi))) t

/-- The hall whose store or core buffer an SRAM address is. -/
def sramHall (a : Nat) : Nat := if hallBase ≤ a then (a - hallBase) / hallSize else (a - physBase) / coreSize / 64

/-- Unit and index of an SRAM address (R574). -/
def sramPlace (a : Nat) : Nat × Nat := if hallBase ≤ a then (unitHall, sramHall a) else (unitCore, (a - physBase) / coreSize)

/-- Offset within its SRAM. -/
def sramOffset (a : Nat) : Nat := if hallBase ≤ a then (a - hallBase) % hallSize else (a - physBase) % coreSize

/-- Hall, slot or hall store, and offset, as the details of R398 name an SRAM word: the slot whose buffer it is, 0xFF the hall store, 0xFE a core bound to no slot (log entry 202). -/
def State.sramDetail (s : State) (a : Nat) : List Byte :=
  let h := sramHall a
  let sl := if hallBase ≤ a then 0xFF else (s.slotOf h ((a - physBase) / coreSize % 64)).getD 0xFE
  leBytes 1 h ++ leBytes 1 sl ++ leBytes 4 (sramOffset a)

/-- A word of SRAM read by a beat (R377, R394, R397). -/
def State.touchSram (s : State) (w : Nat) : State :=
  let a := 8 * w
  let h := sramHall a
  let p := sramPlace a
  match s.mem.read w with
  | .good _ => s
  | .corrected _ _ => (s.count (0xC1E0 + h) 1 1).raise 0x0C03 p.1 p.2 none (s.sramDetail a)
  | .uncorrectable _ _ =>
    (((s.count (0xC1E0 + h) 2 1).raise 0x1C02 p.1 p.2 none (s.sramDetail a)).meetBad w).failCheck (.sram a)

/-- Lines or sectors of a list of ranges: SRAM lines and HBM sectors touched. -/
def lineCount (xs : List (Nat × Nat)) : Nat × Nat :=
  xs.foldl (fun acc x => let n := (sectorsOf x.1 x.2).length
    if isHbm x.1 then (acc.1, acc.2 + n) else (acc.1 + n, acc.2)) (0, 0)

/-- Lines and sectors that a unit of a hall reads or writes count (R526), with whose energy they are. -/
def State.accessed (s : State) (hall owner : Nat) (xs : List (Nat × Nat)) : State :=
  let n := lineCount xs
  (s.powerOwned hall 3 n.1 owner).powerOwned hall 5 n.2 owner

/-- What reading a range does to the machine (R377, R394-R396). -/
def State.touch (s : State) (r : Reader) (a n : Nat) : State :=
  if isHbm a then (sectorsOf a n).foldl (fun t x => t.touchSector r a (a + n) x) s
  else match r with
    | .beat => (wordsOf a n).foldl (fun t w => if t.mem.unwritten w then t else t.touchSram w) s
    | _ => s

/-- The word that a replay meets uncorrectable again (R395): the descriptor that reads it faults. -/
def State.sourceBad (s : State) (a n : Nat) : Option Nat :=
  (wordsOf a n).find? (fun w => s.mem.bad w && s.beat.badWords.contains w)

/-- The second read of a bad source (R395): counted (R397), and written to LAST_UNCORRECTABLE. -/
def State.sourceAgain (s : State) (w : Nat) : State :=
  let a := 8 * w
  if isHbm a then (s.lastBad (w / 8)).count (0xC1D0 + stackOf a) 4 1 else s.count (0xC1E0 + sramHall a) 2 1

/-! ### Writes -/

/-- Words have been written: their history of uncorrectable reads ends (R395). -/
def State.forget (s : State) (a n : Nat) : State :=
  let keep := fun (l : List Nat) => l.filter (fun w => !(wordsOf a n).contains w)
  { s with beat := { s.beat with badWords := keep s.beat.badWords, metBad := keep s.beat.metBad } }

/-- Write memory at once (R395); a core buffer's bytes are no longer what a MOVE brought there. -/
def State.writeMem (s : State) (a : Nat) (bs : List Byte) : State :=
  State.forget { s with mem := { s.mem.write a bs with loaded := (s.mem.write a bs).loaded.flatMap (Load.cut a bs.length) } } a bs.length

/-- The pieces of a write by sector: sector, offset, bytes. -/
def sectorPieces (a : Nat) (bs : List Byte) : List (Nat × Nat × List Byte) :=
  (sectorsOf a bs.length).map (fun x =>
    let lo := max a (64 * x)
    let hi := min (a + bs.length) (64 * x + 64)
    (x, lo % 64, (bs.drop (lo - a)).take (hi - lo)))

/-- Lay bytes into a merge entry. -/
def Merge.lay (e : Merge) (off : Nat) (bs : List Byte) : Merge :=
  { e with bytes := (bs.zipIdx).foldl (fun m b => mset none m (off + b.2) (some b.1)) e.bytes }

/-- The runs of neighbouring bytes an entry holds, as writes. -/
def Merge.runs (e : Merge) : List (Nat × List Byte) :=
  e.bytes.foldl (fun (acc : List (Nat × List Byte)) b =>
    let v := (b.2).getD 0
    match acc.getLast? with
    | some (st, l) => if st + l.length = b.1 then acc.dropLast ++ [(st, l ++ [v])] else acc ++ [(b.1, [v])]
    | none => [(b.1, [v])]) []

/-- The parts of a sector's merge entry, in the order they were begun. -/
def Mem.parts (m : Mem) (sector : Nat) : List Merge := m.merges.filter (fun e => e.sector == sector)

/-- The parts of an entry hold the byte at an offset. -/
def holdsByte (ps : List Merge) (i : Nat) : Bool := ps.any (fun e => (mget none e.bytes i).isSome)

/-- An entry covers all 64 bytes of its sector (R383). -/
def coversSector (ps : List Merge) : Bool := (List.range 64).all (holdsByte ps)

/-- Words of its sector that an entry covers only in part or not at all (R384). -/
def partWords (sector : Nat) (ps : List Merge) : List Nat :=
  ((List.range 8).filter (fun i => !((List.range 8).all (fun j => holdsByte ps (8 * i + j))))).map (8 * sector + ·)

/-- The merge of a beat's writes meets a word that an earlier attempt met uncorrectable (R395): the descriptor that wrote the entry faults, and R179 governs. -/
def State.mergeFault (s : State) (w : Nat) (x : Writer) : State :=
  let t := (s.stopIssue x.hall x.slot).failCheck (.fault x.wing 0x3617)
  t.raise 0x3617 unitCore (coreId x.hall ((s.coreOf x.hall x.slot).getD 63)) (some x.wing)
    (leBytes 2 x.tag ++ leBytes 1 x.op ++ leBytes 1 x.hall ++ leBytes 1 x.slot ++ leBytes 8 (8 * w))

/-- Who reads the sector for an entry: the beat that wrote it, or who wrote it outside a beat. -/
def mergeReader (ps : List Merge) : Reader :=
  if ps.any (fun e => e.owner == 0) then .beat
  else match ps with
    | e :: _ => .outside (if e.owner < 100 then 1 else if e.owner = 101 then 2 else 5)
    | [] => .scrub

/-- The read of its sector that an entry needs when it does not cover every byte (R384): it counts, corrections are noted, and an uncorrectable word that the entry does not cover completely is met. -/
def State.mergeRead (s : State) (sector : Nat) (ps : List Merge) : State :=
  let t := (s.count (0xC1D0 + stackOf (64 * sector)) 8 1).powerCount (stackOf (64 * sector)) 5 1
  let t := match t.mem.correctedIn sector with
    | [] => t
    | c :: l => t.hbmCorrected sector (l.length + 1) c.1 c.2
  let r := mergeReader ps
  ((partWords sector ps).filter t.mem.bad).foldl (fun t w =>
    match r, s.beat.badWords.contains w, ps.findSome? Merge.writer with
    | .beat, true, some x => (t.sourceAgain w).mergeFault w x
    | _, _, _ => t.hbmBad r w true) t

/-- Write out the merge entry of a sector (R383, R384): what a beat wrote goes to its pending writes, the rest to memory. -/
def State.flushSector (s : State) (sector : Nat) : State :=
  let ps := s.mem.parts sector
  if ps = [] then s
  else
    let t := { s with mem := { s.mem with merges := s.mem.merges.filter (fun x => x.sector != sector) } }
    let t := if coversSector ps then t else t.mergeRead sector ps
    ps.foldl (fun t e =>
      if e.owner = 0 then
        { t with mem := { t.mem with writes := t.mem.writes ++ e.runs.map (fun r => ⟨s.beat.attempt, 64 * sector + r.1, r.2⟩) } }
      else e.runs.foldl (fun t r => t.writeMem (64 * sector + r.1) r.2) t) t

/-- The channel controller of a sector: 16 in each stack (R382). -/
def channelOf (sector : Nat) : Nat := stackOf (64 * sector) * 16 + pseudoOf (64 * sector) / 2

/-- The sectors that have an entry in a channel's merge buffer, oldest first (R382). -/
def Mem.entriesOf (m : Mem) (channel : Nat) : List Nat := ((m.merges.map Merge.sector).eraseDups).filter (fun x => channelOf x == channel)

/-- A write of part of a sector gathers in its entry (R382, R383); the oldest entry of a full buffer is written first, and an entry that covers its sector is written. -/
def State.mergeWrite (s : State) (owner sector off : Nat) (bs : List Byte) (by_ : Option Writer) : State :=
  let mine := s.mem.entriesOf (channelOf sector)
  let s := if mine.contains sector || decide (mine.length < 64) then s else s.flushSector (mine.headD 0)
  let own := fun (e : Merge) => e.sector == sector && e.owner == owner
  let t := match s.mem.merges.find? own with
    | some e => { s with mem := { s.mem with merges := updFirst own (fun _ => { e.lay off bs with writer := by_ }) s.mem.merges } }
    | none => { s with mem := { s.mem with merges := s.mem.merges ++ [(Merge.mk sector [] owner by_).lay off bs] } }
  if coversSector (t.mem.parts sector) then t.flushSector sector else t

/-- A write of a beat program or of the append path (R247, R382): HBM writes are pending until the seal, SRAM writes are in place. -/
def State.beatWrite (s : State) (by_ : Option Writer) (a : Nat) (bs : List Byte) : State :=
  if isHbm a then
    (sectorPieces a bs).foldl (fun t p =>
      if p.2.2.length = 64 then
        { t with mem := { t.mem with writes := t.mem.writes ++ [⟨t.beat.attempt, 64 * p.1, p.2.2⟩] } }
      else t.mergeWrite 0 p.1 p.2.1 p.2.2 by_) s
  else s.writeMem a bs

/-- A write made by no beat program (R383). A whole sector replaces what entries hold of it. -/
def State.outsideWrite (s : State) (owner a : Nat) (bs : List Byte) : State :=
  (sectorPieces a bs).foldl (fun t p =>
    if p.2.2.length = 64 then State.writeMem { t with mem := t.mem.supersede 0 p.1 0 64 } (64 * p.1) p.2.2
    else State.mergeWrite { t with mem := t.mem.supersede owner p.1 p.2.1 (p.2.1 + p.2.2.length) } owner p.1 p.2.1 p.2.2 none) s

/-- Write out every merge entry that holds bytes of an owner. -/
def State.flushOwner (s : State) (f : Nat → Bool) : State :=
  (((s.mem.merges.filter (fun e => f e.owner)).map Merge.sector).eraseDups).foldl State.flushSector s

/-- Pending writes of a failed attempt are discarded and counted, in the hall of their stack (R247). -/
def State.countSuperseded (s : State) (ws : List PWrite) : State :=
  ws.foldl (fun t w => t.count (0xC190 + stackOf w.address) 5 1) s

/-- Commit the pending writes of an attempt; others are discarded and counted in the hall whose stack they were for (R84, R247). -/
def State.commitWrites (s : State) (attempt : Nat) : State :=
  let ws := s.mem.writes
  let t := { s with mem := { s.mem with writes := [] } }
  ws.foldl (fun t w =>
    if w.attempt = attempt then
      let m := (sectorPieces w.address w.bytes).foldl (fun (m : Mem) p => m.supersede 0 p.1 p.2.1 (p.2.1 + p.2.2.length)) t.mem
      State.writeMem { t with mem := m } w.address w.bytes
    else t.countSuperseded [w]) t

/-! ### The address map of descriptors (R199, R613, R642) -/

/-- The hall of a hall-store address, the hall and slot of a slot alias. -/
inductive Region where
  | hbm
  | hall (h : Nat)
  | slot (h s : Nat)
  | none
deriving DecidableEq, Repr

/-- The region that holds a whole range (R642). -/
def regionOf (a n : Nat) : Region :=
  if a + n ≤ usableBytes then .hbm
  else if hallBase ≤ a ∧ a + n ≤ hallBase + 8 * hallSize ∧ (a - hallBase) / hallSize = (a + n - 1 - hallBase) / hallSize then
    .hall ((a - hallBase) / hallSize)
  else if slotBase ≤ a ∧ a + n ≤ slotBase + 512 * coreSize ∧ (a - slotBase) / coreSize = (a + n - 1 - slotBase) / coreSize ∧
      (a - slotBase) / coreSize % 64 < 40 then
    .slot ((a - slotBase) / coreSize / 64) ((a - slotBase) / coreSize % 64)
  else .none

/-- A wing's HBM window (R65). -/
def State.inWindow (s : State) (w a n : Nat) : Bool :=
  decide (s.obj (0x3000 + w) 1 ≤ a) && decide (a + n ≤ s.obj (0x3000 + w) 2)

/-- A hall is in the wing's HALL_MASK (R65). -/
def State.hallAllowed (s : State) (w h : Nat) : Bool := decide (h < 8) && bitOf (s.obj (0x3000 + w) 5) h

/-- A range of hall-store bytes lies in the wing's share (R613). -/
def State.inShare (s : State) (w off n : Nat) : Bool :=
  decide (s.obj (0x3010 + w) 1 * 65536 ≤ off) && decide (off + n ≤ s.obj (0x3010 + w) 2 * 65536)

/-! ### Program images (R229) -/

/-- The offset of a hall step record. -/
def Image.stepRec (i : Image) (step hall : Nat) : Nat := i.table + (8 * step + hall) * 576

/-- PROGRAM, DESCRIPTORS and MAX_REF of a slot in a step. -/
def Image.program (i : Image) (step hall slot : Nat) : Nat × Nat × Nat :=
  let o := i.stepRec step hall + 8 * slot
  (leAt i.bytes o 4, leAt i.bytes (o + 4) 2, leAt i.bytes (o + 6) 1)

/-- A stage group of a step: SLOTS, OFFSET, REGION, REGION_SIZE; none when it is not defined. -/
def Image.groupRec (i : Image) (step hall g : Nat) : Option (Nat × Nat × Nat × Nat) :=
  let o := i.stepRec step hall + 320 + 16 * g
  let lo := leAt i.bytes o 8
  let hi := leAt i.bytes (o + 8) 8
  if bitOf lo 50 then some (bits lo 39 0, bits lo 49 40, bits hi 23 0, bits hi 39 24) else none

/-- The image gives a slot a program in some step. -/
def Image.uses (i : Image) (hall slot : Nat) : Bool := (List.range i.steps).any (fun st => decide (0 < (i.program st hall slot).2.1))

/-- The most groups of two or more members that any step defines in a hall (R231). -/
def Image.wideGroups (i : Image) (hall : Nat) : Nat :=
  (List.range i.steps).foldl (fun m st => max m ((List.range 16).filter (fun g => match i.groupRec st hall g with
    | some r => decide (1 < popcount 40 r.1)
    | none => false)).length) 0

/-- An image a wing has loaded (R513). -/
def State.image (s : State) (w handle : Nat) : Option Image :=
  (s.work.images.find? (fun e => e.1 == w * 2 ^ 32 + handle)).map Prod.snd

/-- The wing's job gives a slot a program in some step (R199, R612). -/
def State.jobUses (s : State) (w hall slot : Nat) : Bool := match (s.wing w).job with
  | some j => match s.image w j.image with
    | some i => i.uses hall slot
    | none => false
  | none => false

/-- A device address that a descriptor of a wing may name for n bytes (R199): where it lies, a slot alias resolved to its core; none: ADDRESS_RANGE. -/
def State.resolve (s : State) (w a n : Nat) : Option Nat :=
  match regionOf a n with
  | .hbm => if s.inWindow w a n then some a else none
  | .hall h => if s.hallAllowed w h && s.inShare w ((a - hallBase) % hallSize) n then some a else none
  | .slot h sl => match s.coreOf h sl with
    | some c => if s.hallAllowed w h && s.jobUses w h sl then some (coreAddr h c + (a - slotBase) % coreSize) else none
    | none => none
  | .none => none

/-- A range of device addresses cut where one core buffer or hall store ends and the next begins (R642). -/
def regionParts (a n : Nat) : List (Nat × Nat) :=
  let unit := if a < slotBase then 0 else if a < hallBase then coreSize else hallSize
  if unit = 0 ∨ n = 0 then [(a, n)]
  else (List.range ((a + n - 1) / unit - a / unit + 1)).map (fun i =>
    let lo := max a ((a / unit + i) * unit)
    (lo, min (a + n) ((a / unit + i + 1) * unit) - lo))

/-- Where a range that a descriptor names lies, part by part; none when R199 does not allow an address of it. -/
def State.resolveParts (s : State) (w a n : Nat) : Option (List (Nat × Nat)) :=
  (regionParts a n).foldl (fun acc x => match acc, s.resolve w x.1 x.2 with
    | some l, some p => some (l ++ [(p, x.2)])
    | _, _ => none) (some [])

/-! ### The fabric code (R374-R376) -/

/-- Multiply by α in GF(2^7) with x^7 + x + 1. -/
def gfDouble (x : Nat) : Nat := if 64 ≤ x then (2 * x) % 128 ^^^ 3 else 2 * x

/-- α^j. -/
def gfPow : Nat → Nat
  | 0 => 1
  | j + 1 => gfDouble (gfPow j)

/-- The parity-check column of code bit j: α^j, α^(3j), 1. -/
def fabricCol (j : Nat) : Nat := gfPow (j % 127) + gfPow (3 * j % 127) * 128 + 16384

/-- G(x) = (x + 1)(x^7 + x + 1) m₃(x), m₃ = x^7 + x^5 + x^3 + x + 1. -/
def fabricG : Nat := 0xFC87

/-- The remainder of a polynomial of degree below 80 modulo G. -/
def fabricRem (p : Nat) : Nat :=
  (List.range 65).foldl (fun r i => if bitOf r (79 - i) then r ^^^ (fabricG <<< (64 - i)) else r) p

/-- The 80-bit code word of 64 data bits and a sequence bit (R375). -/
def fabricEncode (data : Nat) (seqBit : Bool) : Nat :=
  let m := (data % 2 ^ 64 + b2n seqBit * 2 ^ 64) <<< 15
  m + fabricRem m

/-- The syndrome of a received word. -/
def fabricSyndrome (w : Nat) : Nat := (List.range 80).foldl (fun a j => if bitOf w j then a ^^^ fabricCol j else a) 0

/-- What the receiving end makes of a word (R376): the word with up to two bits corrected and how many, or nothing. -/
def fabricDecode (w : Nat) (expect : Bool) : Option (Nat × Nat) :=
  let s := fabricSyndrome w
  let fixed : Option (Nat × Nat) :=
    if s = 0 then some (w, 0)
    else match (List.range 80).find? (fun j => fabricCol j == s) with
      | some j => some (w ^^^ 2 ^ j, 1)
      | none => match ((List.range 80).flatMap (fun i => (List.range i).map (fun j => (i, j)))).find? (fun p => fabricCol p.1 ^^^ fabricCol p.2 == s) with
        | some p => some (w ^^^ 2 ^ p.1 ^^^ 2 ^ p.2, 2)
        | none => none
  match fixed with
  | some r => if bitOf r.1 79 = expect then some r else none
  | none => none

/-! ### Words on the fabric's links (R11, R374-R376, R394, R395) -/

/-- The channels that join a hall to another (R11): none to itself, one within its row or to the hall above or below, else two; DESIGN CHOICE: the first of two runs in the row (log entry 203). -/
def fabricRoute (a b : Nat) : List (Nat × Nat) :=
  if a = b then []
  else if a / 4 = b / 4 ∨ a % 4 = b % 4 then [(a, b)]
  else [(a, a / 4 * 4 + b % 4), (a / 4 * 4 + b % 4, b)]

/-- The number of a link direction between halls; 64 + h is hall h's activation broadcast (log entry 203). -/
def linkOf (p : Nat × Nat) : Nat := p.1 * 8 + p.2

/-- What a receiving end makes of one word: nothing wrong, corrected, or a failure by its cause: 0 syndrome, 1 sequence (R376). -/
inductive Heard where
  | fine
  | corrected
  | failed (cause : Nat)
deriving DecidableEq, Repr

/-- The receiving end of a word sent with one sequence bit where another is expected, some code bits inverted on the way. -/
def heard (data : Nat) (sent expect : Bool) (mask : Nat) : Heard :=
  if mask = 0 then (if sent = expect then .fine else .failed 1)
  else
    let w := fabricEncode data sent ^^^ mask
    match fabricDecode w expect with
    | some (_, 0) => .fine
    | some _ => .corrected
    | none => if (fabricDecode w (!expect)).isSome then .failed 1 else .failed 0

/-- One word on a link: the sender's next sequence bit and the one the receiver expects, before and after. A word that fails is sent again by its source at once, which leaves both ends in step (R394, log entry 203). -/
def linkWord (ends : Bool × Bool) (data : Nat) (slip : Option LinkSlip) : (Bool × Bool) × List Heard := match slip with
  | some .lost => ((!ends.1, ends.2), [])
  | some .again => ((!ends.1, !ends.1), [heard data ends.1 ends.2 0, heard data ends.1 (!ends.1) 0])
  | some (.flips m) => ((!ends.1, !ends.1), [heard data ends.1 ends.2 m])
  | none => ((!ends.1, !ends.1), [heard data ends.1 ends.2 0])

/-- n words on a link with what happens to them by number. -/
def linkRun (ends : Bool × Bool) (data : Nat → Nat) (n : Nat) (slips : List (Nat × LinkSlip)) : (Bool × Bool) × List Heard :=
  (List.range n).foldl (fun acc i =>
    let r := linkWord acc.1 (data i) ((slips.find? (fun x => x.1 == i)).map Prod.snd)
    (r.1, acc.2 ++ r.2.filter (· != .fine))) (ends, [])

/-- The sequence bits of a link's channel. -/
def Mem.linkEnds (m : Mem) (link channel : Nat) : Bool × Bool :=
  let v := mget 0 m.linkSeq (link * 2 ^ 16 + channel)
  (bitOf v 0, bitOf v 1)

/-- Send n words over a channel of a link (R375, R376): what the receiver did not find fine. -/
def State.sendWords (s : State) (link channel : Nat) (data : Nat → Nat) (n : Nat) (slips : List (Nat × LinkSlip)) : State × List Heard :=
  let r := linkRun (s.mem.linkEnds link channel) data n slips
  ({ s with mem := { s.mem with linkSeq := mset 0 s.mem.linkSeq (link * 2 ^ 16 + channel) (b2n r.1.1 + 2 * b2n r.1.2) } }, r.2)

/-- What a hall does about a word received over a link (R376, R394): corrections and failures count and are recorded; a failure fails the beat that reads. -/
def State.hearWord (s : State) (r : Reader) (hall link channel : Nat) (h : Heard) : State := match h, r with
  | .fine, _ => s
  | .corrected, _ => (s.count (0xC1E0 + hall) 4 1).raise 0x0C04 unitHall hall none (leBytes 1 link ++ leBytes 2 channel)
  | .failed c, .beat =>
    ((s.count (0xC1E0 + hall) 5 1).raise 0x1C03 unitHall hall none (leBytes 1 link ++ leBytes 2 channel ++ leBytes 1 c)).failCheck .fabric
  | .failed _, _ => s.count (0xC1E0 + hall) 5 1

/-- Words cross the fabric from one hall to another, hop by hop. -/
def State.crossFabric (s : State) (r : Reader) (a b channel : Nat) (data : Nat → Nat) (n : Nat) (slips : List (Nat × Nat × LinkSlip)) : State :=
  ((fabricRoute a b).zipIdx).foldl (fun t e =>
    let x := t.sendWords (linkOf e.1) channel data n ((slips.filter (fun y => y.1 == e.2)).map Prod.snd)
    x.2.foldl (fun t h => t.hearWord r e.1.2 (linkOf e.1) channel h) x.1) s

end Sys2Proof.Machine
end

