-- ==== Sys2Proof/Machine/Operands.lean ====
section
/-! DEFINITION. Descriptors and their operands (06_descriptors.md): header, decode checks and faults (R174-R179, R219, R220), run-time lengths (R184, R241, R242), operand words and lines (R180-R182), loop words (R183), rings named by operands (R343, R349, R351), reads and writes of a descriptor, its completion record (R217). -/

namespace Sys2Proof.Machine

open Sys2Proof

/-- A descriptor at work: its hall, logical slot, wing, position in the program and 512 bits. -/
structure Ctx where
  hall : Nat
  slot : Nat
  wing : Nat
  pos  : Nat
  desc : Nat
deriving DecidableEq, Repr

/-- A fault of a descriptor: code and the fields its record's detail adds (R179). -/
structure DFault where
  code   : Nat
  detail : List Byte
deriving DecidableEq, Repr

namespace Ctx

/-- Header fields (R175). -/
def op (c : Ctx) : Nat := bits c.desc 7 0
def version (c : Ctx) : Nat := bits c.desc 15 8
def account (c : Ctx) : Nat := bits c.desc 31 16
def tag (c : Ctx) : Nat := bits c.desc 47 32
def complete (c : Ctx) : Bool := bitOf c.desc 48
def group (c : Ctx) : Bool := bitOf c.desc 49
def claimUse (c : Ctx) : Nat := bits c.desc 52 50
/-- A field [hi:lo] of the descriptor. -/
def fld (c : Ctx) (hi lo : Nat) : Nat := bits c.desc hi lo

end Ctx

/-! ### Which descriptor runs -/

/-- The slot has no core, or its core stands still (R171). -/
def State.slotStopped (s : State) (hall slot : Nat) : Bool := match s.coreOf hall slot with
  | some c => (s.core hall c).stopped
  | none => true

/-- The descriptor a slot's sequencer decodes next: the slot runs a program, is not held, its core and hall are not stopped (R171, R174, R233). -/
def State.ready (s : State) (hall slot : Nat) : Option Ctx :=
  let q := s.seq hall slot
  if q.status = .running ∧ q.hold = .none ∧ s.slotStopped hall slot = false ∧ s.cur.hallsStopped = false then
    (q.program[q.pos]?).map (fun d => ⟨hall, slot, q.wing, q.pos, d⟩)
  else none

/-- The descriptor at which a held sequencer stands. -/
def State.held (s : State) (hall slot : Nat) (h : Hold) : Option Ctx :=
  let q := s.seq hall slot
  if q.status = .running ∧ q.hold = h ∧ s.slotStopped hall slot = false ∧ s.cur.hallsStopped = false then
    (q.program[q.pos]?).map (fun d => ⟨hall, slot, q.wing, q.pos, d⟩)
  else none

/-- The slot's core does nothing further in the beat: its hall's clock is stopped (R550, R551, R571), a check named it, or a descriptor faulted (R156, R178). -/
def State.halted (s : State) (hall slot : Nat) : Bool :=
  s.cur.hallsStopped || (s.seq hall slot).status == .stopped || (match s.coreOf hall slot with
    | some c => (s.core hall c).stopped
    | none => false)

/-- A range of device memory. -/
abbrev Ext := Nat × Nat

/-- No fault of the descriptor, but a table or record that says where its data lies holds an uncorrectable word that this attempt meets first (R394): the detail lists the ranges read. -/
abbrev fUnreadable : Nat := 0

def extBytes (xs : List Ext) : List Byte := xs.flatMap (fun x => leBytes 8 x.1 ++ leBytes 8 x.2)
def extOf (b : List Byte) : List Ext := (List.range (b.length / 16)).map (fun i => (leAt b (16 * i) 8, leAt b (16 * i + 8) 8))

/-- What the read that a fault reports does to the machine: the counters of R397 and LAST_UNCORRECTABLE (R395); the reads of an unreadable word (R394). -/
def State.faultReads (s : State) (d : DFault) : State :=
  let a := leNat (d.detail.take 8)
  if d.code = 0x3618 then s.count (0xC1E0 + sramHall a) 3 1
  else if d.code = 0x3617 then s.sourceAgain (a / 8)
  else if d.code = fUnreadable then (extOf d.detail).foldl (fun t x => t.touch .beat x.1 x.2) s
  else s

/-- A descriptor faults (R178, R179): the core issues nothing further in the beat, the beat's check fails, and an F3 record names TAG, opcode, hall, slot and the fields of the fault. At an unreadable word it stops in the same way with no F3 record (R394). -/
def State.descFault (s : State) (c : Ctx) (d : DFault) : State :=
  let s := s.faultReads d
  let t := s.stopIssue c.hall c.slot
  if d.code = fUnreadable then t else
  let t := t.failCheck (.fault c.wing d.code)
  t.raise d.code unitCore (coreId c.hall ((s.coreOf c.hall c.slot).getD 63)) (some c.wing)
    (leBytes 2 c.tag ++ leBytes 1 c.op ++ leBytes 1 c.hall ++ leBytes 1 c.slot ++ d.detail)

/-- The sequencer goes on after the descriptor: to the next one, or from the end of a claim body back to its CLAIM (R208). -/
def State.advance (s : State) (c : Ctx) : State :=
  let q := s.seq c.hall c.slot
  let p := match q.loop with
    | some (start, last) => if c.pos = last then start else c.pos + 1
    | none => c.pos + 1
  s.setSeq c.hall c.slot { q with pos := p, hold := .none, waits := [], iter := 0, taken := none }

/-- Hold the sequencer at the descriptor. -/
def State.holdSeq (s : State) (c : Ctx) (h : Hold) : State :=
  let q := s.seq c.hall c.slot
  s.setSeq c.hall c.slot { q with hold := h }

/-- Hold the sequencer at the descriptor for rings it waits on (R362). -/
def State.holdRings (s : State) (c : Ctx) (h : Hold) (rings : List Nat) : State :=
  let q := s.seq c.hall c.slot
  s.setSeq c.hall c.slot { q with hold := h, waits := rings }

/-- Counts that a completion record reports (R217). -/
structure Tally where
  trunc   : Nat := 0
  sat     : Nat := 0
  special : Nat := 0
deriving DecidableEq, Repr

def Tally.add (a b : Tally) : Tally := ⟨a.trunc + b.trunc, a.sat + b.sat, a.special + b.special⟩

/-- Open a completion record of the descriptor; it is written at the committing seal when COMPLETE is set (R217, R218). Answers its number. -/
def State.openRec (s : State) (c : Ctx) (status length d0 d1 : Nat) : Nat × State :=
  let q := s.seq c.hall c.slot
  let r : CRec := { id := q.nextRec, pos := c.pos, desc := c.desc, status := status, length := length, trunc := 0, sat := 0,
                    special := 0, detail0 := d0, detail1 := d1 }
  (q.nextRec, s.setSeq c.hall c.slot { q with records := q.records ++ [r], nextRec := q.nextRec + 1 })

/-- Change a record of a slot. -/
def State.updRec (s : State) (hall slot id : Nat) (f : CRec → CRec) : State :=
  let q := s.seq hall slot
  s.setSeq hall slot { q with records := updFirst (fun r => r.id == id) f q.records }

/-- The counters of R140, of the slot's core, due at the seal (R141). -/
def State.tally (s : State) (hall slot : Nat) (t : Tally) : State :=
  let c := (s.coreOf hall slot).getD 63
  let w := (s.seq hall slot).wing
  ((s.countDue w (0xC100 + hall) (c + 1) t.trunc).countDue w (0xC110 + hall) (c + 1) t.sat).countDue w (0xC120 + hall) (c + 1) t.special

/-- Add a tally to a record; MATMUL and CHAIN report blocks truncated and elements saturated (R217). -/
def CRec.tally (r : CRec) (t : Tally) : CRec :=
  { r with trunc := r.trunc + t.trunc, sat := r.sat + t.sat, special := r.special + t.special }

/-- A no-op descriptor (R184, R242): it writes nothing and its record reports STATUS 1. -/
def State.noop (s : State) (c : Ctx) : State :=
  ((s.openRec c 1 0 0 0).2.countDue c.wing (0xC190 + c.hall) 3 1).advance c

/-! ### Decode checks -/

/-- The first check that fails. -/
def firstFault (l : List (Bool × DFault)) : Option DFault := (l.find? (fun e => e.1)).map Prod.snd

/-- A fault without further fields. -/
def flt (code : Nat) : DFault := ⟨code, []⟩

abbrev fBadOpcode : Nat := 0x3601
abbrev fBadVersion : Nat := 0x3602
abbrev fReserved : Nat := 0x3603
abbrev fBadField : Nat := 0x3604
abbrev fAddress : Nat := 0x3605
abbrev fPlan : Nat := 0x3606
abbrev fShape : Nat := 0x3607
abbrev fChainCode : Nat := 0x3608
abbrev fNoAdapter : Nat := 0x3609
abbrev fNarrowKey : Nat := 0x360A
abbrev fBadRing : Nat := 0x360B
abbrev fRingGeometry : Nat := 0x360C
abbrev fStreamStall : Nat := 0x360D
abbrev fLoanCeiling : Nat := 0x360E
abbrev fLoanUnderflow : Nat := 0x360F
abbrev fFreeList : Nat := 0x3610
abbrev fBadGroup : Nat := 0x3611
abbrev fCollTimeout : Nat := 0x3612
abbrev fFingerprint : Nat := 0x3613
abbrev fCourierSize : Nat := 0x3614
abbrev fSealCount : Nat := 0x3615
abbrev fBadPeer : Nat := 0x3616
abbrev fSource : Nat := 0x3617
abbrev fUnwritten : Nat := 0x3618
abbrev fBadBody : Nat := 0x3619
abbrev fBadManifest : Nat := 0x3702
abbrev fBadFolio : Nat := 0x3A03
abbrev fBadDirectory : Nat := 0x3A04

/-- The lowest nonzero bit of the reserved ranges of a descriptor (R177, R219). -/
def reservedBit (desc : Nat) (ranges : List (Nat × Nat)) : Option Nat :=
  (List.range 512).find? (fun i => bitOf desc i && ranges.any (fun r => decide (r.1 ≤ i) && decide (i ≤ r.2)))

/-- The checks every descriptor has (R175-R177, R220): version, one version in the program, reserved bits, fields that version 2 lacks, GROUP and CLAIM_USE where the opcode has none. `res` are the reserved ranges (low, high), `v2` the fields of version 3. -/
def State.headerFault (s : State) (c : Ctx) (res v2 : List (Nat × Nat)) (groupOk claimOk : Bool) : Option DFault :=
  let first := ((s.seq c.hall c.slot).program[0]?).getD 0
  firstFault [
    (c.version != 2 && c.version != 3, flt fBadVersion),
    (bits first 15 8 != c.version, flt fBadVersion),
    ((reservedBit c.desc ((53, 63) :: res)).isSome, ⟨fReserved, leBytes 2 ((reservedBit c.desc ((53, 63) :: res)).getD 0)⟩),
    (c.version == 2 && (reservedBit c.desc ((50, 52) :: v2)).isSome, flt fBadVersion),
    (c.group && !groupOk, flt fBadField),
    (c.claimUse != 0 && !claimOk, flt fBadField),
    (decide (4 < c.claimUse), flt fBadField)]

/-! ### Run-time lengths -/

/-- The run-time length a reference gives (R184): 0xFF is the plan, an entry beyond the row BAD_MANIFEST, a length beyond the plan SHAPE_BEYOND_PLAN. -/
def State.refLen (s : State) (c : Ctx) (ref plan : Nat) : Except DFault Nat :=
  if ref = 0xFF then .ok plan
  else match (s.wing c.wing).job with
    | none => .error (flt fBadManifest)
    | some j => match j.lengths[ref]? with
      | none => .error ⟨fBadManifest, leBytes 4 (s.obj (0x3100 + c.wing) 2) ++ leBytes 1 ref⟩
      | some n => if plan < n then .error ⟨fShape, leBytes 1 ref ++ leBytes 4 plan ++ leBytes 4 n⟩ else .ok n

/-- What the references of a descriptor give together (R242). -/
inductive Lens where
  | bad (f : DFault)
  | noop
  | ok (lens : List Nat)
deriving DecidableEq, Repr

/-- Resolve references with their plans: a length beyond its plan faults even when another is 0, and any length of 0 makes a no-op (R242). -/
def State.lens (s : State) (c : Ctx) (rs : List (Nat × Nat)) : Lens :=
  let xs := rs.map (fun r => s.refLen c r.1 r.2)
  match xs.find? (fun x => match x with | .error _ => true | .ok _ => false) with
  | some (.error f) => .bad f
  | _ =>
    let ns := xs.map (fun x => match x with | .ok n => n | .error _ => 0)
    if ns.contains 0 then .noop else .ok ns

/-- A planned bound of 0 or beyond its limit (R184). -/
def planBad (plan limit : Nat) : Bool := plan == 0 || decide (limit < plan)

/-! ### Loop words (R183) -/

/-- One loop word: count and three strides in 64-byte units. -/
structure Loop where
  count : Nat
  s0    : Nat
  s1    : Nat
  s2    : Nat
deriving DecidableEq, Repr

def Loop.of (w : Nat) : Loop := ⟨bits w 7 0 + 1, bits w 25 8, bits w 43 26, bits w 61 44⟩

/-- The loops of a descriptor. -/
def Ctx.loops (c : Ctx) : List Loop := [Loop.of (c.fld 383 320), Loop.of (c.fld 447 384), Loop.of (c.fld 511 448)]

/-- The reserved bits of the loop words. -/
def loopReserved : List (Nat × Nat) := [(382, 383), (446, 447), (510, 511)]

/-- One iteration: the advances of the three strided operands, in stride units. -/
abbrev Iter := Nat × Nat × Nat

/-- The iterations, i0 fastest, over LOOP2 indices lo..hi-1 (R183, R209). -/
def iterations (ls : List Loop) (lo hi : Nat) : List Iter :=
  match ls with
  | [a, b, d] =>
    ((List.range (hi - lo)).map (· + lo)).flatMap (fun i2 => (List.range b.count).flatMap (fun i1 => (List.range a.count).map (fun i0 =>
      (i0 * a.s0 + i1 * b.s0 + i2 * d.s0, i0 * a.s1 + i1 * b.s1 + i2 * d.s1, i0 * a.s2 + i1 * b.s2 + i2 * d.s2))))
  | _ => []

/-- Every iteration of the descriptor. -/
def Ctx.allIters (c : Ctx) : List Iter := iterations c.loops 0 (Loop.of (c.fld 511 448)).count

/-- The iterations a descriptor runs: all, or those of its claim (R209): v to min(v + STEP, count) - 1 of LOOP2. `step` is the STEP of the claim loop. -/
def State.iters (s : State) (c : Ctx) : List Iter :=
  if c.claimUse = 0 then c.allIters
  else
    let q := s.seq c.hall c.slot
    let v := (q.cregs[c.claimUse - 1]?).getD 0
    let step := match q.loop with
      | some (start, _) => bits ((q.program[start]?).getD 0) 95 80
      | none => 1
    let count := (Loop.of (c.fld 511 448)).count
    iterations c.loops v (max v (min (v + step) count))

/-! ### Operand words and lines -/

/-- An operand word (R180). -/
structure Opnd where
  off    : Nat
  inHall : Bool
  code   : Nat
  scaled : Bool
deriving DecidableEq, Repr

def Opnd.of (w : Nat) : Opnd := ⟨bits w 23 0, bitOf w 24, bits w 28 25, bitOf w 29⟩

/-- The word names no operand (R181). -/
def opAbsent (w : Nat) : Bool := bits w 24 0 == 0x1FFFFFF

/-- The reserved bits of an operand word at bit lo of the descriptor. -/
def opReserved (lo : Nat) : Nat × Nat := (lo + 30, lo + 31)

/-- Bytes of the elements of a line (R106). -/
def elemBytes (f : Fmt) (n : Nat) : Nat := ceilDiv (n * f.width) 8

/-- Bytes of a line of n elements: elements and scales (R182). -/
def lineBytes (f : Fmt) (scaled : Bool) (n : Nat) : Nat := elemBytes f n + (if scaled then ceilDiv n 32 else 0)

/-- Bytes from the start of the first line to the end of the last. -/
def linesExtent (rows pitch line : Nat) : Nat := if rows = 0 then 0 else (rows - 1) * (64 * pitch) + line

/-- The format of an operand; BF16 stands where the decode checks have already refused. -/
def Opnd.fmt (o : Opnd) : Fmt := (Fmt.ofCode o.code).getD .bf16

/-- SCALED is 0 for the wide formats (R182). -/
def scaleOk (o : Opnd) : Bool := match Fmt.ofCode o.code with
  | some f => !o.scaled || f.native
  | none => false

/-- The base address of an operand's space: the hall store, the slot's buffer, or rank 0's for a group-wide A (R181). -/
def State.space (s : State) (c : Ctx) (o : Opnd) (slot : Nat) : Nat :=
  if o.inHall then hallAddr c.hall else s.slotAddr c.hall slot

/-- The range of an operand is out of its space (R181, R613). -/
def State.opRange (s : State) (c : Ctx) (o : Opnd) (extent : Nat) : Bool :=
  o.off % 64 != 0 ||
    (if o.inHall then decide (hallSize < o.off + extent) || !s.inShare c.wing o.off extent else decide (coreSize < o.off + extent))

/-- The codes of a line's elements (R106). -/
def lineCodes (f : Fmt) (bs : List Byte) (n : Nat) : List Nat :=
  (List.range n).map (fun i =>
    if f.width = 4 then (((bs[i / 2]?).getD 0).toNat >>> (4 * (i % 2))) % 16
    else leAt bs (i * (f.width / 8)) (f.width / 8))

/-- The scales of a line of n elements (R182); 0x7F where it carries none (R116). -/
def lineScales (f : Fmt) (scaled : Bool) (bs : List Byte) (n : Nat) : List Nat :=
  (List.range (ceilDiv n 32)).map (fun b => if scaled then ((bs[elemBytes f n + b]?).getD 0).toNat else 0x7F)

/-- Elements first to first + n - 1 of a line of `len`, with their scales: the ranges of a line that hold no padded position (R182, R238). -/
def partExt (f : Fmt) (scaled : Bool) (line len first n : Nat) : List (Nat × Nat) :=
  [(line + elemBytes f first, elemBytes f (first + n) - elemBytes f first)] ++
    (if scaled then [(line + elemBytes f len + first / 32, ceilDiv (first + n) 32 - first / 32)] else [])

/-- The exact values of a line. -/
def lineVals (f : Fmt) (scaled : Bool) (bs : List Byte) (n : Nat) : List Val :=
  let sc := lineScales f scaled bs n
  ((lineCodes f bs n).zipIdx).map (fun e =>
    let v := decodeElem f e.1
    if scaled then Machine.scaled v ((sc[e.2 / 32]?).getD 0x7F) else v)

/-- Element codes as bytes (R106). -/
def packCodes (f : Fmt) (cs : List Nat) : List Byte :=
  if f.width = 4 then (chunksOf 2 cs).map (fun p => BitVec.ofNat 8 ((p[0]?).getD 0 + 16 * (p[1]?).getD 0))
  else cs.flatMap (leBytes (f.width / 8))

/-- A line of values in a storage format (R133, R134): its bytes, saturations and blocks written with scale 0xFF. -/
structure Line where
  bytes   : List Byte
  sats    : Nat
  special : Nat
deriving DecidableEq, Repr

def encodeLine (f : Fmt) (scaled : Bool) (vs : List Val) : Line :=
  if scaled then
    let qs := (chunksOf 32 vs).map (quantBlock f)
    { bytes := packCodes f (qs.flatMap QBlock.codes) ++ qs.map (fun q => BitVec.ofNat 8 q.scale)
      sats := qs.foldl (fun a q => a + q.sats) 0, special := (qs.filter QBlock.special).length }
  else
    let cs := vs.map (convert f false)
    { bytes := packCodes f (cs.map Conv.code), sats := (cs.filter Conv.sat).length, special := 0 }

/-! ### Rings that operands name or overlap (R343, R349) -/

/-- Bytes of a ring's region (R207). -/
def Ring.size (r : Ring) : Nat := r.slots.length * r.slotSize

/-- Whether a ring lies in the space of an operand: the hall store, or the buffer of the slot that opened it (R342, R343). -/
def Ring.inSpace (r : Ring) (inHall : Bool) (slot : Nat) : Bool := r.isOpen && r.inHall == inHall && (inHall || r.owner == slot)

/-- Ids of the rings of a hall whose region a range of a space overlaps. -/
def State.ringsOver (s : State) (hall : Nat) (inHall : Bool) (slot off n : Nat) : List Nat :=
  (List.range 255).filter (fun id => let r := s.ring hall id
    r.inSpace inHall slot && decide (off < r.base + r.size) && decide (r.base < off + n))

/-- The ring whose BASE an operand starts at. -/
def State.ringAt (s : State) (hall : Nat) (inHall : Bool) (slot off : Nat) : Option Nat :=
  (List.range 255).find? (fun id => let r := s.ring hall id
    r.inSpace inHall slot && r.base == off)

/-- An operand that no rule makes a consumer overlaps a ring (R343). -/
def State.opOverRing (s : State) (c : Ctx) (o : Opnd) (slot extent : Nat) : Bool :=
  !(s.ringsOver c.hall o.inHall slot o.off extent).isEmpty

/-- Space and offset of a resolved device address in a hall, for rings: hall store or slot buffer. -/
def State.ringSpace (a n : Nat) : Option (Nat × Bool × Nat × Nat) := match regionOf a n with
  | .hall h => some (h, true, 0, (a - hallBase) % hallSize)
  | .slot h sl => some (h, false, sl, (a - slotBase) % coreSize)
  | _ => none

/-- The rings whose region a device address range overlaps, by hall and id (R343). -/
def State.addrRings (s : State) (a n : Nat) : List (Nat × Nat) :=
  (regionParts a n).flatMap (fun x => match State.ringSpace x.1 x.2 with
    | some (h, inHall, sl, off) => (s.ringsOver h inHall sl off x.2).map (fun id => (h, id))
    | none => [])

/-- A device address range overlaps a ring's region (R343). -/
def State.addrOverRing (s : State) (a n : Nat) : Bool := !(s.addrRings a n).isEmpty

/-- The ring whose BASE a device address is. -/
def State.ringAtAddr (s : State) (a : Nat) : Option (Nat × Nat) := match State.ringSpace a 1 with
  | some (h, inHall, sl, off) => (s.ringAt h inHall sl off).map (fun id => (h, id))
  | none => none

/-- The stage group of a slot, by its leader. -/
def State.groupKey (s : State) (c : Ctx) : Nat := slotKey c.hall (s.seq c.hall c.slot).leader

/-- A consumer of a ring is not allowed: another stage group consumes it in this beat, the ring is closing, or another wing opened it (R349, R346, R614). -/
def State.consumerBad (s : State) (c : Ctx) (ring : Nat) : Bool :=
  let r := s.ring c.hall ring
  !r.isOpen || r.closing || r.wing != c.wing || (match r.consumer with
    | some k => k != s.groupKey c
    | none => false)

/-- The address of a ring's slot. -/
def State.ringSlotAddr (s : State) (hall : Nat) (r : Ring) (slot : Nat) : Nat :=
  (if r.inHall then hallAddr hall else s.slotAddr hall r.owner) + r.base + slot * r.slotSize

/-- The order key of a descriptor among those of its package and beat (R205, R325). -/
def Ctx.orderKey (c : Ctx) : Nat := (c.hall * 64 + c.slot) * 65536 + c.pos

/-- Note the descriptor that first takes or empties a slot in the beat (R359). -/
def RSlot.by (x : RSlot) (key : Nat) : RSlot := { x with emptier := x.emptier.or (some key) }

/-- Empty a slot; what another package sent stays noted until the seal (R346, R357, R360). -/
def RSlot.drop (x : RSlot) (key : Nat) : RSlot := { x.by key with st := 0, folios := [] }

/-- Take the head slot of a ring (R347, R350): it becomes draining and the head advances. -/
def Ring.take (r : Ring) (consumer key : Nat) : Ring :=
  { r with slots := (r.slots.zipIdx).map (fun e => if e.2 = r.head then { e.1.by key with st := 3 } else e.1)
           head := (r.head + 1) % r.slots.length, consumer := some consumer, touched := true, moved := true }

/-- The head slot is full. -/
def Ring.headFull (r : Ring) : Bool := match r.slots[r.head]? with
  | some x => x.st == 2
  | none => false

/-! ### Reads and writes of a descriptor -/

/-- The ranges of a list up to the first that holds an uncorrectable word. -/
def State.uptoBad (s : State) (xs : List Ext) : List Ext :=
  match xs.findIdx? (fun x => (s.mem.firstBad x.1 x.2).isSome) with
  | some i => xs.take (i + 1)
  | none => xs

/-- What stops a descriptor that reads data (R178): an SRAM word never written (R389), a word that a replay meets uncorrectable again (R395). Another uncorrectable word is delivered as it was read (R393). -/
def State.dataFault (s : State) (xs : List Ext) : Option DFault :=
  match xs.findSome? (fun x => s.mem.firstUnwritten x.1 x.2) with
  | some w => some ⟨fUnwritten, leBytes 8 (8 * w)⟩
  | none => (xs.findSome? (fun x => s.sourceBad x.1 x.2)).map (fun w => ⟨fSource, leBytes 8 (8 * w)⟩)

/-- What stops a descriptor that reads a table, a directory, a side record or a header, which say where its data lies: also an uncorrectable word met first (R394, log entry 171). -/
def State.readFault (s : State) (xs : List Ext) : Option DFault :=
  match s.dataFault xs with
  | some d => some d
  | none => if xs.any (fun x => (s.mem.firstBad x.1 x.2).isSome) then some ⟨fUnreadable, extBytes (s.uptoBad xs)⟩ else none

/-- Energy events of a descriptor (R527, R545): kind 0 product slots computed at the 8-bit rate, 1 at 4 bits, 2 gated, 3 SRAM lines, 4 vector results, 5 HBM sectors, 6 flits; counted for the hall's window and for the descriptor's account. -/
def State.energyEvent (s : State) (hall wing account kind n : Nat) : State := s.powerOwned hall kind n (tagOwner wing account)

/-- Sectors of HBM that no descriptor reads or writes: for a wing they go to its tag 0xFFFF (R544). -/
def State.plainSectors (s : State) (wing : Option Nat) (a n : Nat) : State := match wing with
  | some w => s.energyEvent (stackOf a) w 0xFFFF 5 (sectorsOf a n).length
  | none => s.powerCount (stackOf a) 5 (sectorsOf a n).length

/-- The descriptor as a fault names it. -/
def Ctx.writer (c : Ctx) : Writer := ⟨c.hall, c.slot, c.wing, c.tag, c.op⟩

/-- HBM requests of a requester of the hall, of at most 4,096 bytes each (R365, R366); they move no data in this model (log entry 21). -/
def State.request (s : State) (hall index : Nat) (write : Bool) (xs : List Ext) : State :=
  let rs := (xs.filter (fun x => isHbm x.1)).flatMap (fun x =>
    (List.range (ceilDiv x.2 4096)).map (fun i => (⟨hall, index, x.1 + 4096 * i, min 4096 (x.2 - 4096 * i), write⟩ : HbmReq)))
  if rs = [] then s else { s with mem := { s.mem with waiting := s.mem.waiting ++ rs } }

/-- A descriptor reads ranges: effects of the reads, their requests and their energy. -/
def State.readAll (s : State) (c : Ctx) (xs : List Ext) : State :=
  ((xs.foldl (fun t x => t.touch .beat x.1 x.2) s).request c.hall c.slot false xs).accessed c.hall (tagOwner c.wing c.account) xs

/-- A descriptor writes bytes at device addresses. -/
def State.writeAll (s : State) (c : Ctx) (ws : List (Nat × List Byte)) : State :=
  let xs := ws.map (fun w => (w.1, w.2.length))
  ((ws.foldl (fun t w => t.beatWrite (some c.writer) w.1 w.2) s).request c.hall c.slot true xs).accessed c.hall (tagOwner c.wing c.account) xs

/-- Line addresses of an operand. -/
def lineAddrs (base rows pitch : Nat) : List Nat := (List.range rows).map (fun i => base + i * (64 * pitch))

end Sys2Proof.Machine
end

