-- ==== Sys2Proof/Machine/Flags.lean ====
section
/-! DEFINITION. Flags and verdicts: the completion record with its TRUNCATED, SATURATED, SPECIAL and REPLAYED bits (R217), check weights and comparisons of the check column (R151-R155), tallies of result lines, and the dependency hold (R148). -/

namespace Sys2Proof.Machine

open Sys2Proof

/-! ### Completion records (R217) -/

/-- The 32 bytes of a completion record. -/
def CRec.bytes (r : CRec) (hall slot beat : Nat) (replayed : Bool) : List Byte :=
  leBytes 2 (bits r.desc 47 32) ++ leBytes 1 (bits r.desc 7 0) ++ leBytes 1 r.status ++ leBytes 1 slot ++ leBytes 1 hall ++
    leBytes 6 beat ++ leBytes 2 (bits r.desc 31 16) ++
    leBytes 2 (b2n (decide (0 < r.trunc)) + 2 * b2n (decide (0 < r.sat)) + 4 * b2n (decide (0 < r.special)) + 8 * b2n replayed) ++
    leBytes 4 r.length ++
    (if bits r.desc 7 0 = 1 ∨ bits r.desc 7 0 = 2 then leBytes 4 r.trunc ++ leBytes 4 r.sat
     else leBytes 4 r.detail0 ++ leBytes 4 r.detail1) ++ leBytes 4 0

/-- The saturations and special blocks of written lines (R140). -/
def linesTally (ls : List Line) : Tally := ls.foldl (fun t l => t.add ⟨0, l.sats, l.special⟩) {}

/-- A descriptor done: its record, with tally, counters due at the seal, and on to the next descriptor. -/
def State.done (s : State) (c : Ctx) (length d0 d1 : Nat) (t : Tally) : State :=
  let r := s.openRec c 0 length d0 d1
  ((r.2.updRec c.hall c.slot r.1 (fun x => x.tally t)).tally c.hall c.slot t).advance c

/-! ### The check column (R151-R155) -/

/-- The check modulus 2^26 - 1 (R152). -/
abbrev checkMod : Nat := 67108863

/-- An exact value needs at most 26 bits: its odd part is below 2^26 (R152). -/
def fits26 : Val → Bool
  | .fin _ m _ => m == 0 || decide (m / 2 ^ ((List.range 512).find? (fun k => m / 2 ^ k % 2 == 1)).getD 0 < 2 ^ 26)
  | _ => false

/-- c_k: the exact sum of a K row's elements, special ones left out (R151). -/
def checkWeight (vs : List Val) : Val := (vs.filter (fun v => !v.isSpecial)).foldl Val.add (.zero false)

/-- Whether a K row of elements is exact in the check cells: every pass's piece sums (R152). -/
def rowFull (f : Fmt) (vs : List Val) : Bool :=
  (List.range (pieceCount f)).all (fun p => fits26 (checkWeight (vs.map (fun v => match v with
    | .fin n m e => match (pieces f m e)[p]? with
      | some q => .fin n q.1 q.2
      | none => .zero false
    | v => v))))

/-- The residue of an exact value times 2^k, modulo 2^26 - 1 (R152, R154). -/
def residueOf (k : Int) : Val → Nat
  | .fin n m e =>
    let x : Int := Val.sgnInt n m * (if 0 ≤ e + k then (2 : Int) ^ (e + k).toNat else 1)
    let y : Int := if 0 ≤ e + k then x else x / (2 : Int) ^ (-(e + k)).toNat
    (y % (checkMod : Int)).toNat
  | _ => 0

/-- Values with every odd row negated: what the check column multiplies in a pass that inverts the products at odd rows (R131). -/
def negateOdd (cs : List Val) : List Val := (cs.zipIdx).map (fun c => if c.2 % 2 = 1 then c.1.neg else c.1)

/-- The check column's block sum: the exact sum of a_k × c_k (R153). -/
def checkSum (av : List Val) (cs : List Val) : Val :=
  (av.zip cs).foldl (fun acc p => acc.add (p.1.mul p.2)) (.zero false)

/-- What one comparison of an array does (R155). -/
structure Compared where
  ok         : Bool
  uncompared : Bool
  residue    : Bool
deriving DecidableEq, Repr

/-- Compare the 64 column block sums with the check column (R153-R155): counts for a special block, none where bits were dropped, exact or by residue. -/
def compareBlock (cols : List BlockSum) (check : Val) (expect : Option Nat) (full : Bool) : Compared :=
  match expect with
  | some n => ⟨decide ((cols.filter (fun b => b.val.isSpecial)).length = n), false, false⟩
  | none =>
    if cols.any BlockSum.dropped then ⟨true, true, false⟩
    else
      let sum := cols.foldl (fun a b => a.add b.val) (.zero false)
      if full then ⟨sum.eqv check, false, false⟩
      else ⟨decide (residueOf 320 sum = residueOf 320 check), false, true⟩

/-! ### Rings as sources (R343, R349, R351) -/

/-- What a source operand names: no ring, or the ring whose BASE it starts at; nothing when it overlaps a ring otherwise (R343). -/
def State.srcRing (s : State) (c : Ctx) (inHall : Bool) (slot off extent : Nat) : Option (Option Nat) :=
  match s.ringAt c.hall inHall slot off with
  | some id => if (s.ringsOver c.hall inHall slot off extent).all (· == id) then some (some id) else none
  | none => if (s.ringsOver c.hall inHall slot off extent).isEmpty then some none else none

/-- The rings a descriptor consumes cannot be consumed by it (R349): the check of each source. -/
def State.ringFault (s : State) (c : Ctx) (r : Option (Option Nat)) : Bool := match r with
  | none => true
  | some none => false
  | some (some id) => s.consumerBad c id

/-- The descriptor's stage group is the consumer of its rings in the beat (R349); the sequencer waits for their head slots (R350). -/
def State.awaitSlots (s : State) (c : Ctx) (rings : List Nat) : State :=
  let t := rings.foldl (fun t id => t.setRing c.hall id { t.ring c.hall id with consumer := some (s.groupKey c) }) s
  t.holdRings c .ringSlot rings.eraseDups

/-- Take the head slots of rings (R350); the addresses taken. Nothing is taken unless every head slot is full. -/
def State.takeSlots (s : State) (c : Ctx) (rings : List Nat) : Option (State × List (Nat × Nat)) :=
  let ids := rings.eraseDups
  if ids.all (fun id => (s.ring c.hall id).headFull) then
    some (ids.foldl (fun t id => t.setRing c.hall id ((t.ring c.hall id).take (s.groupKey c) c.orderKey)) s,
      ids.map (fun id => (id, s.ringSlotAddr c.hall (s.ring c.hall id) (s.ring c.hall id).head)))
  else none

/-- The address taken for a ring. -/
def takenAddr (l : List (Nat × Nat)) (id : Nat) : Nat := ((l.find? (fun e => e.1 == id)).map Prod.snd).getD 0

/-! ### A core at fault (R156, R157, R163, R560) -/

/-- The curator chooses a reserve for a failed core (R560, R562): the spare-ready reserve, then the rotation reserve; neither may serve twice in one recovery. -/
def State.spareCore (s : State) (hall slot failed : Nat) : State :=
  let used := (s.cur.sparing.filter (fun x => x.hall == hall)).map Spare.reserve
  let free := [s.obj (0x2000 + hall) 41, s.obj (0x2000 + hall) 42].filter (fun c => c != 0xFF && !used.contains c && !s.cur.mapDue.contains (hall * 64 + c, false))
  { s with cur := { s.cur with sparing := s.cur.sparing ++ [⟨hall, slot, failed, free.headD 0xFF⟩] } }

/-- A check names a core: it stops issuing at once, the beat's check fails, the F2 record is written, and the curator spares it. -/
def State.coreFault (s : State) (hall slot code : Nat) (k : Check) (detail : List Byte) : State :=
  let core := (s.coreOf hall slot).getD 63
  let t := s.stopIssue hall slot
  let t := (t.setCore hall core { t.core hall core with stopped := true }).failCheck k
  (t.raise code unitCore (coreId hall core) none detail).spareCore hall slot core

/-- The lockstep sequencers of the core that runs a slot disagree (R163): counted, and handled as a failed core. What the detail holds of the command or the signatures is free. -/
def State.sequencersDiffer (s : State) (hall slot : Nat) : State :=
  match s.coreOf hall slot with
  | none => s
  | some c =>
    let r := s.random 16
    (r.2.count (0x5110 + hall) (c + 1) 1).coreFault hall slot 0x2502 .lockstep r.1

/-- What befalls the core at a descriptor of the slot's program (R157, R163). -/
def State.slipAt (s : State) (hall slot pos : Nat) : Option Slip := ((s.seq hall slot).slips.find? (fun x => x.1 == pos)).map Prod.snd

/-- A checker of R157 fires, or the sequencers disagree: both are handled as a failed core (R156). How DETAIL numbers the checkers is not said: its byte is free. -/
def State.slipFault (s : State) (hall slot : Nat) (k : Slip) : State := match k with
  | .lockstep => s.sequencersDiffer hall slot
  | k =>
    let r := s.random 1
    (r.2.count (0x5100 + hall) ((s.coreOf hall slot).getD 63 + 1) 1).coreFault hall slot 0x2503 (if k = .residue then .residue else .duplicate) r.1

/-- Slips that show when the descriptor issues: a lockstep difference on any, the vector unit's checkers on the descriptors that run in it (R161), the parity of weight rows where the descriptor is one step here. -/
def slipAtIssue (k : Slip) (op : Nat) : Bool := match k with
  | .lockstep => true
  | .weightRow => op == 0x03
  | _ => op == 0x03 || op == 0x04 || op == 0x05

/-- Issue a descriptor by f, unless its core fails at it (R86, R157). -/
def State.issue (s : State) (c : Ctx) (f : State → Ctx → State) : State :=
  match s.slipAt c.hall c.slot c.pos with
  | some k => if slipAtIssue k c.op then s.slipFault c.hall c.slot k else f s c
  | none => f s c

/-- Run f on the next descriptor of a slot when it is of the kind p; otherwise the event does not occur. -/
def State.onDesc (s : State) (hall slot : Nat) (p : Ctx → Bool) (f : State → Ctx → State) : State :=
  match s.ready hall slot with
  | some c => if p c then s.issue c f else s
  | none => s

/-! ### Dependency (R148) -/

/-- The formats and lines of D for a member's columns: in a core buffer its own M × 256 output, in the hall store the whole line (R187). -/
def dLineElems (desc : Nat) (inHall : Bool) (n : Nat) : Nat :=
  if bitOf desc 49 ∧ inHall = false then min n 256 else n

/-- N_PLAN, D_PITCH and output columns of a heavy descriptor; with G the chain halves its columns (R258). -/
def heavyN (desc : Nat) : Nat := if bits desc 7 0 = 1 then bits desc 239 224 else bits desc 223 208
def heavyDPitch (desc : Nat) : Nat := if bits desc 7 0 = 1 then bits desc 207 192 else bits desc 191 176

/-- Chain codes with G: the output has half the columns (R257, R258). -/
def gateCode (desc : Nat) : Bool := bits desc 7 0 == 2 && [0x10, 0x11, 0x16, 0x17, 0x26].contains (bits desc 253 248)

/-- Chain codes with T (R257). -/
def statCode (desc : Nat) : Bool :=
  bits desc 7 0 == 2 && [0x19, 0x1B, 0x1D, 0x1F, 0x21, 0x23, 0x27].contains (bits desc 253 248)

/-- A place that stands for the row-statistic registers of a slot among the places a descriptor writes or reads (R260). -/
def statPlace (hall slot : Nat) : Ext := (2 ^ 60 + slotKey hall slot, 1)

/-- The slot whose row-statistic registers an instruction's statistic goes to: rank 0 for a group-wide chain, else its own (R169). -/
def AInstr.statSlot (a : AInstr) : Nat := if bitOf a.desc 49 then a.members.headD 0 else (a.members[a.rank]?).getD 0

/-- What an array instruction's descriptor writes for its core: D, and the row statistics it accumulates into. -/
def AInstr.writes (hall : Nat) (a : AInstr) : List Ext :=
  let w := bits a.desc 159 128
  let o := Opnd.of w
  let n := if gateCode a.desc then heavyN a.desc / 2 else heavyN a.desc
  let d : List Ext := match opAbsent w, Fmt.ofCode o.code with
    | false, some f => [(a.dAddr, linesExtent a.m (heavyDPitch a.desc) (lineBytes f o.scaled (dLineElems a.desc o.inHall n)))]
    | _, _ => []
  d ++ (if statCode a.desc && !bitOf a.desc 254 then [statPlace hall a.statSlot] else [])

/-- Array instructions of the core that are not complete: queued, in rows on their way out, waiting for an adapter term. -/
def Engine.unfinished (e : Engine) : List AInstr := e.queue ++ e.rows.map OutRow.instr ++ e.waits.map WaitRow.instr

/-- A read overlaps what an earlier instruction of the stage group's programs still writes (R148, R260, R266). -/
def State.depends (s : State) (c : Ctx) (xs : List Ext) : Bool :=
  let ms := (s.seq c.hall c.slot).members
  let ms := if ms = [] then [c.slot] else ms
  ms.any (fun slot =>
    let e := s.engine c.hall slot
    (e.unfinished.flatMap (AInstr.writes c.hall)).any (fun d => xs.any (fun x => decide (x.1 < d.1 + d.2) && decide (d.1 < x.1 + x.2))) ||
      (!(e.partials ++ e.region).isEmpty && xs.contains (statPlace c.hall (ms.headD 0))))

/-- Hold a descriptor until the writes it depends on are complete (R148). -/
def State.holdDep (s : State) (c : Ctx) (xs : List Ext) : State :=
  let q := s.seq c.hall c.slot
  s.setSeq c.hall c.slot { q with hold := .dependency, waits := [], dep := xs }

/-- Arrays with no work left. -/
def Engine.empty (e : Engine) : Bool := e.queue == [] && e.rows == [] && e.waits == [] && e.peers == [] && e.partials == [] && e.region == []

end Sys2Proof.Machine
end

