-- ==== Sys2Proof/Machine/JobTables.lean ====
section
/-! DEFINITION. The tables a job names (R221-R228), as the scheduler and descriptors read them: segments, token ids, sequence table, adapter and layer tables; and what those reads do (R643). -/

namespace Sys2Proof.Machine

open Sys2Proof

/-- The bytes a read of HBM delivers. -/
def State.rd (s : State) (a n : Nat) : List Byte := s.mem.deliverRange a n

/-- A little-endian number in memory. -/
def State.rdNat (s : State) (a n : Nat) : Nat := leNat (s.rd a n)

/-- A segment-table entry (R225). -/
structure Seg where
  index   : Nat
  first   : Nat
  rows    : Nat
  seq     : Nat
  adapter : Nat
  pos     : Nat
  globals : Nat
  gcount  : Nat
  tokens  : Nat
deriving DecidableEq, Repr

def Seg.of (i w : Nat) : Seg :=
  { index := i, first := bits w 15 0, rows := bits w 31 16, seq := bits w 47 32, adapter := bits w 63 48, pos := bits w 95 64
    globals := bits w 143 96, gcount := bits w 150 144, tokens := bits w 207 160 }

/-- The segment-directory entry of a chunk: table address and count (R225). -/
def State.segDirEntry (s : State) (j : Job) (chunk : Nat) : Nat × Nat :=
  let w := s.rdNat (j.segDir + 8 * chunk) 8
  (bits w 47 0, bits w 59 48 + 1)

/-- The segments of the chunk in force (R225, R227). -/
def State.segs (s : State) (j : Job) : List Seg :=
  let e := s.segDirEntry j j.chunk
  (List.range e.2).map (fun i => Seg.of i (s.rdNat (e.1 + 32 * i) 32))

/-- What reading the chunk's segments touches. -/
def State.segReads (s : State) (j : Job) : List Ext :=
  let e := s.segDirEntry j j.chunk
  [(j.segDir + 8 * j.chunk, 8), (e.1, 32 * e.2)]

/-- The segment that covers a chunk row. -/
def segOfRow (l : List Seg) (row : Nat) : Option Seg := l.find? (fun g => decide (g.first ≤ row) && decide (row < g.first + g.rows))

/-- Rows that the segments of a chunk cover in order with no gap; none when they do not (R226). -/
def coveredRows (l : List Seg) : Option Nat :=
  l.foldl (fun a g => match a with
    | some n => if g.first = n ∧ 0 < g.rows then some (n + g.rows) else none
    | none => none) (some 0)

/-- A sequence-table entry: LENGTH, PREFIX, FOLIO_DIR (R224). -/
structure SeqEntry where
  length : Nat
  pre    : Nat
  dir    : Nat
deriving DecidableEq, Repr

def State.seqEntry (s : State) (j : Job) (i : Nat) : SeqEntry :=
  let w := s.rdNat (j.seqTable + 32 * i) 32
  { length := bits w 31 0, pre := bits w 63 32, dir := bits w 111 64 }

/-- The job of a descriptor's wing. -/
def State.jobOf (s : State) (c : Ctx) : Option Job := (s.wing c.wing).job

/-- Token id of a row by its segment (R200). -/
def State.token (s : State) (g : Seg) (row : Nat) : Nat := s.rdNat (g.tokens + 4 * (row - g.first)) 4

end Sys2Proof.Machine
end

