-- ==== Sys2Proof/Machine/Stream.lean ====
section
/-! DEFINITION. Stream rings (11_streams.md): opening, closing and cancelling (R344-R346, R360), fills and their landing (R347-R350), send-to-peer data and credits (R355), stalls (R362-R364). -/

namespace Sys2Proof.Machine

open Sys2Proof

/-! ### Fields -/

def Ctx.ringId (c : Ctx) : Nat := c.fld 71 64
def Ctx.soSlots (c : Ctx) : Nat := c.fld 79 72
def Ctx.soSource (c : Ctx) : Nat := c.fld 87 80
def Ctx.soPeer (c : Ctx) : Nat := c.fld 93 88
def Ctx.soBase (c : Ctx) : Opnd := Opnd.of (c.fld 127 96)
def Ctx.soSize (c : Ctx) : Nat := c.fld 159 128

/-- The sequencer decodes, or tries again after one of these holds. -/
def State.readyOr (s : State) (hall slot : Nat) (hs : List Hold) : Option Ctx :=
  (s.ready hall slot).or (hs.findSome? (s.held hall slot))

/-- The ids of the open rings of a hall. -/
def State.openRings (s : State) (hall : Nat) : List Nat := (List.range 255).filter (fun id => (s.ring hall id).isOpen)

/-- Contexts and slot entries that the hall's rings hold (R342). -/
def State.ringsHeld (s : State) (hall : Nat) : Nat × Nat :=
  ((s.openRings hall).length, (s.openRings hall).foldl (fun a id => a + (s.ring hall id).slots.length) 0)

/-! ### STREAM_OPEN -/

/-- Decode checks of STREAM_OPEN (R206, R207, R341, R342, R355, R613). -/
def State.openFault (s : State) (c : Ctx) : Option DFault :=
  let o := c.soBase
  let size := c.soSlots * c.soSize
  let space := if o.inHall then hallSize else coreSize
  (s.headerFault c [(94, 95), opReserved 96, (160, 511)] [] false false).or (firstFault [
    (c.ringId == 0xFF || decide (2 < c.soSource), flt fBadField),
    (c.soSource != 1 && c.soPeer != 0, flt fBadField),
    (opAbsent (c.fld 127 96) || o.code != 0 || o.scaled, flt fBadField),
    (decide (c.soSlots < 3) || decide (16 < c.soSlots), flt fRingGeometry),
    (c.soSize % 64 != 0 || decide (c.soSize < 64) || decide (1048576 < c.soSize), flt fRingGeometry),
    (o.off % 64 != 0 || decide (space < o.off + size), flt fRingGeometry),
    (o.inHall && !s.inShare c.wing o.off size, flt fAddress),
    (c.soSource != 0 && !o.inHall, flt fRingGeometry),
    (c.soSource == 1 && (c.soPeer == s.device || !s.present c.soPeer), flt fBadPeer),
    ((s.ring c.hall c.ringId).isOpen, flt fBadRing),
    (!(s.ringsOver c.hall o.inHall c.slot o.off size).isEmpty, flt fRingGeometry)])

/-- The context and entries are free together (R344). -/
def State.openRoom (s : State) (c : Ctx) : Bool :=
  let h := s.ringsHeld c.hall
  decide (h.1 < 64) && decide (h.2 + c.soSlots ≤ 512)

/-- An empty slot entry. -/
def emptySlot : RSlot := { st := 0, tag := 0, len := 0, sender := 0, beat := 0, landed := false, folios := [] }

/-- Take the context and entries: head and tail 0, every slot empty, G 0 (R340, R345). -/
def State.openRing (s : State) (c : Ctx) : State :=
  let o := c.soBase
  let r : Ring := { isOpen := true, wing := c.wing, inHall := o.inHall, owner := c.slot, base := o.off, slotSize := c.soSize
                    source := c.soSource, peer := c.soPeer, slots := List.replicate c.soSlots emptySlot, fresh := true, moved := true }
  (s.setRing c.hall c.ringId r).done c 0 0 0 {}

/-- The opens held in a hall whose resources are free together, and one that asks now. -/
def State.opensAsking (s : State) (hall slot : Nat) : List Nat :=
  (List.range 40).filter (fun j => j == slot || (match s.held hall j .openRing with
    | some c => s.openRoom c
    | none => false))

/-- An open is served before the others that ask in the cycle: R248 and R249 with N = 40 (R344). -/
def State.firstOpen (s : State) (hall slot : Nat) : Bool :=
  arbFirst s.beatNo 40 (fun j => mget 0 s.work.openLosses (slotKey hall j)) (s.opensAsking hall slot) slot

/-- The others that asked have lost the cycle (R249, R251). -/
def State.opensLose (s : State) (hall slot : Nat) : State :=
  let asking := s.opensAsking hall slot
  let starved := decide (64 ≤ mget 0 s.work.openLosses (slotKey hall slot))
  let t := { s with work := { s.work with openLosses := arbLost (slotKey hall 0) s.work.openLosses asking slot } }
  (t.count (0xC190 + hall) 6 (asking.length - 1)).count (0xC190 + hall) 7 (b2n starved)

/-- Decode a STREAM_OPEN: open at once, or hold until context and entries are free (R344). -/
def State.streamOpenDesc (s : State) (c : Ctx) : State :=
  match s.openFault c with
  | some d => s.descFault c d
  | none => if s.openRoom c && s.firstOpen c.hall c.slot then (s.opensLose c.hall c.slot).openRing c else s.holdRings c .openRing [c.ringId]

/-- STREAM_OPEN (R344). -/
def execStreamOpen (hall slot : Nat) (s : State) : Host.Outcome State Fault Refusal :=
  .next (keepCompute s (s.onDesc hall slot (fun c => c.op == 0x10) State.streamOpenDesc))

/-- STREAM_OPEN_GRANTED (R344): a held open, first among those that ask, takes its resources once they are free; the cycles it waited count. -/
def streamOpenGranted (hall slot waited : Nat) (s : State) : State :=
  match s.held hall slot .openRing with
  | none => s
  | some c =>
    if s.openRoom c && s.firstOpen hall slot then
      let t := (s.opensLose hall slot).count (0xC1C0 + hall) 5 waited
      match s.openFault c with
      | some d => t.descFault c d
      | none => t.openRing c
    else s

/-- Opens that are still held when their hold ends otherwise: each has waited a free number of cycles (R344, log entry 201). -/
def State.openWaits (s : State) (slots : List (Nat × Nat)) : State :=
  slots.foldl (fun t p => if (t.held p.1 p.2 .openRing).isSome then let d := t.draw; d.2.count (0xC1C0 + p.1) 5 d.1 else t) s

/-- STREAM_OPEN_GRANTED (R344). -/
def execStreamOpenGranted (hall slot waited : Nat) (s : State) : Host.Outcome State Fault Refusal :=
  .next (keepCompute s (streamOpenGranted hall slot waited s))

/-! ### STREAM_CLOSE and STREAM_CANCEL -/

/-- A device range lies in a ring's region. -/
def State.inRing (s : State) (hall : Nat) (r : Ring) (a : Nat) : Bool :=
  let b := (if r.inHall then hallAddr hall else s.slotAddr hall r.owner) + r.base
  decide (b ≤ a) && decide (a < b + r.size)

/-- A consumer is using a slot (R346): an array instruction that still reads from the region. -/
def State.slotInUse (s : State) (hall : Nat) (r : Ring) : Bool :=
  s.work.engines.any (fun e => e.1 / 64 == hall && e.2.unfinished.any (fun a =>
    s.inRing hall r a.aAddr || s.inRing hall r a.bAddr || s.inRing hall r a.auxAddr))

/-- Fills of a ring in flight. -/
def State.fillsOf (s : State) (hall ring : Nat) : List Fill := s.work.fills.filter (fun f => f.hall == hall && f.ring == ring)

/-- Decode checks of STREAM_CLOSE and STREAM_CANCEL (R206, R207, R614). -/
def State.closeFault (s : State) (c : Ctx) : Option DFault :=
  let r := s.ring c.hall c.ringId
  (s.headerFault c [(72, 511)] [] false false).or (firstFault [
    (c.ringId == 0xFF, flt fBadField),
    (!r.isOpen || r.closing || r.wing != c.wing, flt fBadRing)])

/-- The close must wait (R346). -/
def State.closeBusy (s : State) (c : Ctx) : Bool :=
  !(s.fillsOf c.hall c.ringId).isEmpty || s.slotInUse c.hall (s.ring c.hall c.ringId)

/-- Full slots of a ring. -/
def Ring.fullSlots (r : Ring) : Nat := (r.slots.filter (fun x => x.st == 2)).length

/-- The ring becomes usable by nothing; full slots are discarded; context and entries are released at the committing seal (R346). -/
def State.closeRing (s : State) (c : Ctx) : State :=
  let r := s.ring c.hall c.ringId
  let t := s.setRing c.hall c.ringId { r with closing := true, touched := true, moved := true
                                              slots := r.slots.map (fun x => if x.st = 2 then x.drop c.orderKey else x) }
  (t.count (0xC1C0 + c.hall) 4 r.fullSlots).done c 0 0 0 {}

/-- Decode a STREAM_CLOSE (R346). -/
def State.streamCloseDesc (s : State) (c : Ctx) : State :=
  match s.closeFault c with
  | some d => s.descFault c d
  | none => if s.closeBusy c then s.holdRings c .closeRing [c.ringId] else s.closeRing c

/-- STREAM_CLOSE (R346). -/
def execStreamClose (hall slot : Nat) (s : State) : Host.Outcome State Fault Refusal :=
  .next (keepCompute s (s.onDesc hall slot (fun c => c.op == 0x11) State.streamCloseDesc))

/-- STREAM_CLOSE_DONE (R346): the hold ends. -/
def execStreamCloseDone (hall slot : Nat) (s : State) : Host.Outcome State Fault Refusal :=
  .next (keepCompute s (match s.held hall slot .closeRing with
    | some c => if s.closeBusy c then s else s.closeRing c
    | none => s))

/-- The cancel must wait (R360): a slot in use, or a fill in flight with tag G + 1. -/
def State.cancelBusy (s : State) (c : Ctx) : Bool :=
  let r := s.ring c.hall c.ringId
  s.slotInUse c.hall r || (s.fillsOf c.hall c.ringId).any (fun f => f.tag == (r.gen + 1) % 256)

/-- The cancel's one cycle (R360). A SOURCE 1 ring returns one credit for each slot emptied (R355). -/
def State.cancelRing (s : State) (c : Ctx) : State :=
  let r := s.ring c.hall c.ringId
  let gone := (r.slots.filter (fun x => x.st == 1 || x.st == 2)).length
  let t := s.setRing c.hall c.ringId { r with
    slots := r.slots.map (fun x => if x.st = 1 ∨ x.st = 2 then x.drop c.orderKey else x)
    head := r.tail, gen := (r.gen + 1) % 256, touched := true, moved := true
    emptied := r.emptied + (if r.source = 1 then gone else 0) }
  (t.count (0xC1C0 + c.hall) 4 r.fullSlots).done c 0 0 0 {}

/-- Decode a STREAM_CANCEL (R360). -/
def State.streamCancelDesc (s : State) (c : Ctx) : State :=
  match s.closeFault c with
  | some d => s.descFault c d
  | none => if s.cancelBusy c then s.holdRings c .cancelRing [c.ringId] else s.cancelRing c

/-- STREAM_CANCEL (R360). -/
def execStreamCancel (hall slot : Nat) (s : State) : Host.Outcome State Fault Refusal :=
  .next (keepCompute s (s.onDesc hall slot (fun c => c.op == 0x12) State.streamCancelDesc))

/-- STREAM_CANCEL_DONE (R360): the hold ends. -/
def execStreamCancelDone (hall slot : Nat) (s : State) : Host.Outcome State Fault Refusal :=
  .next (keepCompute s (match s.held hall slot .cancelRing with
    | some c => if s.cancelBusy c then s else s.cancelRing c
    | none => s))

/-! ### Fills (R347-R350, R353) -/

/-- A fill of the ring by the slot is rejected (R207, R349, R614): not open or closing, of another wing, not SOURCE 0, or another slot fills it in the beat. -/
def State.producerBad (s : State) (c : Ctx) (ring : Nat) : Bool :=
  let r := s.ring c.hall ring
  ring == 0xFF || !r.isOpen || r.closing || r.wing != c.wing || r.source != 0 || (match r.producer with
    | some k => k != c.slot
    | none => false)

/-- The slot at the tail is empty. -/
def Ring.tailEmpty (r : Ring) : Bool := match r.slots[r.tail]? with
  | some x => x.st == 0
  | none => false

/-- Change the slot at an index. -/
def Ring.setSlot (r : Ring) (i : Nat) (f : RSlot → RSlot) : Ring :=
  { r with slots := (r.slots.zipIdx).map (fun e => if e.2 = i then f e.1 else e.1) }

/-- Cut bytes into the 64-byte lines of a slot, by offset. -/
def linesOf (bs : List Byte) : List (Nat × List Byte) := ((chunksOf 64 bs).zipIdx).map (fun e => (64 * e.2, e.1))

/-- Claim the slot at the tail for a fill carrying G (R347, R348); its lines land one by one. -/
def State.startFill (s : State) (c : Ctx) (ring : Nat) (bs : List Byte) (folios : List Nat) : State :=
  let r := s.ring c.hall ring
  let f : Fill := { hall := c.hall, ring := ring, id := s.work.nextFill, slot := r.tail, tag := r.gen, lines := linesOf bs
                    dropped := false, len := bs.length, folios := folios }
  let r' := { r.setSlot r.tail (fun x => { x with st := 1, tag := r.gen, len := bs.length, sender := s.device, beat := s.beatNo
                                                  landed := false, ok := false, folios := [], fill := s.work.nextFill, filler := c.orderKey }) with
    tail := (r.tail + 1) % r.slots.length, producer := some c.slot, touched := true, moved := true }
  let t := s.setRing c.hall ring r'
  { t with work := { t.work with fills := t.work.fills ++ [f], nextFill := t.work.nextFill + 1 } }

/-- The last line of a fill has landed: the slot becomes full, or the fill is stale (R348). -/
def State.endFill (s : State) (f : Fill) : State :=
  let t := { s with work := { s.work with fills := s.work.fills.filter (fun x => x.id != f.id) } }
  if f.dropped then t.count (0xC1C0 + f.hall) 2 1
  else
    let r := t.ring f.hall f.ring
    (t.setRing f.hall f.ring { r.setSlot f.slot (fun x => { x with st := 2, landed := true, folios := f.folios }) with
      touched := true, moved := true }).count (0xC1C0 + f.hall) 1 1

/-- A line of a fill lands (R348): written when its tag equals G, dropped and counted otherwise. -/
def fillLineLands (hall ring fill : Nat) (s : State) : State :=
  match (s.fillsOf hall ring).find? (fun f => f.id == fill) with
  | none => s
  | some f => match f.lines with
    | [] => s.endFill f
    | l :: rest =>
      let r := s.ring hall ring
      let good := r.isOpen && r.gen == f.tag
      let f' := { f with lines := rest, dropped := f.dropped || !good }
      let t := if good then s.beatWrite none (s.ringSlotAddr hall r f.slot + l.1) l.2 else s.count (0xC1C0 + hall) 3 1
      let t := { t with work := { t.work with fills := updFirst (fun x => x.id == fill) (fun _ => f') t.work.fills } }
      if rest = [] then t.endFill f' else t

/-- FILL_LINE_LANDS (R348). -/
def execFillLineLands (hall ring fill : Nat) (s : State) : Host.Outcome State Fault Refusal :=
  .next (keepCompute s (fillLineLands hall ring fill s))

/-! ### Send to peer (R355) -/

/-- The key of a peer's ring. -/
def peerKey (device hall ring : Nat) : Nat := (device * 8 + hall) * 256 + ring

def State.peer (s : State) (device hall ring : Nat) : PeerRing := mget {} s.work.peers (peerKey device hall ring)

def State.setPeer (s : State) (device hall ring : Nat) (p : PeerRing) : State :=
  { s with work := { s.work with peers := mset {} s.work.peers (peerKey device hall ring) p } }

/-- A device is known to have committed a beat (R82, R84). -/
def State.knowsCommit (s : State) (device beat : Nat) : Bool :=
  let n := mget 0 s.beat.commits device
  n != 0 && decide ((n - 1 + 2 ^ 48 - beat % 2 ^ 48) % 2 ^ 48 < 2 ^ 47)

/-- Send-to-peer data arrives (R355): it fills the tail slot, full where its sender's commit token is here already (R85, R347) and pending otherwise, or is dropped and counted. -/
def peerDataArrival (source wing hall ring beat : Nat) (data : List Byte) (s : State) : State :=
  let r := s.ring hall ring
  if r.isOpen && r.wing != wing then s.wingMismatch source wing 0x01
  else if r.isOpen && r.source == 1 && !r.closing && r.peer == source && r.wing == wing && decide (0 < r.credit) && r.tailEmpty && decide (data.length ≤ r.slotSize) then
    let ok := s.knowsCommit source beat
    let t := (s.writeMem (s.ringSlotAddr hall r r.tail) data).accessed hall (wingOwner wing) [(s.ringSlotAddr hall r r.tail, data.length)]
    (t.setRing hall ring { r.setSlot r.tail (fun x => { x with st := if ok then 2 else 1, tag := r.gen, len := data.length, sender := source, beat := beat
                                                               landed := true, ok := ok, folios := [] }) with
      tail := (r.tail + 1) % r.slots.length, credit := r.credit - 1, moved := true }).count (0xC1C0 + hall) 1 (b2n ok)
  else s.count (0xC1C0 + hall) 9 1

/-- PEER_DATA_ARRIVAL (R355). -/
def execPeerDataArrival (source wing hall ring beat : Nat) (data : List Byte) (s : State) : Host.Outcome State Fault Refusal :=
  .next (keepCompute s (peerDataArrival source wing hall ring beat data s))

/-- A ring announcement (R355): credits only for the sender it names. -/
def ringAnnouncement (source hall ring slots expected slotSize : Nat) (s : State) : State :=
  s.setPeer source hall ring (if expected = s.device then { credits := slots, granted := true, slotSize := slotSize } else {})

/-- RING_ANNOUNCEMENT (R355); the WING of its packet is checked by the router (R615). -/
def execRingAnnouncement (source _wing hall ring slots expected slotSize : Nat) (s : State) : Host.Outcome State Fault Refusal :=
  .next (keepCompute s (ringAnnouncement source hall ring slots expected slotSize s))

/-- Credits returned, or the notice that a close voided them (R355). -/
def peerCredit (source hall ring credits : Nat) (voided : Bool) (s : State) : State :=
  let p := s.peer source hall ring
  if !p.granted then s
  else if voided then s.setPeer source hall ring {}
  else s.setPeer source hall ring { p with credits := p.credits + credits }

/-- PEER_CREDIT (R355). -/
def execPeerCredit (source hall ring credits : Nat) (voided : Bool) (s : State) : Host.Outcome State Fault Refusal :=
  .next (keepCompute s (peerCredit source hall ring credits voided s))

/-! ### Stalls (R362-R364) -/

/-- A slot held on a ring: it waits for a fill's slot, a full head slot, or the ring's opening, close or cancel. -/
def State.heldOn (s : State) (hall ring slot : Nat) : Option Ctx :=
  let q := s.seq hall slot
  if q.waits.contains ring && [Hold.fillSlot, .ringSlot, .openRing, .closeRing, .cancelRing].contains q.hold then s.held hall slot q.hold
  else none

/-- A slot is held on a ring by a wait that counts toward its stall (R362, R364): a consumer of a SOURCE 1 or 2 ring is not. -/
def State.waitsOn (s : State) (hall ring slot : Nat) : Option Ctx :=
  let q := s.seq hall slot
  let counts := if q.hold = .ringSlot then (s.ring hall ring).source == 0 && !(s.ring hall ring).headFull
    else if q.hold = .fillSlot then !(s.ring hall ring).tailEmpty
    else true
  if counts then s.heldOn hall ring slot else none

/-- A ring has a waiter (R362). -/
def State.hasWaiter (s : State) (hall ring : Nat) : Bool := (List.range 40).any (fun slot => (s.waitsOn hall ring slot).isSome)

/-- The stall count in force: a transition resets it (R362). -/
def Ring.stallCount (r : Ring) : Nat := if r.moved then 0 else r.stall

/-- The stall counts at a period boundary (R362). -/
def State.stallTick (s : State) : State :=
  (List.range 8).foldl (fun s hall => (List.range 255).foldl (fun s id =>
    let r := s.ring hall id
    let w := s.hasWaiter hall id
    let r' := { r with stall := if r.moved then 0 else if w && r.waited then r.stall + 1 else r.stall, waited := w, moved := false }
    if r' = r then s else s.setRing hall id r') s) s

/-- A producer or consumer of a ring is held (R363). -/
def State.usersHeld (s : State) (hall ring : Nat) : Bool :=
  (List.range 40).any (fun slot => (s.heldOn hall ring slot).isSome && [Hold.fillSlot, .ringSlot].contains (s.seq hall slot).hold)

/-- A stall count of 2 faults the held descriptor (R363): the detail names ring and hall and up to three further open rings whose producers or consumers are held. -/
def streamStall (hall ring : Nat) (s : State) : State :=
  if (s.ring hall ring).stallCount < 2 then s
  else match (List.range 40).findSome? (s.waitsOn hall ring) with
    | none => s
    | some c =>
      let more := ((s.openRings hall).filter (fun id => id != ring && s.usersHeld hall id)).take 3
      let t := (s.openWaits [(c.hall, c.slot)]).count (0xC1C0 + hall) 8 1
      (t.setRing hall ring { t.ring hall ring with stall := 0, moved := true }).descFault c
        ⟨fStreamStall, leBytes 1 ring ++ leBytes 1 hall ++ more.flatMap (leBytes 1)⟩

/-- STREAM_STALL (R363). -/
def execStreamStall (hall ring : Nat) (s : State) : Host.Outcome State Fault Refusal := .next (keepCompute s (streamStall hall ring s))

end Sys2Proof.Machine
end

