-- ==== Sys2Proof/Machine/Move.lean ====
section
/-! DEFINITION. MOVE in its three rows (R198-R200): copy, zero and indexed gather, to memory or into a ring slot (R353), by the light path where rows are short (R361). -/

namespace Sys2Proof.Machine

open Sys2Proof

def Ctx.mvSrc (c : Ctx) : Nat := c.fld 111 64
def Ctx.mvDst (c : Ctx) : Nat := c.fld 175 128
def Ctx.mvLen (c : Ctx) : Nat := c.fld 223 192
def Ctx.mvRows (c : Ctx) : Nat := c.fld 239 224
def Ctx.mvToRing (c : Ctx) : Bool := bitOf c.desc 248
def Ctx.mvZero (c : Ctx) : Bool := bitOf c.desc 249
def Ctx.mvIndexed (c : Ctx) : Bool := bitOf c.desc 250
def Ctx.mvRing (c : Ctx) : Nat := c.fld 263 256
def Ctx.mvLimit (c : Ctx) : Nat := c.fld 287 264
def Ctx.mvSrcPitch (c : Ctx) : Nat := c.fld 319 288
def Ctx.mvDstPitch (c : Ctx) : Nat := c.fld 351 320

/-- The rows at a pitch, as address ranges. -/
def rowExts (base rows pitch len : Nat) : List Ext := (List.range rows).map (fun r => (base + r * pitch, len))

/-- The source as it must lie where R199 allows: the planned rows, or the whole table when INDEXED (R200). -/
def Ctx.mvSrcExts (c : Ctx) : List Ext :=
  if c.mvIndexed then [(c.mvSrc, c.mvLimit * c.mvSrcPitch)] else rowExts c.mvSrc c.mvRows c.mvSrcPitch c.mvLen

/-- The destination rows of a MOVE to memory. -/
def Ctx.mvDstExts (c : Ctx) : List Ext := rowExts c.mvDst c.mvRows c.mvDstPitch c.mvLen

/-- A range overlaps the payload region of a wing's pool (R314). -/
def State.inPool (s : State) (a n : Nat) : Bool :=
  (List.range 16).any (fun w =>
    let base := s.obj (0x7100 + w) 1
    let size := 4096 * s.obj (0x7100 + w) 2 + 2048 * s.obj (0x7100 + w) 3
    decide (0 < size) && decide (a < base + size) && decide (base < a + n))

/-- The ring whose BASE the SRC of a MOVE is, of this hall; with INDEXED its slot holds the table (R351). -/
def State.mvSrcRing (s : State) (c : Ctx) : Option Nat :=
  if c.mvZero then none
  else match s.ringAtAddr c.mvSrc with
    | some (h, id) => if h = c.hall then some id else none
    | none => none

/-- The SRC overlaps a ring's region without naming its head slot, or cannot consume it (R343, R349). -/
def State.mvSrcBad (s : State) (c : Ctx) : Bool :=
  if c.mvZero then false
  else match s.mvSrcRing c with
    | some id => s.consumerBad c id || c.mvSrcExts.any (fun x => (s.addrRings x.1 x.2).any (fun r => r != (c.hall, id)))
    | none => c.mvSrcExts.any (fun x => s.addrOverRing x.1 x.2)

/-- Decode checks of MOVE (R178, R198-R200, R314, R343). -/
def State.moveFault (s : State) (c : Ctx) : Option DFault :=
  (s.headerFault c [(112, 127), (176, 191), (251, 255), (352, 511)] [] false false).or (firstFault [
    (planBad c.mvRows 65535, flt fPlan),
    (c.mvLen == 0 || decide (16777216 < c.mvLen), flt fBadField),
    (c.mvZero && (c.mvSrc != 0 || c.mvIndexed), flt fBadField),
    (c.mvIndexed != (c.mvLimit != 0), flt fBadField),
    (!c.mvToRing && c.mvRing != 0, flt fBadField),
    (!c.mvZero && c.mvSrcExts.any (fun x => (s.resolveParts c.wing x.1 x.2).isNone), flt fAddress),
    (!c.mvToRing && c.mvDstExts.any (fun x => (s.resolveParts c.wing x.1 x.2).isNone || s.inPool x.1 x.2), flt fAddress),
    (s.mvSrcBad c || (c.mvToRing && s.producerBad c c.mvRing), flt fBadRing),
    (!c.mvToRing && c.mvDstExts.any (fun x => s.addrOverRing x.1 x.2), flt fBadRing)])

/-- The checks of an indexed MOVE on every row, before any row moves (R200): segment, TOKENS, token id. The addresses by row where all hold, with the table reads. -/
def State.indexedRows (s : State) (c : Ctx) (rows base : Nat) : Except DFault (List Nat × List Ext) :=
  match s.jobOf c with
  | none => .error (flt fBadManifest)
  | some j =>
    let segs := s.segs j
    let covered := (coveredRows segs).getD 0
    if covered < rows then .error ⟨fShape, leBytes 1 (c.fld 247 240) ++ leBytes 4 covered ++ leBytes 4 rows⟩
    else
      let gs := (List.range rows).map (fun r => (r, (segOfRow segs r).getD (Seg.of 0 0)))
      match gs.find? (fun e => e.2.tokens == 0) with
      | some _ => .error (flt fBadField)
      | none =>
        let ids := gs.map (fun e => s.token e.2 e.1)
        match s.readFault (gs.map (fun e => (e.2.tokens + 4 * (e.1 - e.2.first), 4))) with
        | some e => .error e
        | none => match ids.find? (fun id => decide (c.mvLimit ≤ id)) with
        | some id => .error ⟨fAddress, leBytes 4 id⟩
        | none => .ok (ids.map (fun id => base + id * c.mvSrcPitch),
            s.segReads j ++ gs.map (fun e => (e.2.tokens + 4 * (e.1 - e.2.first), 4)))

/-- Addresses of the rows a MOVE reads from a base, SRC or the slot it has taken, and what finding them reads. -/
def State.moveRows (s : State) (c : Ctx) (rows base : Nat) : Except DFault (List Nat × List Ext) :=
  if c.mvZero then .ok ((List.range rows).map (fun _ => 0), [])
  else if c.mvIndexed then s.indexedRows c rows base
  else .ok ((List.range rows).map (fun r => base + r * c.mvSrcPitch), [])

/-- Requests of the light path that may still be issued by the slot's core (R361). -/
def State.lightRoom (s : State) (c : Ctx) : Nat := 64 - mget 0 s.work.lightPath (slotKey c.hall c.slot)

/-- Issue n light-path requests. -/
def State.lightIssue (s : State) (c : Ctx) (n : Nat) : State :=
  let k := slotKey c.hall c.slot
  let t := { s with work := { s.work with lightPath := mset 0 s.work.lightPath k (mget 0 s.work.lightPath k + n) } }
  t.count (0xC1C0 + c.hall) 6 n

/-- A source row: the slot taken is addressed as it is, any other address through the map. -/
def State.moveSource (s : State) (c : Ctx) (a : Nat) : List Ext :=
  if (s.seq c.hall c.slot).taken.isSome then [(a, c.mvLen)] else (s.resolveParts c.wing a c.mvLen).getD []

/-- Bytes laid over the parts of a range. -/
def splitOver (xs : List Ext) (bs : List Byte) : List (Nat × List Byte) :=
  (xs.foldl (fun (acc : List (Nat × List Byte) × List Byte) x => (acc.1 ++ [(x.1, acc.2.take x.2)], acc.2.drop x.2)) ([], bs)).1

/-- Bytes that a MOVE has copied from HBM into core buffers, which a reload fetches again (R88, R394). -/
def State.noteLoads (s : State) (src dst : List Ext) : State := match src with
  | [(a, _)] =>
    if isHbm a then
      let r := dst.foldl (fun (acc : List Load × Nat) x =>
        (if physBase ≤ x.1 ∧ x.1 < slotBase then acc.1 ++ [⟨x.1, a + acc.2, x.2⟩] else acc.1, acc.2 + x.2)) (s.mem.loaded, 0)
      { s with mem := { s.mem with loaded := r.1 } }
    else s
  | _ => s

/-- Move the rows from the first not yet issued (R198, R353, R361): into the next slot of the ring, or to DST in ascending order; short rows by the light path, as many as the core may have outstanding; at 64 the sequencer waits. -/
def State.moveRun (s : State) (c : Ctx) (rows : Nat) (addrs : List Nat) : State :=
  let q := s.seq c.hall c.slot
  let light := decide (c.mvLen ≤ 256)
  let n := if light then min (s.lightRoom c) (rows - q.iter) else rows - q.iter
  let src := if c.mvZero then [] else addrs.map (s.moveSource c)
  let hold := fun (t : State) =>
    let q := t.seq c.hall c.slot
    t.setSeq c.hall c.slot { q with iter := q.iter + n, hold := .lightPath, waits := [] }
  if n = 0 then hold s
  else match s.dataFault src.flatten with
  | some d => s.descFault c d
  | none =>
    let data := fun (i : Nat) => if c.mvZero then List.replicate c.mvLen (0#8 : Byte) else ((src[i]?).getD []).flatMap (fun e => s.rd e.1 e.2)
    let now := (List.range n).map (· + q.iter)
    let t := s.readAll c (now.flatMap (fun i => (src[i]?).getD []))
    let t := if light then t.lightIssue c n else t
    let t := if c.mvToRing then
        (if q.iter = 0 then t.startFill c c.mvRing ((List.range rows).flatMap data) [] else t)
      else
        let dst := fun (i : Nat) => (s.resolveParts c.wing (c.mvDst + i * c.mvDstPitch) c.mvLen).getD []
        now.foldl (fun t i => t.noteLoads ((src[i]?).getD []) (dst i)) (t.writeAll c (now.flatMap (fun i => splitOver (dst i) (data i))))
    if q.iter + n < rows then hold t else t.done c rows 0 0 {}

/-- The rows from a base, once the tables that name them have been read (R178, R200). -/
def State.moveFrom (s : State) (c : Ctx) (rows base : Nat) : State :=
  match s.moveRows c rows base with
  | .error d => s.descFault c d
  | .ok (addrs, reads) =>
    let src := if c.mvZero then [] else addrs.map (s.moveSource c)
    if !c.mvZero && addrs.any (fun a => (s.moveSource c a).isEmpty) then s.descFault c (flt fAddress)
    else if (s.seq c.hall c.slot).taken.isNone && s.depends c src.flatten then s.holdDep c src.flatten
    else match s.readFault reads with
      | some d => s.descFault c d
      | none => (if (s.seq c.hall c.slot).iter = 0 then s.readAll c reads else s).moveRun c rows addrs

/-- A MOVE whose checks hold: it waits for an empty slot of its ring (R362), for a full head slot of its source ring (R350), or runs. -/
def State.moveGo (s : State) (c : Ctx) (rows : Nat) : State :=
  let q := s.seq c.hall c.slot
  if c.mvToRing && decide ((s.ring c.hall c.mvRing).slotSize < rows * c.mvLen) then s.descFault c (flt fRingGeometry)
  else if c.mvToRing && q.iter == 0 && !(s.ring c.hall c.mvRing).tailEmpty then s.holdRings c .fillSlot [c.mvRing]
  else match q.taken, s.mvSrcRing c with
    | some base, _ => s.moveFrom c rows base
    | none, some id => s.awaitSlots c [id]
    | none, none => s.moveFrom c rows c.mvSrc

/-- Decode a MOVE (R178, R184, R198), or go on with one that has begun. -/
def State.moveDesc (s : State) (c : Ctx) : State :=
  let q := s.seq c.hall c.slot
  match if q.iter ≠ 0 ∨ q.taken.isSome then none else s.moveFault c with
    | some d => s.descFault c d
    | none => match s.lens c [(c.fld 247 240, c.mvRows)] with
      | .bad d => s.descFault c d
      | .noop => s.noop c
      | .ok lens => s.moveGo c (lens.headD 0)

/-- A MOVE from a ring takes its head slot (R350, R351). -/
def State.moveTake (s : State) (c : Ctx) : State :=
  match s.mvSrcRing c, s.lens c [(c.fld 247 240, c.mvRows)] with
  | some id, .ok (rows :: _) =>
    if c.mvToRing && !(s.ring c.hall c.mvRing).tailEmpty then s
    else match s.takeSlots c [id] with
      | some (t, taken) =>
        let q := t.seq c.hall c.slot
        (t.setSeq c.hall c.slot { q with hold := .none, waits := [], taken := some (takenAddr taken id) }).moveGo c rows
      | none => s
  | _, _ => s

/-- The slot decodes its next descriptor, or tries again after waiting for a ring slot or the light path, when it is a MOVE of the kind. -/
def moveCmd (p : Ctx → Bool) (hall slot : Nat) (s : State) : State :=
  match s.readyOr hall slot [.fillSlot, .lightPath] with
  | some c => if c.op == 0x08 && p c then s.issue c State.moveDesc else s
  | none => s

/-- MOVE (R198). -/
def execMove (hall slot : Nat) (s : State) : Host.Outcome State Fault Refusal :=
  .next (keepCompute s (moveCmd (fun c => !c.mvZero && !c.mvIndexed) hall slot s))

/-- MOVE_ZERO (R198): with ZERO set; ZERO with INDEXED is rejected here (R200). -/
def execMoveZero (hall slot : Nat) (s : State) : Host.Outcome State Fault Refusal := .next (keepCompute s (moveCmd (fun c => c.mvZero) hall slot s))

/-- MOVE_INDEXED (R200): with INDEXED set. -/
def execMoveIndexed (hall slot : Nat) (s : State) : Host.Outcome State Fault Refusal :=
  .next (keepCompute s (moveCmd (fun c => c.mvIndexed && !c.mvZero) hall slot s))

/-- LIGHT_PATH_COMPLETE (R361): one of the core's outstanding requests completes; while the sequencer is held for room, cycles have passed, a free number of them. -/
def lightPathComplete (hall slot : Nat) (s : State) : State :=
  let k := slotKey hall slot
  let n := mget 0 s.work.lightPath k
  if n = 0 then s
  else
    let t := { s with work := { s.work with lightPath := mset 0 s.work.lightPath k (n - 1) } }
    match s.held hall slot .lightPath with
    | some _ =>
      let d := t.draw
      d.2.count (0xC1C0 + hall) 7 (d.1 + 1)
    | none => t

/-- LIGHT_PATH_COMPLETE (R361). -/
def execLightPathComplete (hall slot : Nat) (s : State) : Host.Outcome State Fault Refusal := .next (keepCompute s (lightPathComplete hall slot s))

end Sys2Proof.Machine
end

