-- ==== Sys2Proof/Machine/Folio.lean ====
section
/-! DEFINITION. Folios (10_folios_archive.md): numbers and pools (R311-R317), tables (R318-R323), loans and copies with their package-wide checks (R202-R205, R324, R325), gathering into rings (R354, R359). -/

namespace Sys2Proof.Machine

open Sys2Proof

/-! ### Folio numbers, side records and pools -/

/-- The number that names no folio (R311). -/
abbrev noFolio : Nat := 0xFFFFFFFF

def folioWing (f : Nat) : Nat := bits f 31 28
def folioHalf (f : Nat) : Bool := bitOf f 27
def folioIndex (f : Nat) : Nat := bits f 26 0
def folioNumber (wing : Nat) (half : Bool) (i : Nat) : Nat := wing * 2 ^ 28 + b2n half * 2 ^ 27 + i

/-- Bytes of a folio's payload (R308). -/
def folioBytes (f : Nat) : Nat := if folioHalf f then 2048 else 4096

/-- FULL_SLOTS or HALF_SLOTS of a wing (R338). -/
def State.poolSlots (s : State) (wing : Nat) (half : Bool) : Nat := s.obj (0x7100 + wing) (if half then 3 else 2)

/-- The quota of a kind (R316). -/
def State.poolQuota (s : State) (wing : Nat) (half : Bool) : Nat := s.obj (0x7100 + wing) (if half then 5 else 4)

/-- The payload's address (R312). -/
def State.folioAddr (s : State) (f : Nat) : Nat :=
  let w := folioWing f
  s.obj (0x7100 + w) 1 + (if folioHalf f then 4096 * s.poolSlots w false + 2048 * folioIndex f else 4096 * folioIndex f)

/-- The folio exists in its wing's pool. -/
def State.folioExists (s : State) (f : Nat) : Bool := decide (folioIndex f < s.poolSlots (folioWing f) (folioHalf f))

/-- The side record of a folio that no take has written: its version and its pool's wing (R310, R315). -/
def freeSide (f : Nat) : Side := { wing := folioWing f }

/-- A folio's side record. -/
def State.side (s : State) (f : Nat) : Side := mget (freeSide f) s.folio.now.sides f

def State.setSide (s : State) (f : Nat) (x : Side) : State :=
  { s with folio := { s.folio with now := { s.folio.now with sides := mset (freeSide f) s.folio.now.sides f x } } }

/-- The free list of a kind. -/
def State.freeList (s : State) (wing : Nat) (half : Bool) : FreeList :=
  mget {} (if half then s.folio.now.half else s.folio.now.full) wing

def State.setFreeList (s : State) (wing : Nat) (half : Bool) (l : FreeList) : State :=
  if half then { s with folio := { s.folio with now := { s.folio.now with half := mset {} s.folio.now.half wing l } } }
  else { s with folio := { s.folio with now := { s.folio.now with full := mset {} s.folio.now.full wing l } } }

/-- Folios on the list. -/
def State.freeCount (s : State) (wing : Nat) (half : Bool) : Nat :=
  let l := s.freeList wing half
  l.stack.length + (s.poolSlots wing half - l.fresh)

/-- Take a folio (R316, R317): none when the list is empty or the quota is reached. -/
def State.takeFolio (s : State) (wing : Nat) (half : Bool) (x : Side) : Option (Nat × State) :=
  let l := s.freeList wing half
  let pick : Option (Nat × FreeList) := match l.stack with
    | i :: t => some (i, { l with stack := t, inUse := l.inUse + 1 })
    | [] => if l.fresh < s.poolSlots wing half then some (l.fresh, { l with fresh := l.fresh + 1, inUse := l.inUse + 1 }) else none
  if l.inUse = s.poolQuota wing half then none
  else match pick with
    | none => none
    | some (i, l') =>
      let f := folioNumber wing half i
      let old := s.side f
      some (f, (s.setFreeList wing half l').setSide f { x with version := 1, wing := wing, loans := 1, gen := (old.gen + 1) % 2 ^ 32 })

/-- Release one loan: a folio whose count reaches 0 is pushed onto its list, payload and scales not cleared (R204, R317). -/
def State.releaseLoan (s : State) (f : Nat) : State :=
  let x := s.side f
  let t := s.setSide f { x with loans := x.loans - 1 }
  if x.loans = 1 then
    let l := t.freeList (folioWing f) (folioHalf f)
    t.setFreeList (folioWing f) (folioHalf f) { l with stack := folioIndex f :: l.stack, inUse := l.inUse - 1 }
  else t

/-- Take one more loan. -/
def State.addLoan (s : State) (f : Nat) : State := s.setSide f { s.side f with loans := (s.side f).loans + 1 }

/-- FIRST_POS as the header shows it: while free, the next folio on the list (R310). -/
def State.headerPos (s : State) (f : Nat) : Nat :=
  let x := s.side f
  if x.loans ≠ 0 then x.firstPos
  else
    let w := folioWing f
    let h := folioHalf f
    let l := s.freeList w h
    let all := l.stack ++ (if l.fresh < s.poolSlots w h then [l.fresh] else [])
    if l.stack.contains (folioIndex f) then
      match (all.drop (all.findIdx (· == folioIndex f) + 1)).head? with
      | some i => folioNumber w h i
      | none => noFolio
    else if folioIndex f + 1 < s.poolSlots w h then folioNumber w h (folioIndex f + 1) else noFolio

/-- The 32 header bytes of a side record (R310). -/
def State.sideHeader (s : State) (f : Nat) : List Byte :=
  let x := s.side f
  leBytes 1 x.format ++ leBytes 1 x.version ++ leBytes 1 (x.wing + 16 * x.layout) ++ leBytes 1 x.layer ++ leBytes 1 x.table ++ [0] ++
    leBytes 2 x.loans ++ leBytes 1 x.keys ++ leBytes 1 x.values ++ leBytes 1 (min x.keys x.values) ++ [0] ++
    leBytes 4 x.gen ++ leBytes 4 (s.headerPos f) ++ leBytes 4 f ++ List.replicate 8 0

/-- The 256 bytes of a side record (R310); the scales of tokens at or beyond TOKENS_VALID are free values. -/
def State.sideBytes (s : State) (f : Nat) : List Byte :=
  let x := s.side f
  s.sideHeader f ++ (List.range 128).map (fun i => BitVec.ofNat 8 (if i / 8 < min x.keys x.values then mget 0 x.scales i
    else Config.freeScales f x.gen >>> (8 * i))) ++ List.replicate 96 0

/-! ### Side records in memory (R313, R643) -/

/-- Records of the pools below a wing's: they come first in the side area (R313). -/
def State.sidesBelow (s : State) (wing : Nat) : Nat :=
  ((List.range wing).map (fun w => s.poolSlots w false + s.poolSlots w true)).sum

/-- Where the side-table alias of a folio leads (R313): none where the area does not reach. -/
def State.sideAddr (s : State) (f : Nat) : Option Nat :=
  let n := s.sidesBelow (folioWing f) + (if folioHalf f then s.poolSlots (folioWing f) false else 0) + folioIndex f
  if 256 * (n + 1) ≤ s.obj 0x7000 1 then some (s.obj 0x7000 2 + 256 * n) else none

/-- What reading a folio's side record reads. -/
def State.sideRead (s : State) (f : Nat) : List Ext := match s.sideAddr f with
  | some a => [(a, 256)]
  | none => []

/-- A folio's payload and side record, as reads. -/
def State.folioRead (s : State) (f : Nat) : List Ext := (s.folioAddr f, folioBytes f) :: s.sideRead f

/-- Store in HBM the side record of a folio. -/
def State.storeSide (s : State) (f : Nat) : State := match s.sideAddr f with
  | some a => s.writeMem a (s.sideBytes f)
  | none => s

/-- Store every side record that a seal changes (R313, R333). A record is stored at the first seal that changes it; what a read delivers is what the device wrote, an uncorrectable word apart (log entry 47). -/
def State.storeSides (s : State) : State :=
  (s.folio.now.sides.filter (fun e => !s.folio.sealed.sides.contains e)).foldl (fun t e => t.storeSide e.1) s

/-- The records, as they stand at the last seal, move with the pools' layout (R313). -/
def State.moveSides (s : State) : State :=
  let z := { s with folio := { s.folio with now := s.folio.sealed } }
  s.folio.sealed.sides.foldl (fun t e => match z.sideAddr e.1 with
    | some a => t.writeMem a (z.sideBytes e.1)
    | none => t) s

/-! ### Folio tables (R318-R323) -/

/-- A directory's layer entry (R318). -/
structure DirEntry where
  addr    : Nat
  tables  : Nat
  headDim : Nat
  fmt     : Nat
  entries : Nat
  stride  : Nat
  res     : Bool
deriving DecidableEq, Repr

def DirEntry.of (w : Nat) : DirEntry :=
  { addr := bits w 47 0, tables := bits w 55 48, headDim := bits w 57 56, fmt := bits w 63 60, entries := bits w 95 64
    stride := bits w 111 96, res := bits w 59 58 != 0 || bits w 127 112 != 0 }

/-- The layer entry of a sequence's directory. -/
def State.dirEntry (s : State) (j : Job) (seq layer : Nat) : DirEntry :=
  DirEntry.of (s.rdNat ((s.seqEntry j seq).dir + 16 * layer) 16)

/-- WINDOW of a layer (R282). -/
def State.layerWindow (s : State) (j : Job) (layer : Nat) : Nat := s.rdNat (j.layerTable + 16 * layer) 4

/-- The start of table x (R319). -/
def DirEntry.table (d : DirEntry) (x : Nat) : Nat := d.addr + 64 * d.stride * x

/-- The address of entry i of table x (R319). -/
def DirEntry.entry (d : DirEntry) (windowed : Bool) (x i : Nat) : Nat := d.table x + (if windowed then 512 else 0) + 4 * i

/-- What reaching a table's directory entry reads: sequence entry, layer entry, directory entry. -/
def State.dirReads (s : State) (j : Job) (seq layer : Nat) : List Ext :=
  [(j.seqTable + 32 * seq, 32), (j.layerTable + 16 * layer, 16), ((s.seqEntry j seq).dir + 16 * layer, 16)]

/-- The used entries of a table's global list: place, entry index, folio (R319). -/
def State.globalList (s : State) (d : DirEntry) (x : Nat) : List (Nat × Nat × Nat) :=
  (List.range 64).filterMap (fun g =>
    let w := s.rdNat (d.table x + 8 * g) 8
    if bits w 31 0 = 0xFFFFFFFF then none else some (g, bits w 31 0, bits w 63 32))

/-- A format code of folios (R309). -/
def folioFmt (code : Nat) : Bool := [0, 1, 2, 4, 5, 6, 7, 8].contains code

/-- The slot kind of a format: half for four bits (R308). -/
def fmtHalf (code : Nat) : Bool := [0, 1, 2].contains code

/-- A folio that an entry or field names is bad for a wing (R323). -/
def State.folioBad (s : State) (wing f : Nat) : Bool :=
  f == noFolio || folioWing f != wing || !s.folioExists f || (s.side f).loans == 0 || fmtHalf (s.side f).format != folioHalf f

/-- The place of a table that a descriptor names: sequence, layer and table, or its fault (R191, R201, R320); `range` is the descriptor's code for a table beyond the layer's (R219). -/
def State.tableOf (s : State) (c : Ctx) (range : DFault) (seq layer table : Nat) : Except DFault (Job × DirEntry × Bool) :=
  match s.jobOf c with
  | none => .error (flt fBadManifest)
  | some j =>
    if j.sequences ≤ seq ∨ j.layers ≤ layer then .error (flt fBadField)
    else match s.readFault (s.dirReads j seq layer) with
      | some e => .error e
      | none =>
        let d := s.dirEntry j seq layer
        if d.addr = 0 then .error ⟨fBadDirectory, leBytes 2 seq ++ leBytes 1 layer⟩
        else if d.tables ≤ table then .error range
        else .ok (j, d, decide (s.layerWindow j layer ≠ 0))

/-! ### FOLIO_COPY and FOLIO_LOAN: decode -/

def Ctx.fcSrc (c : Ctx) : Nat := c.fld 95 64
def Ctx.fcSeq (c : Ctx) : Nat := c.fld 111 96
def Ctx.fcLayer (c : Ctx) : Nat := c.fld 119 112
def Ctx.fcTable (c : Ctx) : Nat := c.fld 127 120
def Ctx.fcIndex (c : Ctx) : Nat := c.fld 159 128
def Ctx.fcUpdate (c : Ctx) : Bool := bitOf c.desc 160
def Ctx.fcRelease (c : Ctx) : Bool := bitOf c.desc 161

/-- A descriptor whose checks the package makes together after the work (R205): its record opens, the sequencer goes on. -/
def State.deferLoan (s : State) (c : Ctx) : State :=
  let r := s.openRec c 0 0 0 0
  let t := { r.2 with folio := { r.2.folio with ops := r.2.folio.ops ++ [LoanOp.mk c.hall c.slot c.pos r.1 c.wing c.desc] } }
  t.advance c

/-- The folio a FOLIO_COPY copies and the entry it updates, with the reads that find them. DEDUCED: a table or entry beyond the directory's is BAD_FIELD here and in FOLIO_LOAN, whose code lists in R219 lack ADDRESS_RANGE (log entry 198). -/
def State.copySource (s : State) (c : Ctx) : Except DFault (Nat × Option Nat × List Ext) :=
  if c.fcSrc ≠ noFolio ∧ c.fcUpdate = false then .ok (c.fcSrc, none, [])
  else match s.tableOf c (flt fBadField) c.fcSeq c.fcLayer c.fcTable with
    | .error d => .error d
    | .ok (j, d, win) =>
      if d.entries ≤ c.fcIndex then .error (flt fBadField)
      else
        let a := d.entry win c.fcTable c.fcIndex
        match s.readFault [(a, 4)] with
        | some e => .error e
        | none => .ok (if c.fcSrc = noFolio then s.rdNat a 4 else c.fcSrc, some a, s.dirReads j c.fcSeq c.fcLayer ++ [(a, 4)])

/-- Decode a FOLIO_COPY (R202, R323). -/
def State.folioCopyDesc (s : State) (c : Ctx) : State :=
  match (s.headerFault c [(162, 511)] [] false false).or (firstFault [(!c.fcUpdate && !c.complete, flt fBadField)]) with
  | some d => s.descFault c d
  | none => match s.copySource c with
    | .error d => s.descFault c d
    | .ok (f, _, reads) =>
      let pay : List Ext := if folioWing f = c.wing ∧ s.folioExists f ∧ f ≠ noFolio then s.folioRead f else []
      if s.folioBad c.wing f && !(c.fcRelease && c.fcSrc != noFolio && folioWing f == c.wing && s.folioExists f && (s.side f).loans == 0) then
        s.descFault c ⟨fBadFolio, leBytes 4 f ++ leBytes 4 c.fcIndex⟩
      else match (s.readFault (reads ++ if pay = [] then [] else s.sideRead f)).or (s.dataFault pay) with
        | some d => s.descFault c d
        | none => (s.readAll c (reads ++ pay)).deferLoan c

def Ctx.flFolio (c : Ctx) : Nat := c.fld 95 64
def Ctx.flOp (c : Ctx) : Nat := c.fld 103 96
def Ctx.flSeq (c : Ctx) : Nat := c.fld 127 112
def Ctx.flLayer (c : Ctx) : Nat := c.fld 135 128
def Ctx.flHead (c : Ctx) : Nat := c.fld 143 136
def Ctx.flFirst (c : Ctx) : Nat := c.fld 191 160
def Ctx.flCount (c : Ctx) : Nat := c.fld 223 192

/-- An entry a FOLIO_LOAN range names: where its folio number lies, its index, the folio, and the table: layer, number, HEAD_DIM. -/
structure LoanEntry where
  address : Nat
  index   : Nat
  folio   : Nat
  layer   : Nat := 0
  table   : Nat := 0
  headDim : Nat := 1
deriving DecidableEq, Repr

/-- The entries of one table in a range, empty ones left out, ascending: in a windowed table also the global-list entries by entry index (R336). -/
def State.tableRange (s : State) (d : DirEntry) (win : Bool) (layer x first count : Nat) : List LoanEntry :=
  let top := if win then min (first + count) d.entries else first + count
  let ring := ((List.range (top - first)).map (fun i =>
    let a := d.entry win x (first + i)
    (⟨a, first + i, s.rdNat a 4, layer, x, d.headDim⟩ : LoanEntry))).filter (fun e => e.folio != noFolio)
  let globals := if win then
      ((s.globalList d x).filter (fun g => decide (first ≤ g.2.1) && decide (g.2.1 < first + count))).map (fun g =>
        (⟨d.table x + 8 * g.1 + 4, g.2.1, g.2.2, layer, x, d.headDim⟩ : LoanEntry))
    else []
  sortBy (fun a b => decide (a.index ≤ b.index)) (globals ++ ring)

/-- Every entry a FOLIO_LOAN range names, in the order layer, table, entry (R203, R325), and the reads. -/
def State.loanRange (s : State) (c : Ctx) : Except DFault (List LoanEntry × List Ext) :=
  match s.jobOf c with
  | none => .error (flt fBadManifest)
  | some j =>
    if j.sequences ≤ c.flSeq then .error (flt fBadField)
    else
      let every := c.flLayer == 0xFF
      let layers := if every then (List.range j.layers).filter (fun n => (s.dirEntry j c.flSeq n).addr != 0) else [c.flLayer]
      match (if every then s.readFault ((List.range j.layers).flatMap (s.dirReads j c.flSeq)) else none) with
      | some e => .error e
      | none => layers.foldl (fun acc n => match acc with
        | .error e => .error e
        | .ok (es, xs) =>
          match s.tableOf c (flt fBadField) c.flSeq n (if c.flHead = 0xFF then 0 else c.flHead) with
          | .error e => .error e
          | .ok (_, d, win) =>
            if win = false ∧ d.entries < c.flFirst + c.flCount then .error (flt fBadField)
            else
              let tabs := if c.flHead = 0xFF then List.range d.tables else [c.flHead]
              let ys := (if win then tabs.map (fun x => (d.table x, 512)) else []) ++
                tabs.map (fun x => (d.entry win x c.flFirst, 4 * (min (c.flFirst + c.flCount) d.entries - c.flFirst)))
              match s.readFault ys with
              | some e => .error e
              | none => .ok (es ++ tabs.flatMap (fun x => s.tableRange d win n x c.flFirst c.flCount), xs ++ s.dirReads j c.flSeq n ++ ys)) (.ok ([], []))

/-- The entries of a FOLIO_LOAN in either form. -/
def State.loanEntries (s : State) (c : Ctx) : Except DFault (List LoanEntry × List Ext) :=
  if c.flFolio ≠ noFolio then .ok ([{ address := 0, index := 0, folio := c.flFolio }], []) else s.loanRange c

/-- Decode a FOLIO_LOAN (R203, R204, R323). -/
def State.folioLoanDesc (s : State) (c : Ctx) : State :=
  let single := c.flFolio != noFolio
  match (s.headerFault c [(104, 111), (144, 159), (224, 511)] [] false false).or (firstFault [
      (single && c.fld 223 112 != 0, flt fBadField),
      (!single && (c.flCount == 0 || decide (262144 < c.flCount)), flt fBadField)]) with
  | some d => s.descFault c d
  | none => match s.loanEntries c with
    | .error d => s.descFault c d
    | .ok (es, reads) =>
      let bad := es.find? (fun e => s.folioBad c.wing e.folio &&
        !(single && c.flOp == 2 && folioWing e.folio == c.wing && s.folioExists e.folio && (s.side e.folio).loans == 0))
      match bad with
      | some e => s.descFault c ⟨fBadFolio, leBytes 4 e.folio ++ leBytes 4 e.index⟩
      | none =>
        let reads := reads ++ es.flatMap (fun e => s.sideRead e.folio)
        match s.readFault reads with
        | some d => s.descFault c d
        | none => (s.readAll c reads).deferLoan c

/-- FOLIO_COPY (R202). -/
def execFolioCopy (hall slot : Nat) (s : State) : Host.Outcome State Fault Refusal :=
  .next (keepWork s (s.onDesc hall slot (fun c => c.op == 0x0A) State.folioCopyDesc))

/-- FOLIO_LOAN, TAKE (R204). -/
def execFolioLoanTake (hall slot : Nat) (s : State) : Host.Outcome State Fault Refusal :=
  .next (keepWork s (s.onDesc hall slot (fun c => c.op == 0x0B && c.flOp == 1) State.folioLoanDesc))

/-- FOLIO_LOAN, RELEASE (R204). -/
def execFolioLoanRelease (hall slot : Nat) (s : State) : Host.Outcome State Fault Refusal :=
  .next (keepWork s (s.onDesc hall slot (fun c => c.op == 0x0B && c.flOp == 2) State.folioLoanDesc))

/-! ### The package's checks (R205) -/

/-- LAYOUT of a folio that a take sets (R310, R321). -/
def layoutOf (headDim table : Nat) : Nat := if headDim = 0 then 1 else if headDim = 1 then 0 else 2 + table % 2

/-- Copy a folio, payload and side record, into a folio from the wing's free list (R202, R204); the take sets LAYER, TABLE and LAYOUT by the table that takes it, given as layer, table and HEAD_DIM (R310, R317). -/
def State.copyFolio (s : State) (c : Ctx) (f : Nat) (into : Option (Nat × Nat × Nat)) : Option (Nat × State) :=
  let x := match into with
    | some t => { s.side f with layer := t.1, table := t.2.1, layout := layoutOf t.2.2 t.2.1 }
    | none => s.side f
  match s.takeFolio c.wing (folioHalf f) x with
  | none => none
  | some (g, t) => some (g, t.writeAll c [(s.folioAddr g, s.rd (s.folioAddr f) (folioBytes f))])

/-- An edit of a table, made at the seal. -/
def State.edit (s : State) (a v : Nat) : State :=
  { s with folio := { s.folio with edits := s.folio.edits ++ [⟨a, v⟩] } }

/-- The table that a FOLIO_COPY takes a folio for: the one whose entry it copies or updates (R202, R310); by number alone, none. -/
def State.copyTable (s : State) (c : Ctx) : Option (Nat × Nat × Nat) :=
  if c.fcSrc ≠ noFolio ∧ c.fcUpdate = false then none
  else (s.jobOf c).map (fun j => (c.fcLayer, c.fcTable, (s.dirEntry j c.fcSeq c.fcLayer).headDim))

/-- The check and effect of a FOLIO_COPY: the take first, then RELEASE_SRC (R202, R204, R205). A source that an earlier descriptor of the order has freed is BAD_FOLIO (R323). -/
def State.copyCheck (s : State) (c : Ctx) (recId : Nat) : Except DFault State :=
  match s.copySource c with
  | .error d => .error d
  | .ok (f, entry, _) =>
    if (s.side f).loans = 0 ∧ !(c.fcRelease && c.fcSrc != noFolio) then .error ⟨fBadFolio, leBytes 4 f ++ leBytes 4 c.fcIndex⟩
    else match s.copyFolio c f (s.copyTable c) with
    | none => .error (flt 0x3610)
    | some (g, t) =>
      let t := match entry with
        | some a => if c.fcUpdate then t.edit a g else t
        | none => t
      let t := t.updRec c.hall c.slot recId (fun r => { r with detail0 := g })
      if c.fcRelease then
        if (t.side f).loans = 0 then .error (flt fLoanUnderflow) else .ok (t.releaseLoan f)
      else .ok t

/-- One entry of a FOLIO_LOAN (R204); a folio that an earlier descriptor of the order has freed cannot be taken (R323). Answers the state, loans changed and copies made. -/
def State.loanOne (s : State) (c : Ctx) (e : LoanEntry) : Except DFault (State × Nat × Nat) :=
  let x := s.side e.folio
  if c.flOp = 2 then
    if x.loans = 0 then .error (flt fLoanUnderflow) else .ok (s.releaseLoan e.folio, 1, 0)
  else if x.loans = 0 then .error ⟨fBadFolio, leBytes 4 e.folio ++ leBytes 4 e.index⟩
  else if x.loans < 65534 then .ok (s.addLoan e.folio, 1, 0)
  else if c.flFolio ≠ noFolio then .error (flt fLoanCeiling)
  else match (s.readFault (s.sideRead e.folio)).or (s.dataFault (s.folioRead e.folio)), (s.readAll c (s.folioRead e.folio)).copyFolio c e.folio (some (e.layer, e.table, e.headDim)) with
    | some d, _ => .error d
    | none, none => .error (flt 0x3610)
    | none, some (g, t) => .ok ((t.edit e.address g).countDue c.wing (0x7100 + c.wing) 0x0C 1, 0, 1)

/-- The check and effect of a FOLIO_LOAN. -/
def State.loanCheck (s : State) (c : Ctx) (recId : Nat) : Except DFault State :=
  match s.loanEntries c with
  | .error d => .error d
  | .ok (es, _) =>
    let r := es.foldl (fun acc e => match acc with
      | .error d => .error d
      | .ok (t, n, k) => match t.loanOne c e with
        | .error d => .error d
        | .ok (t', a, b) => .ok (t', n + a, k + b)) (Except.ok (s, 0, 0))
    match r with
    | .error d => .error d
    | .ok (t, n, k) => .ok (t.updRec c.hall c.slot recId (fun x => { x with detail0 := n, detail1 := k }))

/-- The order key of R205 and R325. -/
def LoanOp.key (o : LoanOp) : Nat := Ctx.orderKey ⟨o.hall, o.slot, o.wing, o.pos, o.desc⟩

/-- A slot holds, in the committed state of a ring, folios on loan (R359). -/
def heldSlot (r : Ring) (x : RSlot) : Bool := r.isOpen && x.st == 2 && x.folios != []

/-- What one slot of a ring changes at this seal, its committed contents and ring given (R359): loans for a slot that became full, releases for one that was emptied. A slot of a ring that closes takes none. -/
def slotChanges (old now : Ring) (x y : RSlot) : List LoanChange :=
  let was := heldSlot old x
  let is := heldSlot now y && now.inHall && !now.closing && (!was || y.emptier.isSome)
  (match was, y.emptier with
    | true, some k => x.folios.map (fun f => ⟨k, x.fill, f, false⟩)
    | _, _ => []) ++ (if is then y.folios.map (fun f => ⟨y.filler, y.fill, f, true⟩) else [])

/-- The changes of loan counts that gathered slots make (R359). -/
def State.gatherChanges (s : State) : List LoanChange :=
  s.work.rings.flatMap (fun e =>
    let old := mget {} s.work.ringsSeal e.1
    (e.2.slots.zipIdx).flatMap (fun y => slotChanges old e.2 ((old.slots[y.2]?).getD { st := 0, tag := 0, len := 0, sender := 0, beat := 0, landed := false, folios := [] }) y.1))

/-- One change of a loan count: a gather's take past the ceiling faults the gather (R324, R359, log entry 199). -/
def State.changeLoan (s : State) (x : LoanChange) : State × Bool :=
  if !x.take then (s.releaseLoan x.folio, false)
  else if (s.side x.folio).loans < 65534 then (s.addLoan x.folio, false)
  else
    let hall := x.key / 65536 / 64
    let slot := x.key / 65536 % 64
    let q := s.seq hall slot
    (s.descFault ⟨hall, slot, q.wing, x.key % 65536, (q.program[x.key % 65536]?).getD 0⟩ (flt fLoanCeiling), true)

/-- Everything that changes loan counts in the beat, by order key and place (R325): a deferred descriptor, or a change. -/
def State.loanOrder (s : State) : List ((Nat × Nat) × (LoanOp ⊕ LoanChange)) :=
  sortBy (fun a b => decide (a.1.1 < b.1.1) || (a.1.1 == b.1.1 && decide (a.1.2 ≤ b.1.2)))
    (s.folio.ops.map (fun o => ((o.key, 0), .inl o)) ++ (s.folio.changes ++ s.gatherChanges).map (fun x => ((x.key, x.sub), .inr x)))

/-- Make every change of loan counts of the beat in the order of hall, slot, position and place (R205, R325); the first descriptor that fails its check faults. -/
def State.settleLoans (s : State) : State :=
  if s.folio.settled then s
  else
    (s.loanOrder.foldl (fun (acc : State × Bool) e =>
      if acc.2 then acc
      else match e.2 with
        | .inr x => acc.1.changeLoan x
        | .inl o =>
          let c : Ctx := ⟨o.hall, o.slot, o.wing, o.pos, o.desc⟩
          match (if c.op = 0x0A then acc.1.copyCheck c o.recId else acc.1.loanCheck c o.recId) with
          | .ok v => (v, false)
          | .error d => (acc.1.descFault c d, true)) ({ s with folio := { s.folio with ops := [], changes := [], settled := true } }, false)).1

/-- No slot of the package is still working (R205). -/
def State.allStill (s : State) : Bool :=
  s.work.seqs.all (fun e => e.2.status != .running && e.2.status != .waiting)

/-- A live fill of a ring has lines to land. -/
def State.fillsLive (s : State) : Bool :=
  s.work.fills.any (fun f => let r := s.ring f.hall f.ring; r.isOpen && r.gen == f.tag && !f.dropped)

/-- Every beat program of the package has finished its work: programs sealed, arrays empty, fills landed (R82, R205). -/
def State.programsDone (s : State) : Bool :=
  !s.beat.dead && s.allStill && s.work.engines.all (fun e => e.2.empty) && !s.fillsLive

/-- FOLIO_LOAN_CHECKS (R205): after every beat program has finished its work. -/
def execFolioLoanChecks (s : State) : Host.Outcome State Fault Refusal :=
  .next (keepWork s (if s.programsDone then s.settleLoans else s))

/-! ### FOLIO_GATHER (R201, R354, R359) -/

def Ctx.fgSeq (c : Ctx) : Nat := c.fld 79 64
def Ctx.fgLayer (c : Ctx) : Nat := c.fld 87 80
def Ctx.fgTable (c : Ctx) : Nat := c.fld 95 88
def Ctx.fgFirst (c : Ctx) : Nat := c.fld 127 96
def Ctx.fgPlan (c : Ctx) : Nat := c.fld 159 128
def Ctx.fgSide (c : Ctx) : Bool := bitOf c.desc 168
def Ctx.fgPart (c : Ctx) : Nat := c.fld 170 169
def Ctx.fgRing (c : Ctx) : Nat := c.fld 183 176

/-- Bytes of a folio's entry in a slot (R354). -/
def Ctx.fgBytes (c : Ctx) (f : Nat) : Nat :=
  up64 ((if c.fgSide then 256 else 0) + (if c.fgPart = 0 then folioBytes f else folioBytes f / 2))

/-- Decode checks of FOLIO_GATHER (R201, R349). -/
def State.gatherFault (s : State) (c : Ctx) : Option DFault :=
  (s.headerFault c [(171, 175), (184, 511)] [] false false).or (firstFault [
    (planBad c.fgPlan 262144, flt fPlan),
    (c.fgPart == 3, flt fBadField),
    (s.producerBad c c.fgRing, flt fBadRing)])

/-- The folios a gather delivers and the reads that find them (R354, R323, R359). -/
def State.gatherList (s : State) (c : Ctx) (n : Nat) : Except DFault (List Nat × List Ext) :=
  match s.tableOf c (flt fAddress) c.fgSeq c.fgLayer c.fgTable with
  | .error d => .error d
  | .ok (j, d, win) =>
    if d.entries < c.fgFirst + n then .error (flt fAddress)
    else
      let fs := (List.range n).map (fun i => s.rdNat (d.entry win c.fgTable (c.fgFirst + i)) 4)
      match s.readFault [(d.entry win c.fgTable c.fgFirst, 4 * n)] with
      | some e => .error e
      | none => match (fs.zipIdx).find? (fun e => s.folioBad c.wing e.1) with
      | some e => .error ⟨fBadFolio, leBytes 4 e.1 ++ leBytes 4 (c.fgFirst + e.2)⟩
      | none =>
        if fs.any (fun f => decide (65534 ≤ (mget (freeSide f) s.folio.sealed.sides f).loans)) then .error (flt fLoanCeiling)
        else if fs.any (fun f => decide ((s.ring c.hall c.fgRing).slotSize < (if c.fgSide then 64 else 0) + c.fgBytes f)) then
          .error (flt fRingGeometry)
        else .ok (fs, s.dirReads j c.fgSeq c.fgLayer ++ [(d.entry win c.fgTable c.fgFirst, 4 * n)])

/-- Whole folios to a slot: the lists that one slot each takes (R354). -/
def Ctx.gatherSlots (c : Ctx) (size : Nat) (fs : List Nat) : List (List Nat) :=
  let head := if c.fgSide then 64 else 0
  let r := fs.foldl (fun (acc : List (List Nat) × List Nat × Nat) f =>
    let b := c.fgBytes f
    if acc.2.1 ≠ [] ∧ size < acc.2.2 + b then (acc.1 ++ [acc.2.1], [f], head + b)
    else (acc.1, acc.2.1 ++ [f], acc.2.2 + b)) ([], [], head)
  if r.2.1 = [] then r.1 else r.1 ++ [r.2.1]

/-- The 64-byte header of a slot with side records (R302, R354). -/
def Ctx.slotHeader (c : Ctx) (firstPos count : Nat) : List Byte :=
  fitBytes 64 (leBytes 4 firstPos ++ leBytes 4 (16 * count) ++ leBytes 2 c.fgSeq ++ leBytes 1 c.fgLayer ++ leBytes 1 c.fgTable ++ leBytes 1 c.fgPart)

/-- The bytes one folio contributes to a slot. -/
def State.gatherBytes (s : State) (c : Ctx) (f : Nat) : List Byte :=
  let pay := s.rd (s.folioAddr f) (folioBytes f)
  let tok := folioBytes f / 16
  let part := if c.fgPart = 0 then pay
    else (List.range 16).flatMap (fun t => (pay.drop (tok * t + (tok / 2) * (c.fgPart - 1))).take (tok / 2))
  fitBytes (c.fgBytes f) ((if c.fgSide then s.sideBytes f else []) ++ part)

/-- The bytes of one slot. -/
def State.gatherSlot (s : State) (c : Ctx) (fs : List Nat) : List Byte :=
  (if c.fgSide then c.slotHeader (s.side (fs.headD 0)).firstPos fs.length else []) ++ fs.flatMap (s.gatherBytes c)

/-- Fill the slots that are still to be filled, one after another while the tail slot is empty (R354). -/
def State.gatherGo (s : State) (c : Ctx) (fs : List Nat) (slots : List (List Nat)) : State :=
  let r := slots.foldl (fun (acc : State × Bool) g =>
    if acc.2 then acc
    else if !(acc.1.ring c.hall c.fgRing).tailEmpty then (acc.1, true)
    else
      let xs : List Ext := if c.fgSide then g.flatMap s.folioRead else g.map (fun f => (s.folioAddr f, folioBytes f))
      let t := (acc.1.readAll c xs).startFill c c.fgRing (s.gatherSlot c g) g
      let q := t.seq c.hall c.slot
      (t.setSeq c.hall c.slot { q with iter := q.iter + 1 }, false)) (s, false)
  if r.2 then r.1.holdRings c .fillSlot [c.fgRing] else r.1.done c fs.length fs.length 0 {}

/-- Decode a FOLIO_GATHER, or go on with one that waited for a slot. -/
def State.gatherDesc (s : State) (c : Ctx) : State :=
  match s.gatherFault c with
  | some d => s.descFault c d
  | none => match s.lens c [(c.fld 167 160, c.fgPlan)] with
    | .bad d => s.descFault c d
    | .noop => s.noop c
    | .ok lens => match s.gatherList c (lens.headD 0) with
      | .error d => s.descFault c d
      | .ok (fs, reads) =>
        let pays : List Ext := fs.map (fun f => (s.folioAddr f, folioBytes f))
        let heads := fs.flatMap s.sideRead
        match (s.readFault (reads ++ heads)).or (s.dataFault pays) with
        | some d => s.descFault c d
        | none =>
          let done := (s.seq c.hall c.slot).iter
          let t := if done = 0 then s.readAll c (reads ++ (if c.fgSide then [] else heads)) else s
          t.gatherGo c fs ((c.gatherSlots (s.ring c.hall c.fgRing).slotSize fs).drop done)

/-- FOLIO_GATHER (R354). -/
def execFolioGather (hall slot : Nat) (s : State) : Host.Outcome State Fault Refusal :=
  .next (keepCompute s (match s.readyOr hall slot [.fillSlot] with
    | some c => if c.op == 0x09 then s.issue c State.gatherDesc else s
    | none => s))

/-! ### Rebuilding pools (R315) -/

/-- Free every folio of a wing's pool and put its lists in ascending order (R315). -/
def State.rebuildPool (s : State) (wing : Nat) : State :=
  let keep := fun (m : SMap Side) => m.filter (fun e => folioWing e.1 != wing)
  let z := fun (x : Folios) => ({ sides := keep x.sides, full := mset {} x.full wing {}, half := mset {} x.half wing {} } : Folios)
  { s with folio := { s.folio with now := z s.folio.now, sealed := z s.folio.sealed } }

/-- IN_USE and FREE of a wing, as they stand (R338). -/
def State.publishPool (s : State) (w : Nat) : State :=
  (((s.put (0x7100 + w) 6 (s.freeList w false).inUse).put (0x7100 + w) 7 (s.freeList w true).inUse).put (0x7100 + w) 8 (s.freeCount w false)).put
    (0x7100 + w) 9 (s.freeCount w true)

end Sys2Proof.Machine
end

