-- ==== Sys2Proof/Machine/Append.lean ====
section
/-! DEFINITION. The append path (R326-R336): what the open of a beat reserves for chains with KV append, writing a token's part, and what the seal makes of it. -/

namespace Sys2Proof.Machine

open Sys2Proof

/-- A fresh folio of a table (R317). -/
def freshSide (fmt headDim layer table first : Nat) : Side :=
  { format := fmt, layout := layoutOf headDim table, layer := layer, table := table, firstPos := first }

/-- The global positions of a segment (R225). -/
def State.globalsOf (s : State) (g : Seg) : List Nat := (List.range g.gcount).map (fun i => s.rdNat (g.globals + 4 * i) 4)

/-- The reservation of an entry, where one was made. -/
def State.findAppend (s : State) (wing seq layer table entry : Nat) : Option Append :=
  s.folio.appends.find? (fun a => a.wing == wing && a.seq == seq && a.layer == layer && a.table == table && a.entry == entry)

/-- Note a reservation. -/
def State.addAppend (s : State) (a : Append) : State := { s with folio := { s.folio with appends := s.folio.appends ++ [a] } }

/-- A loan that the seal releases for an append (R328). -/
def State.dueRelease (s : State) (key f : Nat) : State := { s with folio := { s.folio with changes := s.folio.changes ++ [⟨key, s.folio.changes.length, f, false⟩] } }

/-- Places of a global list that are unused and not yet claimed in this beat (R330). -/
def State.freeGlobal (s : State) (d : DirEntry) (x : Nat) : Option Nat :=
  (List.range 64).find? (fun g => s.rdNat (d.table x + 8 * g) 4 == 0xFFFFFFFF && !s.folio.edits.any (fun e => e.address == d.table x + 8 * g))

/-- Reserve the folio of one entry for appends of a beat (R328-R330): `pos` is the first position appended there. -/
def State.reserveEntry (s : State) (c : Ctx) (key seq layer table pos : Nat) (gs : List Nat) : Except DFault State :=
  match s.tableOf c (flt fAddress) seq layer table with
  | .error d => .error d
  | .ok (j, d, win) =>
    let i := pos / 16
    match s.findAppend c.wing seq layer table i with
    | some _ => .ok s
    | none =>
      if win = false ∧ d.entries ≤ i then .error ⟨0x3A05, leBytes 2 seq ++ leBytes 1 table ++ leBytes 4 pos⟩
      else
        let slot := i % d.entries
        let addr := d.entry win table slot
        match s.readFault [(addr, 4)] with
        | some e => .error e
        | none =>
        let s := s.readAll c (s.dirReads j seq layer ++ [(addr, 4)])
        let old := s.rdNat addr 4
        let pay : List Ext := s.folioRead old
        let x := s.side old
        let base : Append := { wing := c.wing, seq := seq, layer := layer, table := table, entry := i, folio := old, first := 16 * i
                               keys0 := 0, values0 := 0, keys := 0, values := 0, reuse := false }
        let fresh : Except DFault State :=
          match s.takeFolio c.wing (fmtHalf d.fmt) (freshSide d.fmt d.headDim layer table (16 * i)) with
          | none => .error (flt fFreeList)
          | some (f, t) => .ok ((t.edit addr f).addAppend { base with folio := f })
        if old = noFolio then fresh
        else if s.folioBad c.wing old then .error ⟨fBadFolio, leBytes 4 old ++ leBytes 4 slot⟩
        else if (s.readFault (s.sideRead old)).isSome then .error ((s.readFault (s.sideRead old)).getD (flt fSource))
        else if x.firstPos = 16 * i ∨ win = false then
          let done : Append := { base with first := x.firstPos, keys0 := x.keys, values0 := x.values, keys := x.keys, values := x.values }
          if 1 < x.loans then
            match (s.readFault (s.sideRead old)).or (s.dataFault pay), (s.readAll c pay).copyFolio c old (some (layer, table, d.headDim)) with
            | some e, _ => .error e
            | none, none => .error (flt fFreeList)
            | none, some (f, t) => .ok ((((t.edit addr f).dueRelease key old).countDue c.wing (0x7100 + c.wing) 0x0A 1).addAppend { done with folio := f })
          else .ok (s.addAppend done)
        else if gs.any (fun p => decide (x.firstPos ≤ p) && decide (p < x.firstPos + min x.keys x.values)) then
          match s.readFault [(d.table table, 512)], s.freeGlobal d table with
          | some e, _ => .error e
          | none, none => .error ⟨0x3A02, leBytes 2 seq ++ leBytes 1 layer ++ leBytes 1 table⟩
          | none, some g => match fresh with
            | .error e => .error e
            | .ok t => .ok (((t.readAll c [(d.table table, 512)]).edit (d.table table + 8 * g) (x.firstPos / 16)).edit (d.table table + 8 * g + 4) old)
        else if 1 < x.loans then
          match fresh with
          | .error e => .error e
          | .ok t => .ok (t.dueRelease key old)
        else .ok ((s.addAppend { base with reuse := true }).countDue c.wing (0x7100 + c.wing) 0x0B 1)

/-- A CHAIN descriptor whose code includes K (R257). -/
def appendCode (desc : Nat) : Bool :=
  bits desc 7 0 == 2 && [0x0A, 0x0B, 0x0C, 0x0D, 0x0E, 0x0F, 0x29].contains (bits desc 253 248)

/-- Reserve what one chain appends (R325, R328): segment, table, entry. A group-wide chain reserves for its whole window, at rank 0. -/
def State.reserveChain (s : State) (c : Ctx) : Except DFault State :=
  match s.jobOf c, s.refLen c (c.fld 247 240) (c.fld 207 192) with
  | some j, .ok m =>
    let key := (c.hall * 64 + c.slot) * 65536 + c.pos
    let layer := c.fld 263 256
    let tables := (List.range (ceilDiv (c.fld 223 208) 128)).map (· + c.fld 271 264)
    (s.segs j).foldl (fun acc g =>
      let rows := min g.rows (m - g.first)
      if rows = 0 then acc
      else
        let gs := s.globalsOf g
        let entries := (List.range ((g.pos + rows - 1) / 16 - g.pos / 16 + 1)).map (· + g.pos / 16)
        tables.foldl (fun acc x => entries.foldl (fun acc i => match acc with
          | .error e => .error e
          | .ok t => State.reserveEntry t c key g.seq layer x (max g.pos (16 * i)) gs) acc) acc) (.ok s)
  | _, _ => .ok s

/-- Write one token's part into its folio (R327, R332): `vals` are the supplied values from index 0 of the part. Answers the tally. -/
def State.appendToken (s : State) (c : Ctx) (seq layer table pos part : Nat) (vals : List Val) : Except DFault (State × Tally) :=
  match s.findAppend c.wing seq layer table (pos / 16) with
  | none => .error ⟨0x3A01, leBytes 2 seq ++ leBytes 1 table ++ leBytes 4 pos⟩
  | some a =>
    let q := pos % 16
    if a.first ≠ 16 * (pos / 16) ∨ (if part = 0 then a.keys else a.values) ≠ q then
      .error ⟨0x3A01, leBytes 2 seq ++ leBytes 1 table ++ leBytes 4 pos⟩
    else
      let x := s.side a.folio
      let f := (Fmt.ofCode x.format).getD .int8
      let qs := (chunksOf 32 vals).map (fun b => quantBlock f (b ++ List.replicate (32 - b.length) (Val.zero false)))
      let x' := { x with scales := (qs.zipIdx).foldl (fun m e => mset 0 m (8 * q + 4 * part + e.2) e.1.scale) x.scales }
      let bytes := packCodes f (qs.flatMap QBlock.codes)
      let addr := s.folioAddr a.folio + (folioBytes a.folio / 16) * q + (folioBytes a.folio / 32) * part
      let t := (s.setSide a.folio x').writeAll c [(addr, bytes)]
      let upd := fun (y : Append) => if part = 0 then { y with keys := y.keys + 1 } else { y with values := y.values + 1 }
      let t := { t with folio := { t.folio with appends := updFirst (fun y => y == a) upd t.folio.appends } }
      .ok (t, ⟨0, qs.foldl (fun n b => n + b.sats) 0, (qs.filter QBlock.special).length⟩)

/-- What the seal makes of the appends (R328, R333): FIRST_POS of a reused folio, done counts, GENERATION. -/
def State.landAppends (s : State) : State :=
  let t := s.folio.appends.foldl (fun (t : State) a =>
    let x := t.side a.folio
    if a.reuse ∨ a.keys ≠ a.keys0 ∨ a.values ≠ a.values0 then
      t.setSide a.folio { x with firstPos := a.first, keys := a.keys, values := a.values, gen := (x.gen + 1) % 2 ^ 32 }
    else t) s
  { t with folio := { t.folio with appends := [] } }

/-- Table edits due at the seal (R328); of 4 bytes, they gather in merge entries (R382). -/
def State.landEdits (s : State) : State :=
  let es := s.folio.edits
  let t := { s with folio := { s.folio with edits := [] } }
  es.foldl (fun t e => (t.plainSectors none e.address 4).outsideWrite 102 e.address (leBytes 4 e.value)) t

end Sys2Proof.Machine
end

