-- ==== Sys2Proof/Machine/Real.lean ====
section
/-! DEFINITION. Correctly rounded transcendental functions (R137, R261, R262): fixed-point evaluation at 768 fraction bits with a margin of 2^-600, so an enclosure of the exact result; the rounded value is taken where both ends of the enclosure round alike. By irrationality of these functions at the arguments left, a finer enclosure would always decide; where this one does not, the result is a free value of Config. -/

namespace Sys2Proof.Machine

/-- Fraction bits of the fixed-point evaluations. -/
def fixF : Nat := 768

/-- One in fixed point. -/
def fixOne : Int := 2 ^ fixF

def fixMul (a b : Int) : Int := a * b / 2 ^ fixF
def fixDiv (a b : Int) : Int := a * 2 ^ fixF / b

/-- A value as a fixed-point number, rounded down. -/
def fixOf (n : Bool) (m : Nat) (e : Int) : Int :=
  let k := e + fixF
  Val.sgnInt n (if 0 ≤ k then m <<< k.toNat else m >>> (-k).toNat)

/-- Sum of a series whose next term is made from the last: `step i t`, n terms. -/
def series (step : Nat → Int → Int) : Nat → Nat → Int → Int → Int
  | 0, _, _, acc => acc
  | n + 1, i, t, acc => series step n (i + 1) (step i t) (acc + t)

/-- 2·atanh(y) = 2(y + y³/3 + …) for |y| ≤ 1/3. -/
def fixAtanh2 (y : Int) : Int :=
  let y2 := fixMul y y
  2 * (((List.range 260).foldl (fun (s : Int × Int) i =>
    (fixMul s.1 y2, s.2 + s.1 / ((2 * i + 1 : Nat) : Int))) (y, 0)).2)

/-- atan(1/k) for an integer k ≥ 5. -/
def fixAtanInv (k : Int) : Int :=
  ((List.range 180).foldl (fun (s : Int × Int) i =>
    (-(s.1 / (k * k)), s.2 + s.1 / ((2 * i + 1 : Nat) : Int))) (fixOne / k, 0)).2

def fixLn2 : Int := fixAtanh2 (fixOne / 3)

/-- π by Machin's formula. -/
def fixPi : Int := 16 * fixAtanInv 5 - 4 * fixAtanInv 239

/-- e^z for a reduced |z| ≤ 1: Taylor at z/256, then eight squarings. -/
def fixExpSmall (z : Int) : Int :=
  let y := z / 256
  let t := series (fun i t => fixMul t y / ((i + 1 : Nat) : Int)) 90 0 fixOne 0
  (List.range 8).foldl (fun v _ => fixMul v v) t

/-- e^z as v × 2^k with v in fixed point near one. -/
def fixExp (z : Int) : Int × Int :=
  let k := (z + fixLn2 / 2) / fixLn2
  (fixExpSmall (z - k * fixLn2), k)

/-- ln of a mantissa m / 2^w in [1, 2). -/
def fixLnMant (m w : Nat) : Int :=
  let x : Int := (m : Int) * 2 ^ fixF / 2 ^ w
  fixAtanh2 (fixDiv (x - fixOne) (x + fixOne))

/-- Sine and cosine of a reduced |z| ≤ 1 in fixed point. -/
def fixSin (z : Int) : Int :=
  let z2 := fixMul z z
  ((List.range 90).foldl (fun (s : Int × Int) i =>
    (-(fixMul s.1 z2) / (((2 * i + 2) * (2 * i + 3) : Nat) : Int), s.2 + s.1)) (z, 0)).2

def fixCos (z : Int) : Int :=
  let z2 := fixMul z z
  ((List.range 90).foldl (fun (s : Int × Int) i =>
    (-(fixMul s.1 z2) / (((2 * i + 1) * (2 * i + 2) : Nat) : Int), s.2 + s.1)) (fixOne, 0)).2

/-- The margin of an evaluation: 2^-600. -/
def fixMargin : Int := 2 ^ 168

/-- An enclosure of an exact result. -/
structure Encl where
  lo : Val
  hi : Val
deriving DecidableEq, Repr

/-- The enclosure of a fixed-point result times 2^k. -/
def Encl.ofFix (v k : Int) : Encl :=
  { lo := Val.ofInt (v - fixMargin) (k - fixF), hi := Val.ofInt (v + fixMargin) (k - fixF) }

/-- The enclosure of a result whose magnitude lies above (up) or below m × 2^e by less than one part in 2^k. -/
def Encl.near (k : Nat) (up : Bool) (n : Bool) (m : Nat) (e : Int) : Encl :=
  let x : Val := .fin n (m <<< k) (e - k)
  let y : Val := .fin n (if up then m <<< k + m else m <<< k - m) (e - k)
  { lo := x, hi := y }

/-- Enclosures times an exact value of magnitude m × 2^e. -/
def Encl.mulVal (a : Val) (x : Encl) : Encl := { lo := a.mul x.lo, hi := a.mul x.hi }

/-- Round the enclosed result (R8); `fn` and the operand name the free value where the ends differ. -/
def Encl.round (rnd : Val → Val) (fn : Nat) (m : Nat) (e : Int) (x : Encl) : Val :=
  if rnd x.lo = rnd x.hi then rnd x.lo
  else rnd (.fin false (Config.undecided fn m e) (-64))

/-- exp2 (R137). -/
def f32exp2 : Val → Val
  | .nan => .nan
  | .inf n => if n then .zero false else .inf false
  | .fin n m e =>
    if m = 0 then .one
    else if (Val.fin n m e).lt (.fin true 126 0) then .zero false
    else if !(Val.fin n m e).lt (.fin false 128 0) then .inf false
    else
      let x := fixOf n m e
      let k := x / fixOne
      let f := x - k * fixOne
      if f = 0 ∧ -fixF ≤ e then .fin false 1 k
      else (Encl.ofFix (fixExpSmall (fixMul f fixLn2)) k).round round32 1 m e

/-- log2 (R137). -/
def f32log2 : Val → Val
  | .nan => .nan
  | .inf n => if n then .nan else .inf false
  | .fin n m e =>
    if m = 0 then .inf true
    else if n then .nan
    else
      let w := Nat.log2 m
      let l := leadExp m e
      if m = 2 ^ w then Val.ofInt l 0
      else (Encl.ofFix (l * fixOne + fixDiv (fixLnMant m w) fixLn2) 0).round round32 2 m e

/-- tanh (R137). -/
def f32tanh : Val → Val
  | .nan => .nan
  | .inf n => .fin n 1 0
  | .fin n m e =>
    if m = 0 then .zero n
    else
      let l := leadExp m e
      let r :=
        if l < -60 then (Encl.near 100 false false m e).round round32 3 m e
        else if 6 ≤ l then (Encl.near 100 false false 1 0).round round32 3 m e
        else
          let x := fixExp (2 * fixOf false m e)
          let v := if 0 ≤ x.2 then x.1 * 2 ^ x.2.toNat else x.1 / 2 ^ (-x.2).toNat
          (Encl.ofFix (fixDiv (v - fixOne) (v + fixOne)) 0).round round32 3 m e
      if n then r.neg else r

/-- The reduced angle and quadrant of a positive fixed-point angle given exactly as m × 2^e. -/
def reduceAngle (m : Nat) (e : Int) : Int × Int :=
  let x := fixOf false m e
  let h := fixPi / 2
  let q := (x + h / 2) / h
  (x - q * h, q % 4)

/-- cos and sin of an exact XF angle, correctly rounded to XF (R261). The angle's magnitude is below 2^160, so the error of the reduction stays within the margin. -/
def xfCosSin : Val → Val × Val
  | .nan => (.nan, .nan)
  | .inf _ => (.nan, .nan)
  | .fin n m e =>
    if m = 0 then (.one, .zero n)
    else
      let l := leadExp m e
      let cs : Val × Val :=
        if l < -150 then
          ((Encl.near 299 false false 1 0).round roundXf 4 m e, (Encl.near 299 false false m e).round roundXf 5 m e)
        else
          let r := reduceAngle m e
          let s := fixSin r.1
          let c := fixCos r.1
          let cv := if r.2 = 0 then c else if r.2 = 1 then -s else if r.2 = 2 then -c else s
          let sv := if r.2 = 0 then s else if r.2 = 1 then c else if r.2 = 2 then -s else -c
          ((Encl.ofFix cv 0).round roundXf 4 m e, (Encl.ofFix sv 0).round roundXf 5 m e)
      (cs.1, if n then cs.2.neg else cs.2)

/-- a / (1 + e^(-z)) for z in fixed point, rounded once by `rnd`: the shared form of silu and gelu_tanh (R262, R278). -/
def sigmoidTimes (rnd : Val → Val) (fn : Nat) (n : Bool) (m : Nat) (e : Int) (z : Int) : Val :=
  if 600 * fixOne < z then (Encl.near 299 false n m e).round rnd fn m e
  else if z < -(92000 * fixOne) then .zero n
  else if z.natAbs < 2 ^ (fixF - 400) then (Encl.near 299 (decide (0 ≤ z)) n m (e - 1)).round rnd fn m e
  else
    let x := fixExp (-z)
    -- 1 + v 2^k, then the quotient a / (…) enclosed
    let d : Val := (Val.one).add (Val.ofInt x.1 (x.2 - fixF))
    let lo : Val := match d with | .fin _ dm de => .fin false (dm <<< 300 - dm) (de - 300) | v => v
    let hi : Val := match d with | .fin _ dm de => .fin false (dm <<< 300 + dm) (de - 300) | v => v
    let q (y : Val) : Val :=
      match y with
      | .fin _ dm de => let r := divSticky 400 m e dm de
                        .fin n r.1 r.2
      | v => v
    ({ lo := q hi, hi := q lo } : Encl).round rnd fn m e

/-- silu with one rounding of the exact function, to XF (R262) or to a match-separate intermediate (R278); the limit at -∞ is -0. -/
def silu (rnd : Val → Val) : Val → Val
  | .nan => .nan
  | .inf n => if n then .zero true else .inf false
  | .fin n m e =>
    if m = 0 then .zero n
    else if 20 < leadExp m e then (if n then .zero true else (Encl.near 299 false n m e).round rnd 6 m e)
    else if leadExp m e < -300 then (Encl.near 299 (!n) n m (e - 1)).round rnd 6 m e
    else sigmoidTimes rnd 6 n m e (fixOf n m e)

/-- gelu_tanh with one rounding of the exact function (R262, R278): 0.5a(1 + tanh y) = a / (1 + e^(-2y)); the limit at -∞ is -0. -/
def geluTanh (rnd : Val → Val) : Val → Val
  | .nan => .nan
  | .inf n => if n then .zero true else .inf false
  | .fin n m e =>
    if m = 0 then .zero n
    else if 20 < leadExp m e then (if n then .zero true else (Encl.near 299 false n m e).round rnd 7 m e)
    else if leadExp m e < -300 then (Encl.near 299 (!n) n m (e - 1)).round rnd 7 m e
    else
      let a := fixOf n m e
      let root : Int := isqrt (fixDiv (2 * fixOne) fixPi).toNat * 2 ^ (fixF / 2)
      let a3 := fixMul a (fixMul a a)
      let z := 2 * fixMul root (a + a3 * 44715 / 1000000)
      sigmoidTimes rnd 7 n m e z

/-- The squared ReLU Z with one rounding of the exact function (R262, R278). -/
def relu2 (rnd : Val → Val) : Val → Val
  | .nan => .nan
  | .inf n => if n then .zero false else .inf false
  | .fin n m e => if n ∨ m = 0 then .zero false else rnd ((Val.fin n m e).mul (.fin n m e))

end Sys2Proof.Machine
end

