-- ==== Sys2Proof/Machine/Rowstat.lean ====
section
/-! DEFINITION. Row-statistic registers (R162) and ROWSTAT (R197). -/

namespace Sys2Proof.Machine

open Sys2Proof

/-- The XF code of a row-statistic register: a value written since the beat opened, else what the open left there, a free value after the first open (R162, log entry 17). -/
def Core.rsCode (c : Core) (row : Nat) : Nat :=
  match mget 0 c.rowstat row with
  | 0 => if c.rsDraw = 0 then 0 else (Config.freeValue (c.rsDraw - 1) >>> (83 * row)) % 2 ^ 83
  | k + 1 => k

/-- The value of a register. -/
def Core.rsVal (c : Core) (row : Nat) : Val := decodeElem .xf (c.rsCode row)

/-- Write a register. -/
def Core.rsPut (c : Core) (row code : Nat) : Core := { c with rowstat := mset 0 c.rowstat row (code + 1) }

/-- The row-statistic registers of a slot's core. -/
def State.slotCore (s : State) (hall slot : Nat) : Core := s.core hall ((s.coreOf hall slot).getD 63)

def State.setSlotCore (s : State) (hall slot : Nat) (c : Core) : State := s.setCore hall ((s.coreOf hall slot).getD 63) c

/-- Add a value into a register in XF (R138, R169). -/
def Core.rsAdd (c : Core) (row : Nat) (v : Val) : Core := c.rsPut row (convert .xf false (foldXf (c.rsVal row) v)).code

/-! ### ROWSTAT -/

def Ctx.rsop (c : Ctx) : Nat := c.fld 71 64
def Ctx.rsFirst (c : Ctx) : Nat := c.fld 95 80
def Ctx.rsPlan (c : Ctx) : Nat := c.fld 111 96
def Ctx.rsLoc (c : Ctx) : Opnd := Opnd.of (c.fld 159 128)

/-- Decode checks of ROWSTAT (R178, R197). -/
def State.rowstatFault (s : State) (c : Ctx) : Option DFault :=
  let loc := c.rsLoc
  let absent := opAbsent (c.fld 159 128)
  (s.headerFault c [(72, 79), (120, 127), opReserved 128, (160, 511)] [] false false).or (firstFault [
    (planBad c.rsPlan 4096, flt fPlan),
    (decide (4095 < c.rsFirst) || decide (4096 < c.rsFirst + c.rsPlan), flt fBadField),
    (absent != (c.rsop == 1), flt fBadField),
    (!absent && (loc.code != 0xE || loc.scaled), flt fBadField),
    (!absent && s.opRange c loc (16 * c.rsPlan), flt fAddress),
    (!absent && s.opOverRing c loc c.slot (16 * c.rsPlan), flt fBadRing)])

/-- The registers a ROWSTAT names. -/
def Ctx.rsRows (c : Ctx) (n : Nat) : List Nat := (List.range n).map (· + c.rsFirst)

/-- RESET (R197): +0. -/
def State.rowstatReset (s : State) (c : Ctx) (n : Nat) : State :=
  let k := (c.rsRows n).foldl (fun k r => k.rsPut r 0) (s.slotCore c.hall c.slot)
  (s.setSlotCore c.hall c.slot k).done c n 0 0 {}

/-- READ (R197): the registers to LOC as consecutive XF values, once the chains that accumulate into them have finished (R260, log entry 23). -/
def State.rowstatRead (s : State) (c : Ctx) (n : Nat) : State :=
  if s.depends c [statPlace c.hall c.slot] then s.holdDep c [statPlace c.hall c.slot] else
  let k := s.slotCore c.hall c.slot
  let bytes := (c.rsRows n).flatMap (fun r => leBytes 16 (convert .xf false (k.rsVal r)).code)
  (s.writeAll c [(s.space c c.rsLoc c.slot + c.rsLoc.off, bytes)]).done c n 0 0 {}

/-- LOAD (R197): the registers from LOC. -/
def State.rowstatLoad (s : State) (c : Ctx) (n : Nat) : State :=
  let x : Ext := (s.space c c.rsLoc c.slot + c.rsLoc.off, 16 * n)
  if s.depends c [x] then s.holdDep c [x]
  else match s.dataFault [x] with
    | some d => s.descFault c d
    | none =>
      let bs := s.mem.deliverRange x.1 x.2
      let k := ((c.rsRows n).zipIdx).foldl (fun k e =>
        k.rsPut e.1 (convert .xf false (decodeElem .xf (leAt bs (16 * e.2) 16 % 2 ^ 83))).code) (s.slotCore c.hall c.slot)
      ((s.readAll c [x]).setSlotCore c.hall c.slot k).done c n 0 0 {}

/-- Decode a ROWSTAT and run it (R178, R184, R197). -/
def rowstatDesc (run : State → Ctx → Nat → State) (s : State) (c : Ctx) : State :=
  match s.rowstatFault c with
  | some d => s.descFault c d
  | none => match s.lens c [(c.fld 119 112, c.rsPlan)] with
    | .bad d => s.descFault c d
    | .noop => s.noop c
    | .ok lens => run s c (lens.headD 0)

/-- The slot decodes its next descriptor when that is a ROWSTAT of the operation. -/
def rowstat (op : Nat) (run : State → Ctx → Nat → State) (hall slot : Nat) (s : State) : State :=
  s.onDesc hall slot (fun c => c.op == 0x05 && c.rsop == op) (rowstatDesc run)

/-- ROWSTAT 0x01 RESET (R197). -/
def execRowstatReset (hall slot : Nat) (s : State) : Host.Outcome State Fault Refusal := .next (keepCompute s (rowstat 1 State.rowstatReset hall slot s))

/-- ROWSTAT 0x02 READ (R197). -/
def execRowstatRead (hall slot : Nat) (s : State) : Host.Outcome State Fault Refusal := .next (keepCompute s (rowstat 2 State.rowstatRead hall slot s))

/-- ROWSTAT 0x03 LOAD (R197). -/
def execRowstatLoad (hall slot : Nat) (s : State) : Host.Outcome State Fault Refusal := .next (keepCompute s (rowstat 3 State.rowstatLoad hall slot s))

end Sys2Proof.Machine
end

