-- ==== Sys2Proof/Machine/Chain.lean ====
section
/-! DEFINITION. Fused chains (08_fused_chains.md): the menu of chain codes (R257), the parameter block (R255, R256), adapters (R269-R273), and the epilogue in its fixed order, default and match-separate (R253, R259-R264, R275-R278). -/

namespace Sys2Proof.Machine

open Sys2Proof

/-! ### The menu -/

/-- The optional steps of a chain by their letters (R253). -/
inductive Step where
  | C | B | R | E | G | U | Z | S | L | T | K | X
deriving DecidableEq, Repr

/-- The steps of each chain code, 0x00-0x29 (R257). -/
def menu : List (List Step) := [
  [], [.C], [.B], [.C, .B], [.R], [.C, .R], [.R, .E], [.C, .R, .E], [.R, .L], [.R, .E, .L], [.R, .K], [.R, .E, .K], [.R, .L, .K],
  [.R, .E, .L, .K], [.C, .R, .K], [.C, .R, .E, .K], [.R, .G], [.C, .R, .G], [.R, .U], [.R, .Z], [.B, .U], [.C, .B, .U]] ++ [
  [.B, .G], [.C, .B, .G], [.S], [.S, .T], [.S, .L], [.S, .L, .T], [.S, .X], [.S, .T, .X], [.S, .L, .X], [.S, .L, .T, .X], [.C, .S],
  [.C, .S, .T], [.B, .S], [.B, .S, .T], [.X], [.R, .X], [.R, .G, .X], [.C, .B, .S, .T], [.E], [.E, .K]]

/-- The steps of a descriptor; a MATMUL has none. -/
def steps (desc : Nat) : List Step := if bits desc 7 0 = 2 then (menu[bits desc 253 248]?).getD [] else []

def hasStep (desc : Nat) (x : Step) : Bool := (steps desc).contains x

/-- MATCH_SEP (R188). -/
def matchSep (desc : Nat) : Bool := bits desc 7 0 == 2 && bitOf desc 254

/-! ### The parameter block (R255) -/

/-- The header line of a parameter block, as a number. -/
def blockLine (b : List Byte) : Nat := leAt b 0 64

def pInvN (w : Nat) : Val := decodeElem .fp32 (bits w 31 0)
def pEps (w : Nat) : Val := decodeElem .fp32 (bits w 63 32)
def pHeadCols (w : Nat) : Nat := 64 * 2 ^ bits w 65 64
def pStyle (w : Nat) : Bool := bitOf w 66
def pPairs (w : Nat) : Nat := bits w 79 72
def pNormFmt (w : Nat) : Nat := bits w 83 80
def pNormScaled (w : Nat) : Bool := bitOf w 84
def pArea (w : Nat) : Nat := bits w 119 96

/-- The normalisation runs in the prologue (R276). -/
def sepNorm (desc : Nat) : Bool := matchSep desc && hasStep desc .R

/-- Offsets of the gains and of the weight lines within a parameter block (R255). -/
def gainsOff (desc line : Nat) : Nat := 64 + (if hasStep desc .E then up64 (4 * pPairs line) else 0)
def linesOff (desc line : Nat) : Nat := gainsOff desc line + (if sepNorm desc then up64 (4 * bits desc 239 224) else 0)

/-- The bytes of the block at an address, all its parts: the weight lines follow (R255). -/
def State.blockAt (s : State) (desc p : Nat) : List Byte := s.rd p (linesOff desc (blockLine (s.rd p 64)))

/-- Frequency f_p of a block. -/
def blockFreq (b : List Byte) (i : Nat) : Val := decodeElem .fp32 (leAt b (64 + 4 * i) 4)

/-- The gain of K position k. -/
def blockGain (desc : Nat) (b : List Byte) (k : Nat) : Val := decodeElem .fp32 (leAt b (gainsOff desc (blockLine b) + 4 * k) 4)

/-- FP32 that is negative or not finite (R256). -/
def negOrSpecial (v : Val) : Bool := v.isSpecial || (v.isNeg && !v.isZero)

/-- The parameter block's checks (R256, R276): BAD_FIELD. -/
def paramBad (desc : Nat) (b : List Byte) : Bool :=
  let w := blockLine b
  let r := hasStep desc .R
  let e := hasStep desc .E
  let l := hasStep desc .L
  bits w 71 67 != 0 || bits w 95 85 != 0 || bits w 511 120 != 0 || bits w 65 64 == 3 ||
    (!r && bits w 63 0 != 0) || (r && (negOrSpecial (pInvN w) || negOrSpecial (pEps w))) ||
    (!e && bits w 79 64 != 0) || (e && (pPairs w == 0 || decide (pHeadCols w < 2 * pPairs w))) ||
    (!sepNorm desc && bits w 84 80 != 0) ||
    (sepNorm desc && !(match Fmt.ofCode (pNormFmt w) with | some f => f.native | none => false)) ||
    (!l && bits w 119 96 != 0) || (l && (pArea w % 64 != 0 || decide (coreSize < pArea w + 65536))) ||
    (e && (List.range (pPairs w)).any (fun i => (blockFreq b i).isSpecial))

/-- What the sequencer reads of a parameter block when it decodes the CHAIN (R256): its first line, and where that is in order its frequencies and gains. -/
def State.paramReads (s : State) (desc p : Nat) : List Ext :=
  let w := blockLine (s.rd p 64)
  (p, 64) :: ((if hasStep desc .E ∧ 2 * pPairs w ≤ pHeadCols w then [(p + 64, 4 * pPairs w)] else []) ++
    (if sepNorm desc then [(p + gainsOff desc w, 4 * bits desc 239 224)] else []))

/-! ### Adapters (R269-R271) -/

/-- An adapter as a run of rows sees it: none, not usable, or its record with RANK and SCALE. -/
inductive AdapterRef where
  | absent
  | bad
  | use (record rank scale : Nat)
deriving DecidableEq, Repr

/-- The entry of an adapter id in the job's table (R269). -/
def State.adapterRef (s : State) (c : Ctx) (j : Job) (id : Nat) : AdapterRef :=
  if id = 0xFFFF then .absent
  else if j.adapters ≤ id then .bad
  else
    let w := s.rdNat (j.adapterTable + 16 * id) 16
    let recAddr := bits w 47 0
    let rank := bits w 55 48
    if recAddr = 0 ∨ recAddr % 256 ≠ 0 ∨ bits w 63 56 ≠ 0 ∨ bits w 127 96 ≠ 0 ∨ rank < 8 ∨ 64 < rank ∨ rank % 8 ≠ 0 ∨
        (decodeElem .fp32 (bits w 95 64)).isSpecial ∨ s.inWindow c.wing recAddr 256 = false then .bad
    else .use recAddr rank (bits w 95 64)

/-- A projection entry of a store record (R270). -/
structure Proj where
  aOff : Nat
  bOff : Nat
  aFmt : Nat
  aScaled : Bool
  bFmt : Nat
  bScaled : Bool
  uFmt : Nat
  inDim : Nat
  res : Bool
deriving DecidableEq, Repr

def Proj.of (w : Nat) : Proj :=
  { aOff := bits w 31 0, bOff := bits w 63 32, aFmt := bits w 67 64, aScaled := bitOf w 68, bFmt := bits w 75 72, bScaled := bitOf w 76
    uFmt := bits w 83 80, inDim := bits w 103 88, res := bits w 71 69 != 0 || bits w 79 77 != 0 || bits w 87 84 != 0 || bits w 127 104 != 0 }

def State.proj (s : State) (recAddr p : Nat) : Proj := Proj.of (s.rdNat (recAddr + 16 * p) 16)

/-- The projection entry is unusable (R270). -/
def Proj.bad (p : Proj) (kPlan : Nat) : Bool :=
  p.aOff != 0 && (p.res || p.aOff % 64 != 0 || p.bOff % 64 != 0 || decide (8 < p.aFmt) || decide (8 < p.bFmt) || p.aFmt == 3 || p.bFmt == 3 ||
    (p.uFmt != 0x4 && p.uFmt != 0xA) || p.inDim != kPlan)

/-- A run of rows with one adapter, or none (R271): first row, rows, record (0: no adapter term), rank, scale. -/
structure Run where
  first : Nat
  rows  : Nat
  adapterId : Nat
  recAddr : Nat
  rank  : Nat
  scale : Nat
deriving DecidableEq, Repr

/-- Merge neighbouring segments of one adapter into runs. -/
def mergeRuns (l : List Run) : List Run :=
  l.foldl (fun acc r => match acc.getLast? with
    | some p => if p.adapterId = r.adapterId then acc.dropLast ++ [{ p with rows := p.rows + r.rows }] else acc ++ [r]
    | none => [r]) []

/-- The runs of rows 0 to m - 1 of a chain with L, or its NO_ADAPTER fault (R269-R271). -/
def State.adapterRuns (s : State) (c : Ctx) (j : Job) (m kPlan proj : Nat) : Except DFault (List Run × List Ext) :=
  let segs := (s.segs j).filter (fun g => decide (g.first < m))
  let tabs : List Ext := (segs.filter (fun g => decide (g.adapter < j.adapters))).map (fun g => (j.adapterTable + 16 * g.adapter, 16))
  let recs : List Ext := segs.filterMap (fun g => match s.adapterRef c j g.adapter with
    | .use r _ _ => some (r + 16 * proj, 16)
    | _ => none)
  let bad := segs.find? (fun g => match s.adapterRef c j g.adapter with
    | .bad => true
    | .absent => false
    | .use r _ _ => (s.proj r proj).bad kPlan)
  match (s.readFault tabs).or (s.readFault recs), bad with
  | some e, _ => .error e
  | none, some g => .error ⟨fNoAdapter, leBytes 2 g.index ++ leBytes 2 g.adapter⟩
  | none, none =>
    let runs := segs.map (fun g =>
      let rows := min g.rows (m - g.first)
      match s.adapterRef c j g.adapter with
      | .use r k sc => if (s.proj r proj).aOff = 0 then Run.mk g.first rows g.adapter 0 0 0 else Run.mk g.first rows g.adapter r k sc
      | _ => Run.mk g.first rows g.adapter 0 0 0)
    let reads : List Ext := segs.flatMap (fun g => match s.adapterRef c j g.adapter with
      | .use r _ _ => [(j.adapterTable + 16 * g.adapter, 16), (r + 16 * proj, 16)]
      | _ => [])
    .ok (mergeRuns runs, reads)

/-! ### Folds over whole lines -/

/-- A line as an operand of a product: format, element values, scales. -/
structure LineOp where
  fmt    : Fmt
  vals   : List Val
  scales : List Nat
deriving DecidableEq, Repr

/-- Read a line as an operand: n elements of a line of `len`. -/
def lineOp (f : Fmt) (scaled : Bool) (bs : List Byte) (n : Nat) : LineOp :=
  { fmt := f, vals := (lineCodes f bs n).map (decodeElem f), scales := lineScales f scaled bs n }

/-- Values in a format as an operand (R133, R134), quantised in blocks of 32 where scaled, with the saturations and the blocks written with scale 0xFF (R135, R140, R641). -/
def toFmt (f : Fmt) (scaled : Bool) (vs : List Val) : LineOp × Tally :=
  if scaled then
    let qs := (chunksOf 32 vs).map (quantBlock f)
    ({ fmt := f, vals := (qs.flatMap QBlock.codes).map (decodeElem f), scales := qs.map QBlock.scale },
     ⟨0, qs.foldl (fun n q => n + q.sats) 0, (qs.filter QBlock.special).length⟩)
  else
    let cs := vs.map (convert f false)
    ({ fmt := f, vals := cs.map (fun c => decodeElem f c.code), scales := (chunksOf 32 vs).map (fun _ => 0x7F) },
     ⟨0, (cs.filter Conv.sat).length, 0⟩)

/-! ### The epilogue (R253, R259-R263, R278) -/

/-- The format of a match-separate intermediate (R275). -/
def interFmt (desc : Nat) : Fmt :=
  let o := Opnd.of (bits desc 159 128)
  match Fmt.ofCode o.code with
  | some .bf16 => .bf16
  | some .fp16 => .fp16
  | some .fp32 => .fp32
  | _ => .bf16

/-- The rounding between steps: XF, or I in match-separate mode. -/
def stepRound (desc : Nat) : Val → Val := if matchSep desc then roundFmt (interFmt desc) else roundXf

/-- The partner of a rotated index and whether it is the first of its pair (R261); none outside every pair. -/
def ropePair (style : Bool) (pairs j : Nat) : Option (Nat × Nat × Bool) :=
  if style then
    if j < pairs then some (j, j + pairs, true) else if j < 2 * pairs then some (j - pairs, j - pairs, false) else none
  else if j / 2 < pairs then some (j / 2, (if j % 2 = 0 then j + 1 else j - 1), j % 2 == 0) else none

/-- Rotate a row's values (R261): columns at or beyond the row's end enter as +0. -/
def rotate (rnd : Val → Val) (block : List Byte) (pos : Nat) (vs : List Val) : List Val :=
  let line := blockLine block
  let head := pHeadCols line
  (vs.zipIdx).map (fun e =>
    let h := e.2 / head
    match ropePair (pStyle line) (pPairs line) (e.2 % head) with
    | none => e.1
    | some (i, other, first) =>
      let phi := (Val.ofInt pos 0).mul (blockFreq block i)
      let cs := xfCosSin phi
      let y := (vs[h * head + other]?).getD (.zero false)
      if first then rnd ((e.1.mul cs.1).sub (y.mul cs.2)) else rnd ((y.mul cs.2).add (e.1.mul cs.1)))

/-- The activation step (R262, R278), each function rounded once; G halves the columns. -/
def activate (desc : Nat) (rnd : Val → Val) (vs : List Val) : List Val :=
  if hasStep desc .G then
    (chunksOf 128 vs).flatMap (fun g => (List.range 64).filterMap (fun q => match g[q]?, g[64 + q]? with
      | some a, some u => some (rnd ((silu rnd a).mul u))
      | _, _ => none))
  else if hasStep desc .U then vs.map (geluTanh rnd)
  else if hasStep desc .Z then vs.map (relu2 rnd)
  else vs

/-- The factor r of a row: deferred in XF from a register's sum (R260). -/
def deferredR (line : Nat) (ss : Val) : Val := roundXf (roundXf ((ss.mul (pInvN line)).add (pEps line))).rsqrt

/-- The per-channel numbers of a column: bias and scale of its weight line (R189). -/
structure Channel where
  bias  : Val
  scale : Val
deriving DecidableEq, Repr

/-- What a row's epilogue takes beside the fold. -/
structure EpiIn where
  pos      : Nat
  /-- the factor r of the row (R260) -/
  r        : Val
  channels : List Channel
  residual : List Val
  /-- the adapter term v and its scale s, where the run has one (R273) -/
  adapter  : Option (List Val × Val)
deriving DecidableEq, Repr

/-- Steps C to L of a row (R253): the values that enter statistics and output conversion. -/
def epilogue (desc : Nat) (block : List Byte) (acc : List Val) (x : EpiIn) : List Val :=
  let sep := matchSep desc
  let rnd := stepRound desc
  let chan := fun (f : Val → Channel → Val) (vs : List Val) =>
    (vs.zipIdx).map (fun e => f e.1 ((x.channels[e.2]?).getD ⟨.zero false, .one⟩))
  let a := if sep then acc.map rnd else acc
  let a := if hasStep desc .C then chan (fun v c => rnd (v.mul c.scale)) a else a
  let a := if hasStep desc .B then chan (fun v c => rnd (v.add c.bias)) a else a
  let d := match x.adapter with
    | some (v, sc) => v.map (fun y => if sep then rnd ((rnd y).mul sc) else rnd (sc.mul y))
    | none => []
  let useR := hasStep desc .R && !sep
  let a := if useR then a.map (fun v => rnd (v.mul x.r)) else a
  let d := if useR then d.map (fun v => rnd (v.mul x.r)) else d
  let a := if hasStep desc .E then rotate rnd block x.pos a else a
  let d := if hasStep desc .E then rotate rnd block x.pos d else d
  let a := activate desc rnd a
  let a := if hasStep desc .S then (a.zipIdx).map (fun e => rnd (e.1.add ((x.residual[e.2]?).getD (.zero false)))) else a
  match x.adapter with
  | some _ => (a.zipIdx).map (fun e => rnd (e.1.add ((d[e.2]?).getD (.zero false))))
  | none => a

/-- The row statistic of a tile's columns (R263). -/
def rowPartial (vs : List Val) : Val := vs.foldl (fun p a => roundXf (p.add (a.mul a))) (.zero false)

/-- The elements of a K tile of a normalised row (R276, R278): ss and r from the whole row, elements from `first` on converted to NORM_FMT. -/
def normRow (line : Nat) (gains h : List Val) (first count : Nat) : LineOp × Tally :=
  let ss := h.foldl (fun a x => roundXf (a.add (x.mul x))) (.zero false)
  let t := round32 ((ss.mul (pInvN line)).add (pEps line))
  let r := f32rsqrt t
  let y := (h.zip gains).map (fun p => round32 ((round32 (p.1.mul r)).mul p.2))
  toFmt ((Fmt.ofCode (pNormFmt line)).getD .e4m3) (pNormScaled line) ((y.drop first).take count)

end Sys2Proof.Machine
end

