-- ==== Sys2Proof/Machine/Heavy.lean ====
section
/-! DEFINITION. MATMUL and CHAIN from decode to result row (R185-R191, R235-R239, R142-R169, R265, R266, R271-R273): checks, group-wide issue, array instructions, tiles with their check weights, rows with their comparison, epilogue, statistics, sends. -/

namespace Sys2Proof.Machine

open Sys2Proof

/-! ### Fields common to MATMUL and CHAIN -/

def isChain (desc : Nat) : Bool := bits desc 7 0 == 2
def hA (desc : Nat) : Opnd := Opnd.of (bits desc 95 64)
def hB (desc : Nat) : Opnd := Opnd.of (bits desc 127 96)
def hD (desc : Nat) : Opnd := Opnd.of (bits desc 159 128)
def hDAbsent (desc : Nat) : Bool := opAbsent (bits desc 159 128)
def hAPitch (desc : Nat) : Nat := bits desc 175 160
def hM (desc : Nat) : Nat := if isChain desc then bits desc 207 192 else bits desc 223 208
def hK (desc : Nat) : Nat := if isChain desc then bits desc 239 224 else bits desc 255 240
def hMRef (desc : Nat) : Nat := if isChain desc then bits desc 247 240 else bits desc 263 256
def hAux (desc : Nat) : Opnd := Opnd.of (bits desc 287 256)

/-- Bytes of a weight line and its pitch in bytes (R189). -/
def bLine (desc : Nat) : Nat :=
  lineBytes (hB desc).fmt (hB desc).scaled (hK desc) + (if hasStep desc .B then 4 else 0) + (if hasStep desc .C then 4 else 0)

def bPitch (desc : Nat) : Nat := if isChain desc then up64 (bLine desc) else 64 * bits desc 191 176

/-- Output columns of a whole window: with G half of N_PLAN (R258). -/
def outN (desc : Nat) : Nat := if hasStep desc .G then heavyN desc / 2 else heavyN desc

/-- First column and column count of a member (R167, R187, R237). -/
def memberCols (desc rank : Nat) : Nat × Nat :=
  if bitOf desc 49 then (256 * rank, min 256 (heavyN desc - 256 * rank)) else (0, heavyN desc)

/-- The same of its output columns. -/
def memberOut (desc rank : Nat) : Nat × Nat :=
  let c := memberCols desc rank
  if hasStep desc .G then (c.1 / 2, c.2 / 2) else c

/-- Elements of a D line as the member sees it (R187). -/
def dElems (desc : Nat) : Nat := dLineElems desc (hD desc).inHall (outN desc)

/-- The member's first element within a D line. -/
def dFirst (desc rank : Nat) : Nat := if bitOf desc 49 ∧ (hD desc).inHall then (memberOut desc rank).1 else 0

/-- Members of the descriptor's stage group, ascending; the slot alone where no group is loaded. -/
def State.groupSlots (s : State) (hall slot : Nat) : List Nat :=
  let ms := (s.seq hall slot).members
  if ms = [] then [slot] else ms

/-- The members a descriptor is issued to (R175). -/
def State.issueSlots (s : State) (c : Ctx) : List Nat := if c.group then s.groupSlots c.hall c.slot else [c.slot]

/-- The slot whose buffer a SPACE 0 A names (R181). -/
def State.aSlot (s : State) (c : Ctx) : Nat := (s.issueSlots c).headD c.slot

/-! ### Decode checks -/

/-- The format checks of R186, R191 and the menu. -/
def heavyFmtBad (desc : Nat) : Bool :=
  let ok := fun (o : Opnd) => scaleOk o && (match Fmt.ofCode o.code with | some f => f.heavy | none => false)
  !ok (hA desc) || !ok (hB desc) || !ok (hD desc)

/-- Constraints on shapes of chains (R258, R191, R190). -/
def chainFieldBad (desc members : Nat) : Bool :=
  let n := heavyN desc
  let loops1 := bits desc 327 320 == 0 && bits desc 391 384 == 0 && bits desc 455 448 == 0
  (hasStep desc .G && n % 128 != 0) ||
    (hasStep desc .K && hasStep desc .E && bitOf desc 272) ||
    (hasStep desc .T && (!loops1 || bits desc 52 50 != 0)) ||
    (hasStep desc .L && (n % 64 != 0 || decide (256 * members < n + 64))) ||
    (hDAbsent desc && !hasStep desc .K && !hasStep desc .X) ||
    (!hasStep desc .L && bits desc 291 288 != 0) || (!hasStep desc .X && bits desc 314 296 != 0) ||
    (!hasStep desc .S && !hasStep desc .K && bits desc 287 256 != 0)

/-- Advances of the last iteration over whole loops, which reach furthest (R183). -/
def lastIter (c : Ctx) : Iter :=
  (c.loops.foldl (fun (a : Iter) l => (a.1 + (l.count - 1) * l.s0, a.2.1 + (l.count - 1) * l.s1, a.2.2 + (l.count - 1) * l.s2)) (0, 0, 0))

/-- The member's rank within the descriptor's stage group (R165). -/
def State.rankOf (s : State) (c : Ctx) : Nat := (s.issueSlots c).findIdx (· == c.slot)

/-- B starts at the BASE of a ring: the block of each iteration is in the slot that the iteration takes (R351). -/
def State.bIsRing (s : State) (c : Ctx) : Bool := (s.ringAt c.hall (hB c.desc).inHall c.slot (hB c.desc).off).isSome

/-- Bytes of a member's B whose parameter block's first line is w (R189, R255). -/
def State.bExtent (s : State) (c : Ctx) (w : Nat) : Nat :=
  let cols := (memberCols c.desc (s.rankOf c)).2
  let head := if isChain c.desc then linesOff c.desc w else 0
  if cols = 0 then head else head + (cols - 1) * bPitch c.desc + bLine c.desc

/-- Bytes spanned by A, B (with a chain's parameter block, in a ring at least its fixed parts), D and the residual. -/
def State.heavyExtents (s : State) (c : Ctx) : Nat × Nat × Nat × Nat :=
  let d := c.desc
  (linesExtent (hM d) (hAPitch d) (lineBytes (hA d).fmt (hA d).scaled (hK d)),
   s.bExtent c (if isChain d && !s.bIsRing c then blockLine (s.rd (s.space c (hB d) c.slot + (hB d).off) 64) else 0),
   linesExtent (hM d) (heavyDPitch d) (lineBytes (hD d).fmt (hD d).scaled (dElems d)),
   linesExtent (hM d) (heavyDPitch d) (lineBytes (hAux d).fmt (hAux d).scaled (dElems d)))

/-- An operand over every iteration leaves its space, by its first and last (R181, R183). -/
def State.iterRange (s : State) (c : Ctx) (o : Opnd) (last extent : Nat) : Bool :=
  s.opRange c o extent || s.opRange c { o with off := o.off + 64 * last } extent

/-- What a source operand of a heavy descriptor names over its iterations (R343, R351, R644): the ring at its BASE, or no ring when no iteration overlaps one. -/
def State.heavyRing (s : State) (c : Ctx) (o : Opnd) (slot extent : Nat) (adv : Iter → Nat) : Option (Option Nat) :=
  match s.srcRing c o.inHall slot o.off extent with
  | some (some id) => some (some id)
  | none => none
  | some none =>
    if (s.openRings c.hall).isEmpty then some none
    else if c.allIters.any (fun i => !(s.ringsOver c.hall o.inHall slot (o.off + 64 * adv i) extent).isEmpty) then none
    else some none

def adv0 (i : Iter) : Nat := i.1
def adv1 (i : Iter) : Nat := i.2.1
def adv2 (i : Iter) : Nat := i.2.2

/-- The rings that A, B and the residual name for a member. -/
def State.heavyRings (s : State) (c : Ctx) : Option (Option Nat) × Option (Option Nat) × Option (Option Nat) :=
  let e := s.heavyExtents c
  (s.heavyRing c (hA c.desc) (s.aSlot c) e.1 adv0,
   s.heavyRing c (hB c.desc) c.slot e.2.1 adv1,
   if hasStep c.desc .S then s.heavyRing c (hAux c.desc) c.slot e.2.2.2 adv2 else some none)

/-- A consuming operand has a nonzero stride, or the descriptor a claim (R351). -/
def State.consumeBad (s : State) (c : Ctx) : Bool :=
  let r := s.heavyRings c
  let ring := fun (x : Option (Option Nat)) => match x with | some (some _) => true | _ => false
  let l := lastIter c
  let str := fun (f : Loop → Nat) => c.loops.any (fun x => f x != 0)
  (ring r.1 && (str Loop.s0 || l.1 != 0)) || (ring r.2.1 && str Loop.s1) || (ring r.2.2 && str Loop.s2) ||
    ((ring r.1 || ring r.2.1 || ring r.2.2) && c.claimUse != 0)

/-- The checks of the parameter block at an address of the member's B (R256), and that its lines stay in their space (R183). -/
def State.blockFault (s : State) (c : Ctx) (off p : Nat) : Option DFault :=
  (s.readFault (s.paramReads c.desc p)).or (firstFault [
    (paramBad c.desc (s.blockAt c.desc p), flt fBadField),
    (s.opRange c { hB c.desc with off := off } (s.bExtent c (blockLine (s.rd p 64))), flt fAddress)])

/-- Decode checks of a MATMUL or CHAIN for one member (R178, R185-R191, R235, R255-R258, R343, R351). -/
def State.heavyFault (s : State) (c : Ctx) : Option DFault :=
  let d := c.desc
  let n := (s.issueSlots c).length
  let l := lastIter c
  let e := s.heavyExtents c
  let res := if isChain d then [opReserved 64, opReserved 96, opReserved 128, (255, 255), (292, 295), (302, 303), (315, 319)] ++ loopReserved ++
      (if hasStep d .S then [opReserved 256] else []) ++ (if hasStep d .K then [(273, 287)] else [])
    else [opReserved 64, opReserved 96, opReserved 128, (272, 319)] ++ loopReserved
  let v2 := if isChain d then [(254, 254), (448, 511)] else [(448, 511)]
  let pBase := s.space c (hB d) c.slot
  (s.headerFault c res v2 true true).or ((firstFault [
    (isChain d && decide (0x29 < bits d 253 248), flt fChainCode),
    (planBad (hM d) 4096 || planBad (heavyN d) (256 * n) || planBad (hK d) 65535, flt fPlan),
    (opAbsent (bits d 95 64) || opAbsent (bits d 127 96) || (hDAbsent d && !isChain d), flt fBadField),
    (heavyFmtBad d, flt fBadField),
    ((hD d).scaled && outN d % 32 != 0, flt fBadField),
    (isChain d && chainFieldBad d n, flt fBadField),
    (hasStep d .S && (opAbsent (bits d 287 256) || !scaleOk (hAux d)), flt fBadField),
    (isChain d && matchSep d && hasStep d .T && (s.seq c.hall c.slot).group == 16, flt fBadField),
    (hasStep d .X && (bits d 301 296 == s.device || !s.present (bits d 301 296)), flt fBadPeer),
    (decide (64 * hAPitch d < lineBytes (hA d).fmt (hA d).scaled (hK d)) || (!isChain d && decide (bPitch d < bLine d)) ||
      (!(hDAbsent d && !hasStep d .X) && decide (64 * heavyDPitch d < lineBytes (hD d).fmt (hD d).scaled (if hasStep d .X then outN d else dElems d))) ||
      (hasStep d .S && decide (64 * heavyDPitch d < lineBytes (hAux d).fmt (hAux d).scaled (dElems d))), flt fBadField),
    ((hB d).off % 64 != 0 || s.opRange c (hB d) 64 && isChain d, flt fAddress)]).or
   ((firstFault [
    (s.iterRange c (hA d) l.1 e.1 || s.iterRange c (hB d) l.2.1 e.2.1 || (!hDAbsent d && s.iterRange c (hD d) l.2.2 e.2.2.1) ||
      (hasStep d .S && s.iterRange c (hAux d) l.2.2 e.2.2.2), flt fAddress),
    (s.ringFault c (s.heavyRings c).1 || s.ringFault c (s.heavyRings c).2.1 || s.ringFault c (s.heavyRings c).2.2, flt fBadRing),
    (s.consumeBad c, flt fBadField),
    (!hDAbsent d && c.allIters.any (fun i => !(s.openRings c.hall).isEmpty &&
      !(s.ringsOver c.hall (hD d).inHall c.slot ((hD d).off + 64 * adv2 i) e.2.2.1).isEmpty), flt fBadRing)]).or
   (if isChain d && !s.bIsRing c then
      (((s.iters c).map (fun i => (hB d).off + 64 * adv1 i)).eraseDups).findSome? (fun off => s.blockFault c off (pBase + off))
    else none)))

/-! ### Issue -/

/-- Run-time lengths of a heavy descriptor: rows and reduction length (R241). -/
def State.heavyLens (s : State) (c : Ctx) : Lens :=
  if isChain c.desc then s.lens c [(hMRef c.desc, hM c.desc)] else s.lens c [(hMRef c.desc, hM c.desc), (bits c.desc 271 264, hK c.desc)]

/-- The rows of a pass walk: runs, each with passes of 256 (R235, R271). -/
def runPasses (runs : List Run) : List (Nat × Nat × Run) :=
  runs.flatMap (fun r => (List.range (ceilDiv r.rows 256)).map (fun p => (r.first + 256 * p, min 256 (r.rows - 256 * p), r)))

/-- The runs of a descriptor: one without adapter, or those of R271; with the run-time checks of rows against segments (R226, R269). -/
def State.heavyRuns (s : State) (c : Ctx) (m : Nat) : Except DFault (List Run × List Ext) :=
  let needs := hasStep c.desc .E || hasStep c.desc .L || hasStep c.desc .K
  let plain := [Run.mk 0 m 0xFFFF 0 0 0]
  if !needs then .ok (plain, [])
  else match s.jobOf c with
    | none => .error (flt fBadManifest)
    | some j =>
      let covered := (coveredRows (s.segs j)).getD 0
      if covered < m then .error ⟨fShape, leBytes 1 (hMRef c.desc) ++ leBytes 4 covered ++ leBytes 4 m⟩
      else if hasStep c.desc .L then
        match s.adapterRuns c j m (hK c.desc) (bits c.desc 291 288) with
        | .error d => .error d
        | .ok (rs, xs) => .ok (rs, s.segReads j ++ xs)
      else .ok (plain, s.segReads j)

/-- The base addresses of one iteration for a member, rings' slots in place of BASE where taken. -/
structure Bases where
  a : Nat
  b : Nat
  d : Nat
  aux : Nat
deriving DecidableEq, Repr

def State.bases (s : State) (c : Ctx) (i : Iter) : Bases :=
  let d := c.desc
  { a := s.space c (hA d) (s.aSlot c) + (hA d).off + 64 * adv0 i
    b := s.space c (hB d) c.slot + (hB d).off + 64 * adv1 i
    d := s.space c (hD d) c.slot + (hD d).off + 64 * adv2 i
    aux := s.space c (hAux d) c.slot + (hAux d).off + 64 * adv2 i }

/-- The member of a chain with L whose arrays hold the adapter column tile (R272). -/
def holdsTile (desc rank : Nat) : Bool := hasStep desc .L && (if bitOf desc 49 then heavyN desc / 256 == rank else rank == 0)

/-- The array instructions of one iteration for a member (R235, R239); a member without columns issues none (R237), unless it holds the adapter column tile (R272). -/
def State.instrsOf (s : State) (c : Ctx) (recId gid pass0 m k : Nat) (runs : List Run) (b : Bases) : List AInstr :=
  let members := s.issueSlots c
  let rank := s.rankOf c
  let d := c.desc
  let block := if isChain d then s.blockAt d b.b else []
  let nk := ceilDiv k 64
  let inverts := (s.seq c.hall (members.headD c.slot)).realPart.contains c.pos
  if (memberCols d rank).2 = 0 && !holdsTile d rank then []
  else ((runPasses runs).zipIdx).flatMap (fun p => (List.range nk).map (fun t =>
    { recId := recId, gid := gid, pos := c.pos, desc := d, rank := rank, members := members, aAddr := b.a
      block := block, bAddr := b.b + block.length, dAddr := b.d, auxAddr := b.aux, row0 := p.1.1, rows := p.1.2.1
      ktile := t, lastK := t + 1 == nk, m := m, k := k, pass := pass0 + p.2
      adapter := p.1.2.2.recAddr, aRank := p.1.2.2.rank, aScale := p.1.2.2.scale, inverts := inverts, term := false }))

/-- What a member reads of a line of the residual: its own output columns (R187, R190). -/
def auxExt (desc rank line : Nat) : List Ext :=
  partExt (hAux desc).fmt (hAux desc).scaled line (dElems desc) (dFirst desc rank) (memberOut desc rank).2

/-- Ranges of A and B (and parameter block, residual) that a member's iteration reads (R237, R238). -/
def State.heavyReads (s : State) (c : Ctx) (m k : Nat) (b : Bases) : List Ext :=
  let d := c.desc
  let rank := s.rankOf c
  let cols := (memberCols d rank).2
  let part := fun (f : Fmt) (scaled : Bool) (a len : Nat) =>
    [(a, elemBytes f k)] ++ (if scaled then [(a + elemBytes f len, ceilDiv k 32)] else [])
  let head := if isChain d then (s.blockAt d b.b).length else 0
  let as := (lineAddrs b.a m (hAPitch d)).flatMap (fun a => part (hA d).fmt (hA d).scaled a (hK d))
  let bs := ((List.range cols).map (fun j => b.b + head + j * bPitch d)).flatMap (fun a =>
    part (hB d).fmt (hB d).scaled a (hK d) ++
      (if bLine d = lineBytes (hB d).fmt (hB d).scaled (hK d) then [] else
        [(a + lineBytes (hB d).fmt (hB d).scaled (hK d), bLine d - lineBytes (hB d).fmt (hB d).scaled (hK d))]))
  let res := if hasStep d .S then (lineAddrs b.aux m (heavyDPitch d)).flatMap (auxExt d rank) else []
  (if cols = 0 then (if holdsTile d rank then as else []) else as ++ bs ++ res) ++ (if isChain d then [(b.b, head)] else []) ++
    (if hasStep d .R && !matchSep d then [statPlace c.hall (if c.group then (s.issueSlots c).headD c.slot else c.slot)] else [])

/-- Ranges that are memory: the places of registers left out. -/
def memOnly (xs : List Ext) : List Ext := xs.filter (fun x => decide (x.1 < 2 ^ 60))

/-- Planned row passes whose first row is at or beyond the run-time count (R239). -/
def skippedPasses (plan m : Nat) : Nat := ceilDiv plan 256 - ceilDiv m 256

/-- Counters of issue (R251, R280): skipped passes and K tiles, adapter runs and rows, match-separate chains; once for a group-wide issue, at rank 0. -/
def State.issueCounts (s : State) (c : Ctx) (iters m k : Nat) (runs : List Run) : State :=
  let d := c.desc
  let passes := (runPasses runs).length
  let ad := runs.filter (fun r => r.recAddr != 0)
  let t := s.countDue c.wing (0xC190 + c.hall) 1 (iters * skippedPasses (hM d) m)
  let t := t.countDue c.wing (0xC190 + c.hall) 2 (iters * passes * (ceilDiv (hK d) 64 - ceilDiv k 64))
  let t := t.countDue c.wing (0xC1A0 + c.hall) 1 ad.length
  let t := t.countDue c.wing (0xC1A0 + c.hall) 2 (ad.foldl (fun n r => n + r.rows) 0)
  if matchSep d then t.countDue c.wing (0xC1A0 + c.hall) 4 1 else t

/-- The adapter area of a member takes the gathered tiles, in a layout the manual does not give: its bytes are free values (R274). -/
def State.fillArea (s : State) (c : Ctx) (p : Nat) : State :=
  let d := s.draw
  d.2.writeMem (d.2.slotAddr c.hall c.slot + pArea (blockLine (s.rd p 64))) ((List.range 65536).map (fun i => BitVec.ofNat 8 (d.1 >>> (8 * i))))

/-- Open the member's record and put its array instructions into its queue. -/
def State.enqueue (s : State) (c : Ctx) (gid : Nat) (its : List (Nat × Bases)) (m k : Nat) (runs : List Run) (first : Bool) : State :=
  let r := if first then s.openRec c 0 m 0 0 else ((s.seq c.hall c.slot).nextRec - 1, s)
  let t := r.2
  let nPass := (runPasses runs).length
  let is := its.flatMap (fun i => t.instrsOf c r.1 gid (i.1 * nPass) m k runs i.2)
  let e := t.engine c.hall c.slot
  let t := t.setEngine c.hall c.slot { e with queue := e.queue ++ is }
  if first && hasStep c.desc .L && runs.any (fun r => r.recAddr != 0) then t.fillArea c ((its.headD (0, ⟨0, 0, 0, 0⟩)).2.b) else t

/-- The members' descriptors at the group's barrier: all ready (or all held for a ring) at the same group-wide descriptor (R167); none while one is missing. -/
def State.barrier (s : State) (c : Ctx) (get : State → Nat → Nat → Option Ctx) : Option (List Ctx) :=
  let cs := (s.issueSlots c).map (get s c.hall)
  if cs.all (fun x => match x with
      | some y => bits y.desc 511 64 == bits c.desc 511 64 && y.op == c.op && y.group == c.group
      | none => false) then some (cs.filterMap id) else none

/-- The context whose claim counts: rank 0's (R265). -/
def leadCtx (cs : List Ctx) (c : Ctx) : Ctx := cs.headD c

/-- Rings that a member consumes. -/
def State.heavyRingIds (s : State) (c : Ctx) : List Nat :=
  let r := s.heavyRings c
  (r.1.getD none).toList ++ (r.2.1.getD none).toList ++ (r.2.2.getD none).toList

/-- Issue a heavy descriptor to its members once every check has passed (R235): every iteration without a ring; with rings the members wait for slots. -/
def State.heavyIssue (s : State) (cs : List Ctx) (m k : Nat) (runs : List Run) (reads : List Ext) : State :=
  match cs with
  | [] => s
  | lead :: _ =>
    if cs.any (fun c => s.heavyRingIds c != []) then
      cs.foldl (fun t c => t.awaitSlots c (s.heavyRingIds c)) (s.readAll lead reads)
    else
      let its := s.iters lead
      let gid := (s.seq lead.hall lead.slot).nextRec
      let all := cs.map (fun c => (c, its.map (fun i => s.bases c i)))
      let xs := all.flatMap (fun e => e.2.flatMap (fun b => s.heavyReads e.1 m k b))
      match cs.find? (fun c => s.depends c xs) with
      | some _ => cs.foldl (fun t c => t.holdDep c xs) s
      | none =>
        match all.findSome? (fun e => ((s.readFault (memOnly reads)).or (s.dataFault (memOnly (e.2.flatMap (fun b => s.heavyReads e.1 m k b))))).map (fun d => (e.1, d))) with
        | some (c, d) => s.descFault c d
        | none =>
          let t := (s.readAll lead reads).issueCounts lead its.length m k runs
          let t := all.foldl (fun t e => t.enqueue e.1 gid ((e.2.zipIdx).map (fun b => (b.2, b.1))) m k runs true) t
          cs.foldl (fun t c => t.advance c) t

/-- Decode a MATMUL or CHAIN (R178, R184, R235): group-wide at the barrier of its members. -/
def State.heavyDesc (s : State) (c : Ctx) : State :=
  match s.barrier c (fun s h sl => s.ready h sl) with
  | none => s
  | some cs =>
    match cs.find? (fun x => s.slipAt x.hall x.slot x.pos == some .lockstep), cs.findSome? (fun x => (s.heavyFault x).map (fun d => (x, d))) with
    | some x, _ => s.sequencersDiffer x.hall x.slot
    | none, some (x, d) => s.descFault x d
    | none, none => match s.heavyLens c with
      | .bad d => s.descFault c d
      | .noop => cs.foldl (fun t x => t.noop x) s
      | .ok lens =>
        let m := lens.headD 0
        let k := if isChain c.desc then hK c.desc else (lens[1]?).getD (hK c.desc)
        match s.heavyRuns c m with
        | .error d => s.descFault c d
        | .ok (runs, reads) => s.heavyIssue cs m k runs reads

/-- The members' rings have full head slots: one iteration takes them, A and the residual once for the group, each member's B (R350, R351, R644). -/
def State.heavyTake (s : State) (c : Ctx) : State :=
  match s.barrier c (fun s h sl => s.held h sl .ringSlot), s.heavyLens c with
  | some cs, .ok lens =>
    let m := lens.headD 0
    let k := if isChain c.desc then hK c.desc else (lens[1]?).getD (hK c.desc)
    match s.takeSlots c (cs.flatMap (fun x => s.heavyRingIds x)), s.heavyRuns c m with
    | some (t, taken), .ok (runs, _) =>
      let lead := leadCtx cs c
      let its := s.iters lead
      let n := (s.seq lead.hall lead.slot).iter
      let it := (its[n]?).getD (0, 0, 0)
      let gid := if n = 0 then (s.seq lead.hall lead.slot).nextRec else (s.seq lead.hall lead.slot).nextRec - 1
      let at_ := fun (x : Option (Option Nat)) (a : Nat) => match x with
        | some (some id) => takenAddr taken id
        | _ => a
      let all := cs.map (fun x =>
        let b := s.bases x it
        let r := s.heavyRings x
        (x, ({ b with a := at_ r.1 b.a, b := at_ r.2.1 b.b, aux := at_ r.2.2 b.aux } : Bases)))
      match all.findSome? (fun e => ((if isChain e.1.desc && s.bIsRing e.1 then s.blockFault e.1 (e.2.b - s.space e.1 (hB e.1.desc) e.1.slot) e.2.b else none).or
          (s.dataFault (memOnly (s.heavyReads e.1 m k e.2)))).map (fun d => (e.1, d))) with
      | some (x, d) => s.descFault x d
      | none =>
        let t := if n = 0 then t.issueCounts lead its.length m k runs else t
        let t := all.foldl (fun t e => t.enqueue e.1 gid [(n, e.2)] m k runs (n == 0)) t
        cs.foldl (fun t x =>
          if n + 1 < its.length then
            let q := t.seq x.hall x.slot
            t.setSeq x.hall x.slot { q with iter := n + 1 }
          else t.advance x) t
    | _, _ => s
  | _, _ => s

/-- MATMUL (R235); when its sequencers disagree on a command of it, the command does not leave the core (R163). -/
def execMatmul (hall slot : Nat) (lockstep : Bool) (s : State) : Host.Outcome State Fault Refusal :=
  .next (keepCompute s (s.onDesc hall slot (fun c => c.op == 0x01) (fun t c => if lockstep then t.sequencersDiffer hall slot else t.heavyDesc c)))

/-- CHAIN (R253). -/
def execChain (hall slot : Nat) (s : State) : Host.Outcome State Fault Refusal :=
  .next (keepCompute s (s.onDesc hall slot (fun c => c.op == 0x02) State.heavyDesc))

/-! ### Tiles (R143, R144, R151, R152) -/

/-- The context of an array instruction. -/
def State.instrCtx (s : State) (hall slot : Nat) (a : AInstr) : Ctx := ⟨hall, slot, (s.seq hall slot).wing, a.pos, a.desc⟩

/-- Elements of K tile t below k: how many. -/
def AInstr.kElems (a : AInstr) : Nat := min 64 (a.k - 64 * a.ktile)

/-- The bytes of the tile's part of a line and of its scales, at a line address. -/
def AInstr.tileExt (a : AInstr) (f : Fmt) (scaled : Bool) (line : Nat) : List Ext :=
  let lo := elemBytes f (64 * a.ktile)
  [(line + lo, elemBytes f a.kElems)] ++ (if scaled then [(line + elemBytes f (hK a.desc) + 2 * a.ktile, ceilDiv a.kElems 32)] else [])

/-- Codes and scales of the tile's part of a line. -/
def State.tileLine (s : State) (a : AInstr) (f : Fmt) (scaled : Bool) (line : Nat) : List Nat × List Nat :=
  let bs := s.rd (line + elemBytes f (64 * a.ktile)) (elemBytes f a.kElems)
  (lineCodes f bs a.kElems,
   if scaled then (s.rd (line + elemBytes f (hK a.desc) + 2 * a.ktile) (ceilDiv a.kElems 32)).map BitVec.toNat else [0x7F, 0x7F])

/-- A column of weights: its format and codes. -/
abbrev Column := Fmt × List Nat

/-- The check weights of one array (R151, R152): sums by K row, special columns by block, full mode. -/
def arrayCheck (cols : List Column) : List Val × List Nat × Bool :=
  let rows := (List.range 64).map (fun k => cols.filterMap (fun col => (col.2[k]?).map (decodeElem col.1)))
  (rows.map checkWeight,
   [0, 1].map (fun b => (cols.filter (fun c => ((c.2.drop (32 * b)).take 32).any (fun x => (decodeElem c.1 x).isSpecial))).length),
   rows.all (rowFull ((cols.map Prod.fst).headD .int8)))

/-- The tiles of a slot's arrays from their columns and scales, 64 columns to an array (R158). -/
def Tile.of (cols : List (Column × List Nat)) : Tile :=
  let checks := (chunksOf 64 (cols.map Prod.fst)).map arrayCheck
  { fmts := cols.map (fun c => c.1.1.code), cols := cols.map (fun c => c.1.2), scales := cols.map Prod.snd
    check := checks.map (fun x => x.1), counts := checks.map (fun x => x.2.1), full := checks.map (fun x => x.2.2) }

/-- The columns of a tile with their formats. -/
def Tile.columns (t : Tile) : List Column := (t.fmts.zip t.cols).map (fun c => ((Fmt.ofCode c.1).getD .int8, c.2))

/-- The arrays of this member hold the adapter column tile (R272). -/
def AInstr.holds (a : AInstr) : Bool := holdsTile a.desc a.rank

/-- The projection entry of the run's adapter (R270). -/
def State.projOf (s : State) (a : AInstr) : Proj := s.proj a.adapter (bits a.desc 291 288)

/-- The address of line i of an adapter matrix whose lines have `len` elements, padded to 64 bytes (R270). -/
def adapterLine (base : Nat) (f : Fmt) (scaled : Bool) (len i : Nat) : Nat := base + i * up64 (lineBytes f scaled len)

/-- The lines of the adapter column tile that the holder loads (R272): the run's A; none for rows without an adapter, whose weights are zero. -/
def State.adapterColumns (s : State) (a : AInstr) : List Nat :=
  let p := s.projOf a
  if a.holds && a.adapter != 0 then
    (List.range a.aRank).map (adapterLine (a.adapter + p.aOff) ((Fmt.ofCode p.aFmt).getD .int8) p.aScaled (hK a.desc))
  else []

/-- A weight tile finishes loading (R143, R144), unless the parity of its rows fails (R157). -/
def tileLoaded (hall slot : Nat) (s : State) : State :=
  let e := s.engine hall slot
  match e.queue, e.shadow with
  | a :: _, none =>
    if s.halted hall slot then s
    else if s.slipAt hall slot a.pos = some .weightRow then s.slipFault hall slot .weightRow
    else
      let c := s.instrCtx hall slot a
      let f := (hB a.desc).fmt
      let p := s.projOf a
      let fa := (Fmt.ofCode p.aFmt).getD .int8
      let lines := (List.range (memberCols a.desc a.rank).2).map (fun j => a.bAddr + j * bPitch a.desc)
      let col := fun (f : Fmt) (scaled : Bool) (line : Nat) =>
        let x := s.tileLine a f scaled line
        ((f, x.1), x.2)
      let cols := lines.map (col f (hB a.desc).scaled) ++ (s.adapterColumns a).map (col fa p.aScaled)
      let t := s.readAll c (lines.flatMap (a.tileExt f (hB a.desc).scaled) ++ (s.adapterColumns a).flatMap (a.tileExt fa p.aScaled))
      t.setEngine hall slot { t.engine hall slot with shadow := some (Tile.of cols) }
  | _, _ => s

/-- TILE_LOADED (R144). -/
def execTileLoaded (hall slot : Nat) (s : State) : Host.Outcome State Fault Refusal := .next (keepCompute s (tileLoaded hall slot s))

/-! ### Array instructions (R145, R149, R150) -/

/-- The activation elements of a row that enter for a K tile: format, codes' values, scales; normalised in the match-separate prologue, with what that conversion counts (R276). -/
def State.actRow (s : State) (a : AInstr) (row : Nat) : LineOp × Tally :=
  let line := a.aAddr + row * (64 * hAPitch a.desc)
  let f := (hA a.desc).fmt
  if sepNorm a.desc then
    let n := hK a.desc
    normRow (blockLine a.block) ((List.range n).map (blockGain a.desc a.block))
      (lineVals f (hA a.desc).scaled (s.rd line (lineBytes f (hA a.desc).scaled n)) n) (64 * a.ktile) 64
  else
    let x := s.tileLine a f (hA a.desc).scaled line
    ({ fmt := f, vals := x.1.map (decodeElem f), scales := x.2 }, {})

/-- One 32-element block of a row against a column (R121); elements beyond the run-time length are padding. -/
def tileBlock (x : LineOp) (col : Column) (b : Nat) : List ((Fmt × Val) × (Fmt × Val)) :=
  (((x.vals.drop (32 * b)).take 32).zip (((col.2.drop (32 * b)).take 32).map (decodeElem col.1))).map (fun p => ((x.fmt, p.1), (col.1, p.2)))

/-- A result row of an instruction: block sums by column, and what the check column forms (R146, R153-R155); in a pass for the real part of a complex product every product at an odd row is inverted, in the check column too (R131). A K block wholly beyond the K extent is not computed (R237). -/
def rowOut (a : AInstr) (t : Tile) (row : Nat) (x : LineOp) : OutRow :=
  let nb := ceilDiv x.vals.length 32
  let av := fun b => (x.vals.drop (32 * b)).take 32
  let pairs := fun (col : Column) b => if a.inverts then invertOdd (tileBlock x col b) else tileBlock x col b
  let weights := fun (cs : List Val) => if a.inverts then negateOdd cs else cs
  { instr := a, row := row
    sums := t.columns.map (fun col => (List.range nb).map (fun b => blockSum (pairs col b)))
    aScales := x.scales, bScales := t.scales
    checks := t.check.map (fun cs => (List.range nb).map (fun b =>
      if (av b).any Val.isSpecial then none else some (checkSum (av b) (weights ((cs.drop (32 * b)).take 32)))))
    specials := t.counts.map (fun ns => (List.range nb).map (fun b =>
      if (av b).any Val.isSpecial then some 64 else if 0 < (ns[b]?).getD 0 then some ((ns[b]?).getD 0) else none))
    full := t.full }

/-- Product slots of a row in all four arrays: computed and gated (R149, R150); padding counts as gated. -/
def rowSlots (t : Tile) (x : LineOp) : Nat × Nat :=
  let z : Val := .zero false
  let pad := x.vals ++ List.replicate (64 - x.vals.length) z
  let count := fun (f : Fmt) (ws : List Val) => slotCounts ((pad.zip ws).map (fun p => ((x.fmt, p.1), (f, p.2))))
  let zero := count ((t.columns.map Prod.fst).headD .int8) (List.replicate 64 z)
  let sum := t.columns.foldl (fun (acc : Nat × Nat) col =>
    let r := count col.1 (col.2.map (decodeElem col.1) ++ List.replicate (64 - col.2.length) z)
    (acc.1 + r.1, acc.2 + r.2)) (0, 0)
  let k := 256 - t.cols.length
  (sum.1 + k * zero.1, sum.2 + k * zero.2)

/-- The same over the rows of an instruction. -/
def rowsSlots (t : Tile) (xs : List LineOp) : Nat × Nat :=
  xs.foldl (fun acc x =>
    let r := rowSlots t x
    (acc.1 + r.1, acc.2 + r.2)) (0, 0)

/-- Count the product slots of an instruction, and their energy at the 8-bit or the 4-bit rate (R150, R527). -/
def State.slotEvents (s : State) (c : Ctx) (four : Bool) (n : Nat × Nat) : State :=
  let core := (s.coreOf c.hall c.slot).getD 63
  let t := (s.count (0xC130 + c.hall) (core + 1) n.1).count (0xC140 + c.hall) (core + 1) n.2
  (t.energyEvent c.hall c.wing c.account (if four then 1 else 0) n.1).energyEvent c.hall c.wing c.account 2 n.2

/-- The slot that broadcasts an instruction's rows and row factors: rank 0 of a group-wide chain, else the slot itself (R260). -/
def AInstr.lead (a : AInstr) (slot : Nat) : Nat := if bitOf a.desc 49 then a.members.headD slot else slot

/-- The row factors go out with the pass's rows (R260): r of each row, from the registers as they stand when the first K tile of the pass is broadcast, the same to every member. -/
def State.sendFactors (s : State) (hall slot : Nat) (a : AInstr) : State :=
  let lead := a.lead slot
  let e := s.engine hall lead
  if hasStep a.desc .R && !matchSep a.desc && !e.factors.any (fun f => f.gid == a.gid && f.pass == a.pass) then
    let core := s.slotCore hall lead
    s.setEngine hall lead { e with factors := e.factors ++ (List.range a.rows).map (fun i =>
      Factor.mk a.gid a.pass (a.row0 + i) (deferredR (blockLine a.block) (core.rsVal (a.row0 + i)))) }
  else s

/-- The factor that went out with a row. -/
def State.rowFactor (s : State) (hall slot : Nat) (a : AInstr) (row : Nat) : Val :=
  (((s.engine hall (a.lead slot)).factors.find? (fun f => f.gid == a.gid && f.pass == a.pass && f.row == row)).map Factor.r).getD .one

/-- A tally of blocks and elements counts for the slot's core and in the descriptor's record (R140, R217). -/
def State.tallyRow (s : State) (hall slot : Nat) (a : AInstr) (t : Tally) : State :=
  (s.updRec hall slot a.recId (fun x => x.tally t)).tally hall slot t

/-- The words of the activation broadcast at the core's input (R157, R374-R376): one or two inverted bits of a word are corrected and counted; a word that cannot be corrected, or whose sequence bit does not alternate, is a fault of the core. -/
def State.broadcastWords (s : State) (hall slot n : Nat) (slips : List (Nat × LinkSlip)) : State :=
  let x := s.sendWords (64 + hall) slot (fun _ => 0) n slips
  x.2.foldl (fun t h => match h with
    | .failed _ =>
      if t.halted hall slot then t.count (0xC1E0 + hall) 5 1
      else
        let core := (t.coreOf hall slot).getD 63
        let r := t.random 1
        ((r.2.count (0xC1E0 + hall) 5 1).count (0x5100 + hall) (core + 1) 1).coreFault hall slot 0x2503 .fabric r.1
    | _ => t.hearWord .beat hall (64 + hall) slot h) x.1

/-- Cycles in which an instruction's rows enter the arrays: one for each pass of a row, two rows together where both operands are 4-bit (R129, R145). -/
def AInstr.cycles (a : AInstr) : Nat :=
  let fa := (hA a.desc).fmt
  let fb := (hB a.desc).fmt
  pieceCount fa * pieceCount fb * (if fa.fourBit && fb.fourBit then ceilDiv a.rows 2 else a.rows)

/-- Cycles that the ramp adds to the first n row cycles of an array that was idle: in the k-th 32 cycles it takes rows at a duty of k/8, so 2k(k + 1) by their end (R546). -/
def rampDelay (n : Nat) : Nat := match (List.range 8).find? (fun k => decide (n ≤ 2 * (k + 1) * (k + 2))) with
  | some k => 32 * k + ceilDiv (8 * (n - 2 * k * (k + 1))) (k + 1) - n
  | none => 112

/-- Row cycles enter the four arrays of a core: what the ramp adds counts as it happens (R546, log entry 215). -/
def State.enterArrays (s : State) (hall slot n : Nat) : State :=
  let e := s.engine hall slot
  let was := if e.streaming then e.taken else 0
  (s.setEngine hall slot { e with streaming := true, taken := min 144 (was + n) }).count 0xC310 5 (4 * (rampDelay (was + n) - rampDelay was))

/-- An array instruction swaps in its tile and streams its rows (R144, R145). What the match-separate prologue counts, it counts at rank 0, whose rows they are. -/
def arrayInstruction (hall slot : Nat) (flips : List (Nat × LinkSlip)) (s : State) : State :=
  let e := s.engine hall slot
  match e.queue, e.shadow with
  | a :: rest, some tile =>
    if s.halted hall slot then s
    else
      let c := s.instrCtx hall slot a
      let rows := (List.range a.rows).map (· + a.row0)
      let xs := rows.map (fun r => (r, s.actRow a r))
      let f := (hA a.desc).fmt
      let exts := if sepNorm a.desc then
          rows.map (fun r => (a.aAddr + r * (64 * hAPitch a.desc), lineBytes f (hA a.desc).scaled (hK a.desc)))
        else rows.flatMap (fun r => a.tileExt f (hA a.desc).scaled (a.aAddr + r * (64 * hAPitch a.desc)))
      let four := !sepNorm a.desc && f.fourBit && (hB a.desc).fmt.fourBit
      let t := s.readAll c exts
      let t := t.setEngine hall slot { t.engine hall slot with
        queue := rest, shadow := none, active := some tile, rows := e.rows ++ xs.map (fun x => rowOut a tile x.1 x.2.1) }
      let t := t.enterArrays hall slot a.cycles
      let t := if a.ktile = 0 then t.sendFactors hall slot a else t
      let t := if a.rank = 0 then t.tallyRow hall slot a (xs.foldl (fun y x => y.add x.2.2) {}) else t
      (t.slotEvents c four (rowsSlots tile (xs.map (fun x => x.2.1)))).broadcastWords hall slot (a.rows * f.width) flips
  | _, _ => s

/-- ARRAY_INSTRUCTION (R145). -/
def execArrayInstruction (hall slot : Nat) (flips : List (Nat × LinkSlip)) (s : State) : Host.Outcome State Fault Refusal :=
  .next (keepCompute s (arrayInstruction hall slot flips s))

/-- ARRAY_IDLE (R546): an array with no instruction at hand stops streaming; its next takes the ramp. -/
def arrayIdle (hall slot : Nat) (s : State) : State :=
  let e := s.engine hall slot
  if e.shadow.isNone then s.setEngine hall slot { e with streaming := false, taken := 0 } else s

/-- ARRAY_IDLE (R546). -/
def execArrayIdle (hall slot : Nat) (s : State) : Host.Outcome State Fault Refusal := .next (keepCompute s (arrayIdle hall slot s))

/-! ### Result rows (R146, R153-R157, R236) -/

/-- The block sums as an upset leaves them. -/
def upsetSums (u : Upset) (sums : List (List BlockSum)) : List (List BlockSum) := match u with
  | .column b col err exp => (sums.zipIdx).map (fun c => if c.2 = col then
      (c.1.zipIdx).map (fun x => if x.2 = b then { x.1 with val := x.1.val.add (Val.ofInt err exp) } else x.1) else c.1)
  | _ => sums

/-- The comparisons of a row: array, block, result (R155). -/
def OutRow.compared (o : OutRow) (sums : List (List BlockSum)) : List (Nat × Nat × Compared) :=
  let arrays := chunksOf 64 sums
  let pad : Bool → BlockSum := fun special => { val := if special then .nan else .zero false, dropped := false, special := special }
  (arrays.zipIdx).flatMap (fun a =>
    let nb := ((o.checks[a.2]?).getD []).length
    (List.range nb).map (fun b =>
      let sp := (((o.specials[a.2]?).getD [])[b]?).getD none
      let cols := a.1.map (fun col => (col[b]?).getD (pad false)) ++ List.replicate (64 - a.1.length) (pad (sp == some 64))
      (a.2, b, compareBlock cols (((((o.checks[a.2]?).getD [])[b]?).getD none).getD (.zero false)) sp ((o.full[a.2]?).getD true))))

/-- Truncations and special blocks of a row's real columns (R140). -/
def OutRow.tally (o : OutRow) (sums : List (List BlockSum)) : Tally :=
  (sums.zip o.bScales).foldl (fun t c =>
    (c.1.zipIdx).foldl (fun t b =>
      let sp := b.1.special || (scaleBlock b.1 ((o.aScales[b.2]?).getD 0x7F) ((c.2[b.2]?).getD 0x7F)).2
      t.add ⟨b2n b.1.dropped, 0, b2n sp⟩) t) {}

/-- Fold a row's blocks into its accumulators (R125, R236). -/
def OutRow.fold (o : OutRow) (sums : List (List BlockSum)) (acc : List Val) : List Val :=
  ((sums.zip o.bScales).zipIdx).map (fun c =>
    (c.1.1.zipIdx).foldl (fun a b => foldXf a (scaleBlock b.1 ((o.aScales[b.2]?).getD 0x7F) ((c.1.2[b.2]?).getD 0x7F)).1)
      ((acc[c.2]?).getD (.zero false)))

/-- The per-channel numbers of a member's columns (R189). -/
def State.channels (s : State) (a : AInstr) : List Channel :=
  let d := a.desc
  let base := lineBytes (hB d).fmt (hB d).scaled (hK d)
  if !hasStep d .B && !hasStep d .C then []
  else (List.range (memberCols d a.rank).2).map (fun j =>
    let p := a.bAddr + j * bPitch d + base
    { bias := if hasStep d .B then decodeElem .fp32 (s.rdNat p 4) else .zero false
      scale := if hasStep d .C then decodeElem .fp32 (s.rdNat (p + (if hasStep d .B then 4 else 0)) 4) else .one })

/-- The residual elements of a member's columns in a row (R190). -/
def State.residualRow (s : State) (a : AInstr) (row : Nat) : List Val :=
  let d := a.desc
  if !hasStep d .S then []
  else
    let o := hAux d
    let bs := s.rd (a.auxAddr + row * (64 * heavyDPitch d)) (lineBytes o.fmt o.scaled (dElems d))
    ((lineVals o.fmt o.scaled bs (dElems d)).drop (dFirst d a.rank)).take (memberOut d a.rank).2

/-- The segment and position of a row (R225). -/
def State.rowSeg (s : State) (c : Ctx) (row : Nat) : Option Seg := match s.jobOf c with
  | some j => segOfRow (s.segs j) row
  | none => none

def rowPos (g : Option Seg) (row : Nat) : Nat := match g with
  | some g => g.pos + (row - g.first)
  | none => 0

/-- Where a member's output columns go in a D line: offsets and bytes (R182, R187). -/
def outSegs (desc rank : Nat) (l : Line) : List (Nat × List Byte) :=
  let o := hD desc
  let n := (memberOut desc rank).2
  let eb := elemBytes o.fmt n
  let first := dFirst desc rank
  [(elemBytes o.fmt first, l.bytes.take eb)] ++ (if o.scaled then [(elemBytes o.fmt (dElems desc) + first / 32, l.bytes.drop eb)] else [])

/-- The same for a slot of a peer ring, whose lines hold the whole window (R265). -/
def peerSegs (desc rank : Nat) (l : Line) : List (Nat × List Byte) :=
  let o := hD desc
  let n := (memberOut desc rank).2
  let eb := elemBytes o.fmt n
  let first := (memberOut desc rank).1
  [(elemBytes o.fmt first, l.bytes.take eb)] ++ (if o.scaled then [(elemBytes o.fmt (outN desc) + first / 32, l.bytes.drop eb)] else [])

/-- Append a row's columns to its tables (R264, R327): up to two tables for a member. -/
def State.appendRow (s : State) (c : Ctx) (a : AInstr) (g : Seg) (pos : Nat) (vs : List Val) : Except DFault (State × Tally) :=
  let d := a.desc
  let col0 := (memberOut d a.rank).1
  ((chunksOf 128 vs).zipIdx).foldl (fun acc e => match acc with
    | .error x => .error x
    | .ok (t, ty) => match State.appendToken t c g.seq (bits d 263 256) (bits d 271 264 + (col0 + 128 * e.2) / 128) pos (bits d 272 272) e.1 with
      | .error x => .error x
      | .ok (t', y) => .ok (t', ty.add y)) (.ok (s, {}))

/-- A pass is complete at every member: no instruction of the issue and pass is unfinished in the group. -/
def State.passDone (s : State) (hall : Nat) (a : AInstr) : Bool :=
  a.members.all (fun sl => (s.engine hall sl).unfinished.all (fun b => !(b.gid == a.gid && b.pass == a.pass && b.pos == a.pos)))

/-- Put a row's bytes into the member's pass on its way to the peer (R265). -/
def State.peerRow (s : State) (hall slot : Nat) (a : AInstr) (row : Nat) (l : Line) : State :=
  let e := s.engine hall slot
  let segs := (peerSegs a.desc a.rank l).map (fun x => (x.1 + (row - a.row0) * (64 * heavyDPitch a.desc), x.2))
  let last := row + 1 == a.row0 + a.rows
  let same := fun (p : PeerPass) => p.gid == a.gid && p.pass == a.pass
  let ps := if e.peers.any same then updFirst same (fun p => { p with segs := p.segs ++ segs, full := last }) e.peers
    else e.peers ++ [PeerPass.mk a.gid a.desc a.pass a.row0 a.rows segs last]
  s.setEngine hall slot { e with peers := ps }

/-- A row's statistic (R169, R263): into the slot's own registers, or on its way to rank 0. -/
def State.statRow (s : State) (hall slot : Nat) (a : AInstr) (row : Nat) (vs : List Val) : State :=
  if bitOf a.desc 49 then
    let e := s.engine hall slot
    s.setEngine hall slot { e with partials := e.partials ++ [Partial.mk a.gid row a.rank (rowPartial vs)] }
  else s.setSlotCore hall slot ((s.slotCore hall slot).rsAdd row (rowPartial vs))

/-- The append of a row's columns, where the chain has K (R264). -/
def State.appendStep (s : State) (c : Ctx) (a : AInstr) (row : Nat) (vs : List Val) : Except DFault (State × Tally) :=
  if hasStep a.desc .K then match s.rowSeg c row with
    | some g => s.appendRow c a g (rowPos (some g) row) vs
    | none => .ok (s, {})
  else .ok (s, {})

/-- The statistic of a row (R263): into registers, or a row counted once every member has finished the pass (R277). -/
def State.statStep (s : State) (hall slot : Nat) (a : AInstr) (row : Nat) (vs : List Val) : State :=
  if !hasStep a.desc .T then s
  else if matchSep a.desc then
    let k := hall * 16 + (s.seq hall slot).group
    if row + 1 = a.row0 + a.rows ∧ s.passDone hall a then
      { s with work := { s.work with rowsDone := mset 0 s.work.rowsDone k (satAdd 32 (mget 0 s.work.rowsDone k) a.rows) } }
    else s
  else s.statRow hall slot a row vs

/-- The end of a row (R253): epilogue, append, output conversion and D, peer, statistic; counts to the record. `v` is the adapter term. A row whose append faults writes nothing (R178). -/
def State.finishRow (s : State) (hall slot : Nat) (a : AInstr) (row : Nat) (acc : List Val) (v : Option (List Val × Val)) (ty : Tally) : State :=
  let c := s.instrCtx hall slot a
  let d := a.desc
  let vs := epilogue d a.block acc
    { pos := rowPos (s.rowSeg c row) row, r := s.rowFactor hall slot a row, channels := s.channels a, residual := s.residualRow a row, adapter := v }
  let line := encodeLine (hD d).fmt (hD d).scaled vs
  let t := if hasStep d .S then s.readAll c (auxExt d a.rank (a.auxAddr + row * (64 * heavyDPitch d))) else s
  match t.appendStep c a row vs with
  | .error f => t.descFault c f
  | .ok (t, ty2) =>
    let t := if hDAbsent d then t
      else t.writeAll c ((outSegs d a.rank line).map (fun x => (a.dAddr + row * (64 * heavyDPitch d) + x.1, x.2)))
    let outT : Tally := if hDAbsent d && !hasStep d .X then {} else ⟨0, line.sats, line.special⟩
    let t := t.tallyRow hall slot a ((ty.add outT).add ty2)
    let t := if hasStep d .X then t.peerRow hall slot a row line else t
    t.statStep hall slot a row vs

/-- The accumulators of a row of a pass (R236). -/
def Engine.acc (e : Engine) (a : AInstr) (row : Nat) : List Val :=
  ((e.folds.find? (fun f => f.recId == a.recId && f.pass == a.pass && f.row == row)).map FoldRow.acc).getD []

/-- u of a row, converted to U_FMT, waits at the holder for the adapter instruction (R272, R273). -/
def State.keepU (s : State) (hall slot : Nat) (a : AInstr) (row : Nat) (u : List Val) : State × Tally :=
  let p := s.projOf a
  let x := toFmt ((Fmt.ofCode p.uFmt).getD .bf16) (p.uFmt == 0x4) u
  let e := s.engine hall slot
  (s.setEngine hall slot { e with uRows := e.uRows ++ [AdapterRow.mk a.gid a.pass row x.1.fmt.code x.1.vals x.1.scales] }, x.2)

/-- A row that leaves its pass's last K tile, with its accumulators (R236, R272, R273): u at the holder, then the epilogue, at once or once the adapter term is there; `ty` is what its blocks count. -/
def State.lastTile (s : State) (hall slot : Nat) (o : OutRow) (acc : List Val) (ty : Tally) : State :=
  let a := o.instr
  let n := (memberCols a.desc a.rank).2
  let main := acc.take n
  let t := if a.holds && a.adapter != 0 then s.keepU hall slot a o.row (acc.drop n) else (s, {})
  if n = 0 then t.1.tallyRow hall slot a (ty.add t.2)
  else if a.adapter ≠ 0 then
    let e := t.1.engine hall slot
    (t.1.setEngine hall slot { e with waits := e.waits ++ [WaitRow.mk a o.row main] }).tallyRow hall slot a (ty.add t.2)
  else match s.slipAt hall slot a.pos with
    | some k => if k = .residue ∨ k = .duplicate then s.slipFault hall slot k else t.1.finishRow hall slot a o.row main none ty
    | none => t.1.finishRow hall slot a o.row main none ty

/-- A row of the adapter instruction leaves (R273): its fold is v, and the waiting row's epilogue runs. -/
def State.termRow (s : State) (hall slot : Nat) (o : OutRow) (v : List Val) (ty : Tally) : State :=
  let a := o.instr
  let e := s.engine hall slot
  let mine := fun (w : WaitRow) => w.instr.gid == a.gid && w.instr.pass == a.pass && w.row == o.row
  match e.waits.find? mine with
  | none => s
  | some w => (s.setEngine hall slot { e with waits := e.waits.filter (fun x => !mine x) }).finishRow hall slot w.instr o.row w.acc
      (some (v, decodeElem .fp32 a.aScale)) ty

/-- A result row leaves the array (R146): duplicates and check column compared, blocks folded, and at the last K tile the row's end. A core that has stopped lets nothing out (R156). -/
def resultRowLeaves (hall slot : Nat) (u : Upset) (s : State) : State :=
  let e := s.engine hall slot
  match e.rows with
  | o :: rest =>
    let a := o.instr
    let core := (s.coreOf hall slot).getD 63
    let wing := (s.seq hall slot).wing
    let sums := upsetSums u o.sums
    let cmp := o.compared sums
    let ty := o.tally sums
    let t := (s.countDue wing (0xC150 + hall) (core + 1) (cmp.filter (fun x => x.2.2.residue)).length).countDue wing (0xC160 + hall) (core + 1)
      (cmp.filter (fun x => x.2.2.uncompared)).length
    if s.halted hall slot then s
    else match u, cmp.find? (fun x => !x.2.2.ok) with
    | .duplicate k, _ => (t.count (0x5100 + hall) (core + 1) 1).coreFault hall slot 0x2503 .duplicate (leBytes 1 k)
    | _, some x =>
      (t.count (0x5100 + hall) (core + 1) (cmp.filter (fun x => !x.2.2.ok)).length).coreFault hall slot 0x2501 .column
        (leBytes 1 x.1 ++ leBytes 2 (bits a.desc 47 32) ++ leBytes 2 (2 * a.ktile + x.2.1))
    | _, none =>
      let acc := o.fold sums (if a.ktile = 0 then [] else e.acc a o.row)
      let keep := e.folds.filter (fun f => !(f.recId == a.recId && f.pass == a.pass && f.row == o.row))
      let out := fun (folds : List FoldRow) => t.setEngine hall slot { t.engine hall slot with rows := rest, folds := folds }
      if a.term then (out e.folds).termRow hall slot o acc ty
      else if a.lastK then (out keep).lastTile hall slot o acc ty
      else (out (keep ++ [FoldRow.mk a.recId a.pass o.row acc])).tallyRow hall slot a ty
  | [] => s

/-- RESULT_ROW_LEAVES (R146). -/
def execResultRowLeaves (hall slot : Nat) (upset : Upset) (s : State) : Host.Outcome State Fault Refusal :=
  .next (keepWork s (resultRowLeaves hall slot upset s))

/-! ### The adapter instruction (R272, R273) -/

/-- u of a row of the pass, at the member that holds the adapter column tile (R273). -/
def State.uRow (s : State) (hall : Nat) (a : AInstr) (slot row : Nat) : Option LineOp :=
  let holder := if bitOf a.desc 49 then (a.members[heavyN a.desc / 256]?).getD slot else slot
  ((s.engine hall holder).uRows.find? (fun x => x.gid == a.gid && x.pass == a.pass && x.row == row)).map
    (fun x => { fmt := (Fmt.ofCode x.fmt).getD .bf16, vals := x.vals, scales := x.scales })

/-- The first waiting row of a pass whose adapter instruction has not gone out. -/
def Engine.termDue (e : Engine) : Option WaitRow :=
  e.waits.find? (fun w => !e.rows.any (fun o => o.instr.term && o.instr.gid == w.instr.gid && o.instr.pass == w.instr.pass))

/-- The adapter instruction of the first waiting pass (R273), once all of its rows wait and their u is there: the arrays hold the B lines of the member's columns, and the u rows stream; its result rows leave as any instruction's do. -/
def adapterInstruction (hall slot : Nat) (s : State) : State :=
  let e := s.engine hall slot
  match e.termDue with
  | none => s
  | some w =>
    let a := w.instr
    let rows := (e.waits.filter (fun x => x.instr.gid == a.gid && x.instr.pass == a.pass)).map WaitRow.row
    let us := rows.filterMap (fun r => (s.uRow hall a slot r).map (fun u => (r, u)))
    if s.halted hall slot || decide (us.length < a.rows) then s
    else
      let c := s.instrCtx hall slot a
      let p := s.projOf a
      let fb := (Fmt.ofCode p.bFmt).getD .int8
      let m := memberCols a.desc a.rank
      let lines := (List.range m.2).map (fun j => adapterLine (a.adapter + p.bOff) fb p.bScaled a.aRank (m.1 + j))
      let exts := lines.map (fun l => (l, lineBytes fb p.bScaled a.aRank))
      match s.dataFault exts with
      | some d => s.descFault c d
      | none =>
        let tile := Tile.of (lines.map (fun l =>
          let bs := s.rd l (lineBytes fb p.bScaled a.aRank)
          ((fb, lineCodes fb bs a.aRank), lineScales fb p.bScaled bs a.aRank)))
        let i := { a with ktile := 0, lastK := true, k := a.aRank, inverts := false, term := true }
        let t := s.readAll c exts
        let t := t.setEngine hall slot { t.engine hall slot with rows := e.rows ++ us.map (fun u => rowOut i tile u.1 u.2) }
        let t := t.enterArrays hall slot (pieceCount ((hA a.desc).fmt) * pieceCount fb * us.length)
        let t := t.slotEvents c false (rowsSlots tile (us.map Prod.snd))
        if a.rank = 0 then t.countDue c.wing (0xC1A0 + hall) 3 1 else t

/-- ADAPTER_INSTRUCTION (R273). -/
def execAdapterInstruction (hall slot : Nat) (s : State) : Host.Outcome State Fault Refusal :=
  .next (keepWork s (adapterInstruction hall slot s))

/-! ### Row-statistic partials (R169) -/

/-- No partial of the row that comes before (issue, then tile) is still on its way or to be formed. -/
def State.partialNext (s : State) (hall slot : Nat) (p : Partial) : Bool :=
  (s.groupSlots hall slot).all (fun sl =>
    let e := s.engine hall sl
    let before := fun (gid tile : Nat) => decide (gid < p.gid) || (gid == p.gid && decide (tile < p.tile))
    (e.partials ++ e.region).all (fun q => !(q.row == p.row && before q.gid q.tile)) &&
      e.unfinished.all (fun a => !(statCode a.desc && bitOf a.desc 49 && !matchSep a.desc && decide (a.row0 ≤ p.row) && decide (p.row < a.row0 + a.rows) &&
        before a.gid a.rank)))

/-- Add to rank 0's registers every waiting partial whose turn it is. -/
def State.flushRegion (s : State) (hall lead : Nat) : State :=
  (List.range (s.engine hall lead).region.length).foldl (fun t _ =>
    let e := t.engine hall lead
    match e.region.find? (fun q => (t.setEngine hall lead { e with region := e.region.filter (fun x => x != q) }).partialNext hall lead q) with
    | none => t
    | some q =>
      let t := t.setEngine hall lead { e with region := e.region.filter (fun x => x != q) }
      t.setSlotCore hall lead ((t.slotCore hall lead).rsAdd q.row q.val)) s

/-- A member's first partial reaches rank 0 (R169): added in ascending tile order, or waiting in the reserved region while there is room. -/
def rowstatPartialArrival (hall slot : Nat) (s : State) : State :=
  let e := s.engine hall slot
  let lead := (s.groupSlots hall slot).headD slot
  match e.partials with
  | [] => s
  | p :: rest =>
    let t := s.setEngine hall slot { e with partials := rest }
    if t.partialNext hall slot p then
      (t.setSlotCore hall lead ((t.slotCore hall lead).rsAdd p.row p.val)).flushRegion hall lead
    else
      let l := t.engine hall lead
      if l.region.length < 4 * (s.seq hall lead).regionSize then t.setEngine hall lead { l with region := l.region ++ [p] } else s

/-- ROWSTAT_PARTIAL_ARRIVAL (R169). -/
def execRowstatPartialArrival (hall slot : Nat) (s : State) : Host.Outcome State Fault Refusal :=
  .next (keepCompute s (rowstatPartialArrival hall slot s))

/-! ### Send to peer (R265) -/

/-- The payloads of the bulk packets that carry a slot's bytes (R265, R416): hall, ring, beat, place in the slot, and up to 3,840 bytes, so that a packet has no more than 16 flits. DESIGN CHOICE: the manual lays none of it out (log entry 208). -/
def peerPackets (hall ring beat : Nat) (bs : List Byte) : List (List Byte) :=
  ((chunksOf 3840 bs).zipIdx).map (fun x => leBytes 1 hall ++ leBytes 1 ring ++ leBytes 6 beat ++ leBytes 4 (3840 * x.2) ++ x.1)

/-- A finished row pass of the issue goes into one slot of the peer ring, once every member has finished it, its sums are complete and a credit is held. -/
def peerSend (hall slot : Nat) (s : State) : State :=
  let lead := (s.groupSlots hall slot).headD slot
  let first := (s.engine hall slot).peers.head?
  match first with
  | none => s
  | some p =>
    let group := bitOf p.desc 49
    let ms := if group then s.groupSlots hall slot else [slot]
    let ms := ms.filter (fun sl => decide (0 < (memberCols p.desc (ms.findIdx (· == sl))).2))
    let same := fun (x : PeerPass) => x.gid == p.gid && x.pass == p.pass
    let parts := ms.map (fun sl => ((s.engine hall sl).peers.head?, sl))
    let ready := parts.all (fun x => match x.1 with | some y => same y && y.full | none => false)
    let stat := hasStep p.desc .T && !matchSep p.desc
    let regs := if group then lead else slot
    let pendingStat := stat && (s.groupSlots hall slot).any (fun sl => ((s.engine hall sl).partials ++ (s.engine hall sl).region).any (fun q =>
      decide (p.row0 ≤ q.row) && decide (q.row < p.row0 + p.rows)))
    if !ready || pendingStat then s
    else
      let dev := bits p.desc 301 296
      let ph := bits p.desc 314 312
      let pr := bits p.desc 311 304
      let c := Ctx.mk hall (if group then lead else slot) (s.seq hall slot).wing 0 p.desc
      let size := linesExtent p.rows (heavyDPitch p.desc) (lineBytes (hD p.desc).fmt (hD p.desc).scaled (outN p.desc))
      let core := s.slotCore hall regs
      let sums := if stat then (List.range p.rows).flatMap (fun i => leBytes 16 (core.rsCode (p.row0 + i))) else []
      let body := (parts.flatMap (fun x => ((x.1.map PeerPass.segs).getD []))).foldl (fun b g => overlay b g.1 g.2) (List.replicate size 0)
      let bytes := if stat then fitBytes (up64 size) body ++ sums else body
      let peer := s.peer dev ph pr
      let drop := fun (t : State) => ms.foldl (fun t sl => t.setEngine hall sl { t.engine hall sl with peers := (t.engine hall sl).peers.drop 1 }) t
      if peer.credits = 0 then s
      else if peer.slotSize < bytes.length then (drop s).descFault c (flt fRingGeometry)
      else
        let t := (drop s).setPeer dev ph pr { peer with credits := peer.credits - 1 }
        let t := { t with work := { t.work with peerSpent := mset 0 t.work.peerSpent (peerKey dev ph pr) (mget 0 t.work.peerSpent (peerKey dev ph pr) + 1) } }
        let t := (peerPackets ph pr s.beat.doing bytes).foldl (fun t b => t.sendPacket (tagOwner c.wing (bits p.desc 31 16)) dev c.wing 0x01 1 b) t
        let t := { t with work := { t.work with sentTo := if t.work.sentTo.contains dev then t.work.sentTo else t.work.sentTo ++ [dev] } }
        t.countDue c.wing (0xC1A0 + hall) 5 1

/-- PEER_SEND (R265). -/
def execPeerSend (hall slot : Nat) (s : State) : Host.Outcome State Fault Refusal := .next (keepCompute s (peerSend hall slot s))

end Sys2Proof.Machine
end

