-- ==== Sys2Proof/Machine/Vector.lean ====
section
/-! DEFINITION. VECTOR (R195, R196) with the arithmetic of R136-R139: one decode and one run for every operation, and one meaning for each row of the table. -/

namespace Sys2Proof.Machine

open Sys2Proof

/-- VOP, and the classes of operations (R195). -/
def Ctx.vop (c : Ctx) : Nat := c.fld 71 64

def vecTwo : List Nat := [0x01, 0x02, 0x03, 0x04, 0x05, 0x06, 0x07, 0x08, 0x09, 0x0A, 0x0B]
def vecOne : List Nat := [0x10, 0x11, 0x12, 0x13, 0x14, 0x15, 0x16]
def vecReduce : List Nat := [0x20, 0x21, 0x22, 0x23]

/-- The VOP is in the table. -/
def vopKnown (v : Nat) : Bool := vecTwo.contains v || vecOne.contains v || vecReduce.contains v

/-- Operations that R139 and R138 allow in XF. -/
def xfAllowed (v : Nat) : Bool := [0x01, 0x02, 0x03, 0x05, 0x06, 0x07, 0x08, 0x0A, 0x0B, 0x10, 0x20, 0x21, 0x22, 0x23].contains v

/-- Operands of VECTOR. -/
def Ctx.vSrc0 (c : Ctx) : Opnd := Opnd.of (c.fld 127 96)
def Ctx.vSrc1 (c : Ctx) : Opnd := Opnd.of (c.fld 159 128)
def Ctx.vDst (c : Ctx) : Opnd := Opnd.of (c.fld 191 160)
def Ctx.vSrc1Absent (c : Ctx) : Bool := opAbsent (c.fld 159 128)
def Ctx.vCols (c : Ctx) : Nat := c.fld 271 256
def Ctx.vRows (c : Ctx) : Nat := c.fld 255 240
def Ctx.vImm (c : Ctx) : Val := decodeElem .fp32 (c.fld 319 288)


/-- The operation runs in XF (R196). -/
def Ctx.vXf (c : Ctx) : Bool :=
  bitOf c.desc 72 || c.vSrc0.fmt == .xf || c.vDst.fmt == .xf || (!c.vSrc1Absent && c.vSrc1.fmt == .xf)

/-- SRC1 is one line (R196). -/
def singleSrc1 (v : Nat) : Bool := v == 0x0A || v == 0x0B

/-- Elements that a line of SRC1 holds: one per planned row for ROWSCALE, whose scales follow all of them (R182, R196). -/
def Ctx.vSrc1Len (c : Ctx) : Nat := if c.vop = 0x0A then c.vRows else c.vCols

/-- Elements that the operation reads of it: ROWSCALE those of the run-time rows (R196). -/
def Ctx.vSrc1Cols (c : Ctx) (rows : Nat) : Nat := if c.vop = 0x0A then rows else c.vCols

/-- Elements of a DST line: one for a reduction (R195). -/
def Ctx.vDstCols (c : Ctx) : Nat := if vecReduce.contains c.vop then 1 else c.vCols

/-- Bytes that each operand spans for a row count. -/
def Ctx.vExtents (c : Ctx) (rows : Nat) : Nat × Nat × Nat :=
  (linesExtent rows (c.fld 207 192) (lineBytes c.vSrc0.fmt c.vSrc0.scaled c.vCols),
   linesExtent (if singleSrc1 c.vop then 1 else rows) (c.fld 223 208) (lineBytes c.vSrc1.fmt c.vSrc1.scaled c.vSrc1Len),
   linesExtent rows (c.fld 239 224) (lineBytes c.vDst.fmt c.vDst.scaled c.vDstCols))

/-- The rings SRC0 and SRC1 name (R351). -/
def State.vRings (s : State) (c : Ctx) : Option (Option Nat) × Option (Option Nat) :=
  let e := c.vExtents c.vRows
  (s.srcRing c c.vSrc0.inHall c.slot c.vSrc0.off e.1,
   if c.vSrc1Absent then some none else s.srcRing c c.vSrc1.inHall c.slot c.vSrc1.off e.2.1)

/-- Decode checks of VECTOR (R178, R195, R196, R343). -/
def State.vectorFault (s : State) (c : Ctx) : Option DFault :=
  let one := vecOne.contains c.vop || vecReduce.contains c.vop
  let imm := bitOf c.desc 73
  let e := c.vExtents c.vRows
  let pitchBad := fun (p : Nat) (o : Opnd) (n : Nat) => decide (64 * p < lineBytes o.fmt o.scaled n)
  (s.headerFault c [(74, 95), opReserved 96, opReserved 128, opReserved 160, (280, 287), (320, 511)] [] false false).or (firstFault [
    (planBad c.vRows 4096, flt fPlan),
    (c.vCols == 0, flt fBadField),
    (one && (!c.vSrc1Absent || imm), flt fBadField),
    (!one && (imm != c.vSrc1Absent), flt fBadField),
    (opAbsent (c.fld 127 96) || opAbsent (c.fld 191 160), flt fBadField),
    (!scaleOk c.vSrc0 || !scaleOk c.vDst || (!c.vSrc1Absent && !scaleOk c.vSrc1), flt fBadField),
    (c.vXf && !xfAllowed c.vop, flt fBadField),
    (singleSrc1 c.vop && c.fld 223 208 != 0, flt fBadField),
    (pitchBad (c.fld 207 192) c.vSrc0 c.vCols || pitchBad (c.fld 239 224) c.vDst c.vDstCols ||
      (!c.vSrc1Absent && !singleSrc1 c.vop && pitchBad (c.fld 223 208) c.vSrc1 c.vCols), flt fBadField),
    (s.opRange c c.vSrc0 e.1 || s.opRange c c.vDst e.2.2 || (!c.vSrc1Absent && s.opRange c c.vSrc1 e.2.1), flt fAddress),
    (s.opOverRing c c.vDst c.slot e.2.2 || s.ringFault c (s.vRings c).1 || s.ringFault c (s.vRings c).2, flt fBadRing)])

/-- The rounding of the working format (R196). -/
def vecRound (xf : Bool) : Val → Val := if xf then roundXf else round32

/-- 1.0 or +0 (R195). -/
def ofBool (b : Bool) : Val := if b then .one else .zero false

/-- One element of an operation that is no reduction (R136, R137, R139, R195). -/
def vecElem (v : Nat) (xf : Bool) (imm a b : Val) : Val :=
  let r := vecRound xf
  if v = 0x01 then r (a.add b)
  else if v = 0x02 then r (a.sub b)
  else if v = 0x03 ∨ v = 0x0A ∨ v = 0x0B then r (a.mul b)
  else if v = 0x04 then f32div a b
  else if v = 0x05 then r (a.max b)
  else if v = 0x06 then r (a.min b)
  else if v = 0x07 then ofBool (a.lt b)
  else if v = 0x08 then ofBool (a.eqv b)
  else if v = 0x09 then r ((a.mul imm).add b)
  else if v = 0x10 then r a
  else if v = 0x11 then f32sqrt a
  else if v = 0x12 then f32exp2 a
  else if v = 0x13 then f32log2 a
  else if v = 0x14 then f32recip a
  else if v = 0x15 then f32rsqrt a
  else f32tanh a

/-- One line reduced (R138): ascending elements, one rounded addition at a time; MAX and MIN from the first element. -/
def vecLine (v : Nat) (xf : Bool) (xs : List Val) : Val :=
  let r := vecRound xf
  if v = 0x20 then xs.foldl (fun acc x => r (acc.add x)) (.zero false)
  else if v = 0x23 then xs.foldl (fun acc x => r (acc.add (x.mul x))) (.zero false)
  else match xs with
    | [] => .zero false
    | x :: t => t.foldl (fun acc y => r (if v = 0x21 then acc.max y else acc.min y)) (r x)

/-- The values of the output lines, from the values of the sources. -/
def Ctx.vectorOut (c : Ctx) (src0 src1 : List (List Val)) : List (List Val) :=
  (src0.zipIdx).map (fun line =>
    if vecReduce.contains c.vop then [vecLine c.vop c.vXf line.1]
    else (line.1.zipIdx).map (fun x =>
      let b := if bitOf c.desc 73 then c.vImm
        else if c.vop = 0x0A then (((src1[0]?).getD [])[line.2]?).getD (.zero false)
        else if c.vop = 0x0B then (((src1[0]?).getD [])[x.2]?).getD (.zero false)
        else (((src1[line.2]?).getD [])[x.2]?).getD (.zero false)
      vecElem c.vop c.vXf c.vImm x.1 b))

/-- Addresses of the source lines. -/
def Ctx.vLines (c : Ctx) (rows b0 b1 : Nat) : List Nat × List Nat :=
  (lineAddrs b0 rows (c.fld 207 192),
   if c.vSrc1Absent then [] else lineAddrs b1 (if singleSrc1 c.vop then 1 else rows) (c.fld 223 208))

/-- What the operation reads of its source lines. -/
def Ctx.vReads (c : Ctx) (rows b0 b1 : Nat) : List Ext × List Ext :=
  let l := c.vLines rows b0 b1
  (l.1.map (fun a => (a, lineBytes c.vSrc0.fmt c.vSrc0.scaled c.vCols)),
   l.2.flatMap (fun a => partExt c.vSrc1.fmt c.vSrc1.scaled a c.vSrc1Len 0 (c.vSrc1Cols rows)))

/-- Run a VECTOR over `rows` lines from source bases b0 and b1 (R196): every source line is read, then the lines of DST are written. -/
def State.vectorRun (s : State) (c : Ctx) (rows b0 b1 : Nat) : State :=
  let x := c.vReads rows b0 b1
  match s.dataFault (x.1 ++ x.2) with
  | some d => s.descFault c d
  | none =>
    let l := c.vLines rows b0 b1
    let vals := fun (o : Opnd) (n : Nat) (a : Nat) => lineVals o.fmt o.scaled (s.mem.deliverRange a (lineBytes o.fmt o.scaled n)) n
    let v0 := l.1.map (vals c.vSrc0 c.vCols)
    let v1 := l.2.map (vals c.vSrc1 c.vSrc1Len)
    let lines := (c.vectorOut v0 v1).map (encodeLine c.vDst.fmt c.vDst.scaled)
    let dst := lineAddrs (s.space c c.vDst c.slot + c.vDst.off) rows (c.fld 239 224)
    let t := s.readAll c (x.1 ++ x.2)
    let t := t.writeAll c (dst.zip (lines.map Line.bytes))
    let t := t.energyEvent c.hall c.wing c.account 4 (rows * c.vCols)
    t.done c rows 0 0 (linesTally lines)

/-- Rings a VECTOR consumes. -/
def State.vectorRings (s : State) (c : Ctx) : List Nat :=
  ((s.vRings c).1.getD none).toList ++ ((s.vRings c).2.getD none).toList

/-- A VECTOR whose rings' head slots are full takes them and runs (R350, R351). -/
def State.vectorTake (s : State) (c : Ctx) : State :=
  match s.takeSlots c (s.vectorRings c), s.lens c [(c.fld 279 272, c.vRows)] with
  | some (t, taken), .ok (rows :: _) =>
    let addr := fun (o : Opnd) (r : Option (Option Nat)) => match r with
      | some (some id) => takenAddr taken id
      | _ => s.space c o c.slot + o.off
    t.vectorRun c rows (addr c.vSrc0 (s.vRings c).1) (addr c.vSrc1 (s.vRings c).2)
  | _, _ => s

/-- Decode a VECTOR: fault, no-op, wait for a write or for ring slots, or run (R178, R184, R148, R351). -/
def State.vectorDesc (s : State) (c : Ctx) : State :=
  match s.vectorFault c with
  | some d => s.descFault c d
  | none => match s.lens c [(c.fld 279 272, c.vRows)] with
    | .bad d => s.descFault c d
    | .noop => s.noop c
    | .ok lens =>
      let rows := lens.headD 0
      let b0 := s.space c c.vSrc0 c.slot + c.vSrc0.off
      let b1 := s.space c c.vSrc1 c.slot + c.vSrc1.off
      let x := c.vReads rows b0 b1
      if s.depends c (x.1 ++ x.2) then s.holdDep c (x.1 ++ x.2)
      else if s.vectorRings c ≠ [] then s.awaitSlots c (s.vectorRings c)
      else s.vectorRun c rows b0 b1

/-- The slot decodes its next descriptor when that is a VECTOR of the operation. -/
def vector (v hall slot : Nat) (s : State) : State :=
  s.onDesc hall slot (fun c => c.op == 0x04 && c.vop == v) State.vectorDesc

/-- VECTOR 0x01 ADD: src0 + src1 (R195, R196). -/
def execVectorAdd (hall slot : Nat) (s : State) : Host.Outcome State Fault Refusal := .next (keepCompute s (vector 0x01 hall slot s))

/-- VECTOR 0x02 SUB: src0 - src1 (R195, R196). -/
def execVectorSub (hall slot : Nat) (s : State) : Host.Outcome State Fault Refusal := .next (keepCompute s (vector 0x02 hall slot s))

/-- VECTOR 0x03 MUL (R195, R196). -/
def execVectorMul (hall slot : Nat) (s : State) : Host.Outcome State Fault Refusal := .next (keepCompute s (vector 0x03 hall slot s))

/-- VECTOR 0x04 DIV (R195, R196). -/
def execVectorDiv (hall slot : Nat) (s : State) : Host.Outcome State Fault Refusal := .next (keepCompute s (vector 0x04 hall slot s))

/-- VECTOR 0x05 MAX (R195, R196). -/
def execVectorMax (hall slot : Nat) (s : State) : Host.Outcome State Fault Refusal := .next (keepCompute s (vector 0x05 hall slot s))

/-- VECTOR 0x06 MIN (R195, R196). -/
def execVectorMin (hall slot : Nat) (s : State) : Host.Outcome State Fault Refusal := .next (keepCompute s (vector 0x06 hall slot s))

/-- VECTOR 0x07 CMP_LT (R195, R196). -/
def execVectorCmpLt (hall slot : Nat) (s : State) : Host.Outcome State Fault Refusal := .next (keepCompute s (vector 0x07 hall slot s))

/-- VECTOR 0x08 CMP_EQ (R195, R196). -/
def execVectorCmpEq (hall slot : Nat) (s : State) : Host.Outcome State Fault Refusal := .next (keepCompute s (vector 0x08 hall slot s))

/-- VECTOR 0x09 FMA (R195, R196). -/
def execVectorFma (hall slot : Nat) (s : State) : Host.Outcome State Fault Refusal := .next (keepCompute s (vector 0x09 hall slot s))

/-- VECTOR 0x0A ROWSCALE (R195, R196). -/
def execVectorRowscale (hall slot : Nat) (s : State) : Host.Outcome State Fault Refusal := .next (keepCompute s (vector 0x0A hall slot s))

/-- VECTOR 0x0B COLSCALE (R195, R196). -/
def execVectorColscale (hall slot : Nat) (s : State) : Host.Outcome State Fault Refusal := .next (keepCompute s (vector 0x0B hall slot s))

/-- VECTOR 0x10 CONVERT (R195, R196). -/
def execVectorConvert (hall slot : Nat) (s : State) : Host.Outcome State Fault Refusal := .next (keepCompute s (vector 0x10 hall slot s))

/-- VECTOR 0x11 SQRT (R195, R196). -/
def execVectorSqrt (hall slot : Nat) (s : State) : Host.Outcome State Fault Refusal := .next (keepCompute s (vector 0x11 hall slot s))

/-- VECTOR 0x12 EXP2 (R195, R196). -/
def execVectorExp2 (hall slot : Nat) (s : State) : Host.Outcome State Fault Refusal := .next (keepCompute s (vector 0x12 hall slot s))

/-- VECTOR 0x13 LOG2 (R195, R196). -/
def execVectorLog2 (hall slot : Nat) (s : State) : Host.Outcome State Fault Refusal := .next (keepCompute s (vector 0x13 hall slot s))

/-- VECTOR 0x14 RECIP (R195, R196). -/
def execVectorRecip (hall slot : Nat) (s : State) : Host.Outcome State Fault Refusal := .next (keepCompute s (vector 0x14 hall slot s))

/-- VECTOR 0x15 RSQRT (R195, R196). -/
def execVectorRsqrt (hall slot : Nat) (s : State) : Host.Outcome State Fault Refusal := .next (keepCompute s (vector 0x15 hall slot s))

/-- VECTOR 0x16 TANH (R195, R196). -/
def execVectorTanh (hall slot : Nat) (s : State) : Host.Outcome State Fault Refusal := .next (keepCompute s (vector 0x16 hall slot s))

/-- VECTOR 0x20 SUM (R195, R196). -/
def execVectorSum (hall slot : Nat) (s : State) : Host.Outcome State Fault Refusal := .next (keepCompute s (vector 0x20 hall slot s))

/-- VECTOR 0x21 MAX over each line (R195, R196). -/
def execVectorLineMax (hall slot : Nat) (s : State) : Host.Outcome State Fault Refusal := .next (keepCompute s (vector 0x21 hall slot s))

/-- VECTOR 0x22 MIN over each line (R195, R196). -/
def execVectorLineMin (hall slot : Nat) (s : State) : Host.Outcome State Fault Refusal := .next (keepCompute s (vector 0x22 hall slot s))

/-- VECTOR 0x23 SUMSQ (R195, R196). -/
def execVectorSumsq (hall slot : Nat) (s : State) : Host.Outcome State Fault Refusal := .next (keepCompute s (vector 0x23 hall slot s))

end Sys2Proof.Machine
end

