-- ==== Sys2Proof/Machine/Attend.lean ====
section
/-! DEFINITION. ATTEND (09_attention.md): decode checks (R192-R194, R282, R287), visibility and blocks (R289-R296), the online softmax (R297-R299), partial state and key rings (R301-R303), narrow folios and counters (R288, R306). One step computes the whole descriptor, or one slot of its ring (log entry 9). -/

namespace Sys2Proof.Machine

open Sys2Proof

/-! ### Fields (R192) -/

def Ctx.atQ (c : Ctx) : Opnd := Opnd.of (c.fld 95 64)
def Ctx.atO (c : Ctx) : Opnd := Opnd.of (c.fld 127 96)
def Ctx.atState (c : Ctx) : Opnd := Opnd.of (c.fld 159 128)
def Ctx.atStateAbsent (c : Ctx) : Bool := opAbsent (c.fld 159 128)
def Ctx.atQPitch (c : Ctx) : Nat := c.fld 175 160
def Ctx.atOPitch (c : Ctx) : Nat := c.fld 191 176
def Ctx.atM (c : Ctx) : Nat := c.fld 207 192
def Ctx.atKeys (c : Ctx) : Nat := c.fld 247 224
def Ctx.atIn (c : Ctx) : Bool := bitOf c.desc 248
def Ctx.atOut (c : Ctx) : Bool := bitOf c.desc 249
def Ctx.atScale (c : Ctx) : Val := decodeElem .fp32 (c.fld 287 256)
def Ctx.atLayer (c : Ctx) : Nat := c.fld 295 288
def Ctx.atHead (c : Ctx) : Nat := c.fld 303 296
def Ctx.atDimCode (c : Ctx) : Nat := c.fld 305 304
/-- HEAD_DIM. -/
def Ctx.atDim (c : Ctx) : Nat := 64 * 2 ^ c.atDimCode
def Ctx.atCausal (c : Ctx) : Bool := bitOf c.desc 306
def Ctx.atStrict (c : Ctx) : Bool := bitOf c.desc 307
def Ctx.atMin (c : Ctx) : Nat := c.fld 311 308
/-- KV_RING; at version 2 the byte is zero and is read as 0xFF (R220). -/
def Ctx.atRing (c : Ctx) : Nat := if c.version = 2 then 0xFF else c.fld 319 312

/-- A line of Q, and a line of O: an output line or a partial-state line (R193, R301). -/
def Ctx.atQLine (c : Ctx) : Nat := lineBytes c.atQ.fmt c.atQ.scaled c.atDim
def Ctx.atStateLine (c : Ctx) : Nat := 4 * c.atDim + 8
def Ctx.atOLine (c : Ctx) : Nat := if c.atOut then c.atStateLine else lineBytes c.atO.fmt c.atO.scaled c.atDim

/-- The layer-table entry of the descriptor's layer (R282). -/
def State.layerEntry (s : State) (j : Job) (n : Nat) : Nat := s.rdNat (j.layerTable + 16 * n) 16

/-- The layer-table entry is refused (R282). -/
def layerBad (w : Nat) : Bool :=
  bits w 31 0 % 16 != 0 || decide (131072 < bits w 31 0) || !([0x4, 0xA].contains (bits w 35 32)) || bits w 127 36 != 0

/-- The format rules of R193 and R287 that do not hold: BAD_FIELD. -/
def Ctx.atFmtBad (c : Ctx) : Bool :=
  let q := c.atQ
  let o := c.atO
  !([0x4, 0x5, 0x6, 0xA].contains q.code) || (q.scaled && q.code == 0xA) ||
    (if c.atOut then o.code != 0xC || o.scaled else !((([0xA, 0xB, 0xC] : List Nat).contains o.code && !o.scaled) || (o.code == 0x4 && o.scaled))) ||
    (!c.atStateAbsent && (c.atState.code != 0xC || c.atState.scaled)) || (c.atStateAbsent == c.atIn) ||
    c.atScale.isSpecial || c.atScale.isZero || c.atScale.isNeg ||
    c.atDimCode == 3 || !([0, 1, 2, 4, 5, 6, 7, 8].contains c.atMin)

/-- Decode checks of ATTEND (R178, R192-R194, R282, R287, R343, R349, R351). -/
def State.attendFault (s : State) (c : Ctx) : Option DFault :=
  let l := lastIter c
  let q := linesExtent c.atM c.atQPitch c.atQLine
  let o := linesExtent c.atM c.atOPitch c.atOLine
  let st := linesExtent c.atM c.atOPitch c.atStateLine
  let overs := fun (x : Opnd) (n : Nat) (adv : Iter → Nat) => !(s.openRings c.hall).isEmpty &&
    c.allIters.any (fun i => !(s.ringsOver c.hall x.inHall c.slot (x.off + 64 * adv i) n).isEmpty)
  (s.headerFault c ([(250, 255), opReserved 64, opReserved 96, opReserved 128] ++ loopReserved) [(248, 249), (312, 319), (448, 511)] false true).or
   ((firstFault [
    (planBad c.atM 4096 || planBad c.atKeys 4194304, flt fPlan),
    (opAbsent (c.fld 95 64) || opAbsent (c.fld 127 96) || c.atFmtBad, flt fBadField),
    (decide (64 * c.atQPitch < c.atQLine) || decide (64 * c.atOPitch < c.atOLine) || (c.atIn && decide (64 * c.atOPitch < c.atStateLine)), flt fBadField),
    (c.atRing != 0xFF && (c.claimUse != 0 || l.2.2 != 0 || c.loops.any (fun x => x.s2 != 0)), flt fBadField)]).or
   ((firstFault [
    (s.iterRange c c.atQ l.1 q || s.iterRange c c.atO l.2.1 o || (c.atIn && s.iterRange c c.atState l.2.1 st), flt fAddress),
    (c.atRing != 0xFF && s.consumerBad c c.atRing, flt fBadRing),
    (overs c.atQ q adv0 || overs c.atO o adv1 || (c.atIn && overs c.atState st adv1), flt fBadRing)]).or
   (match s.jobOf c with
     | none => some (flt fBadManifest)
     | some j => if j.layers ≤ c.atLayer then some (flt fBadField)
       else (s.readFault [(j.layerTable + 16 * c.atLayer, 16)]).or (if layerBad (s.layerEntry j c.atLayer) then some (flt fBadField) else none))))

/-! ### Rows and what they see (R289, R291, R294) -/

/-- A query row: its number, sequence, position, window bounds and global positions. -/
structure ARow where
  idx  : Nat
  seq  : Nat
  pos  : Nat
  lo   : Nat
  hi   : Nat
  globals : List Nat
deriving DecidableEq, Repr

/-- The candidate positions: all of the row's sequence, or those a key slot carries: first, past the last, sequence (R303). -/
abbrev Cand := Option (Nat × Nat × Nat)

/-- Position j is visible to the row (R291, R303). -/
def ARow.sees (r : ARow) (k : Cand) (j : Nat) : Bool :=
  decide (j ≤ r.hi) && (decide (r.lo ≤ j) || r.globals.contains j) && (match k with
    | some (a, b, q) => q == r.seq && decide (a ≤ j) && decide (j < b)
    | none => true)

/-- The visible positions of a key block, ascending (R293). -/
def ARow.inBlock (r : ARow) (k : Cand) (b : Nat) : List Nat := ((List.range 64).map (64 * b + ·)).filter (r.sees k)

/-- The block is one of the row's global phase: its last position is below lo (R294). -/
def ARow.globalPhase (r : ARow) (b : Nat) : Bool := decide (64 * b + 63 < r.lo)

/-- The row's blocks of a phase (R294). -/
def ARow.blocks (r : ARow) (k : Cand) (glob : Bool) : List Nat :=
  let bs := if glob then ((r.globals.filter (fun j => decide (j ≤ r.hi))).map (· / 64)).eraseDups.filter r.globalPhase
    else (List.range (r.hi / 64 + 1 - r.lo / 64)).map (· + r.lo / 64)
  bs.filter (fun b => r.inBlock k b != [])

/-- The global positions that segments read (R225). -/
def globalReads (l : List Seg) : List Ext := (l.filter (fun g => g.gcount != 0)).map (fun g => (g.globals, 4 * g.gcount))

/-- The query rows of a descriptor (R289): their segments, or the fault of a row without one or with more keys than planned. -/
def State.attendRows (s : State) (c : Ctx) (j : Job) (m keys : Nat) : Except DFault (List ARow) :=
  let segs := s.segs j
  let covered := (coveredRows segs).getD 0
  if covered < m then .error ⟨fShape, leBytes 1 (c.fld 215 208) ++ leBytes 4 covered ++ leBytes 4 m⟩
  else
    let w := bits (s.layerEntry j c.atLayer) 31 0
    let used := segs.filter (fun g => decide (g.first < m))
    match used.find? (fun g => decide (keys < g.pos + g.rows)) with
    | some g => .error ⟨fShape, leBytes 1 (c.fld 223 216) ++ leBytes 4 keys ++ leBytes 4 (g.pos + g.rows)⟩
    | none => match s.readFault (globalReads used) with
     | some e => .error e
     | none => .ok (used.flatMap (fun g =>
        let gs := s.globalsOf g
        (List.range (min g.rows (m - g.first))).map (fun i =>
          let p := g.pos + i
          { idx := g.first + i, seq := g.seq, pos := p, lo := if w = 0 then 0 else p + 1 - w
            hi := if c.atCausal then p else g.pos + g.rows - 1, globals := gs })))

/-! ### Keys and values (R292, R302, R303, R308, R309, R321) -/

/-- The tables of a KV head: table and the first of its key values (R321). -/
def headTables (dim h : Nat) : List (Nat × Nat) :=
  if dim = 64 then [(h / 2, 64 * (h % 2))] else if dim = 128 then [(h, 0)] else [(2 * h, 0), (2 * h + 1, 0)]

/-- A key position as it enters the arrays: the key by 32-value blocks with format and scale, the scaled values (R285), its folios with their formats, what was read. -/
structure KeyPos where
  key    : List (Fmt × List Val × Nat)
  vals   : List (Fmt × Val)
  folios : List (Nat × Nat)
  reads  : List Ext
deriving DecidableEq, Repr

def KeyPos.join (a b : KeyPos) : KeyPos := ⟨a.key ++ b.key, a.vals ++ b.vals, a.folios ++ b.folios, a.reads ++ b.reads⟩

/-- One folio's part of a position: n key values from v0 and the n values 128 later, of a token's bytes at an address. -/
def State.tokenPart (s : State) (addr folio code : Nat) (scale : Nat → Nat) (tok v0 n : Nat) : KeyPos :=
  let f := (Fmt.ofCode code).getD .int8
  let lo := elemBytes f v0
  let hi := elemBytes f (128 + v0)
  let len := elemBytes f n
  let codes := fun (o : Nat) => (lineCodes f (s.rd (addr + o) len) n).map (decodeElem f)
  let sc := fun (v : Nat) => scale (8 * tok + v / 32)
  { key := ((chunksOf 32 (codes lo)).zipIdx).map (fun e => (f, e.1, sc (v0 + 32 * e.2)))
    vals := ((codes hi).zipIdx).map (fun e => (f, scaled e.1 (sc (128 + v0 + e.2))))
    folios := [(folio, code)], reads := [(addr + lo, len), (addr + hi, len)] }

/-- KEYS_NOT_HELD: the sequence, the position and the folio-table index (R307). -/
def keysNotHeld (seq pos : Nat) : DFault := ⟨0x3901, leBytes 2 seq ++ leBytes 4 pos ++ leBytes 4 (pos / 16)⟩

/-- The folio that a table names for entry i, if any (R322). -/
def State.entryFolio (s : State) (d : DirEntry) (win : Bool) (table i : Nat) : Option Nat :=
  if win then match (s.globalList d table).find? (fun g => g.2.1 == i) with
    | some g => some g.2.2
    | none =>
      let f := s.rdNat (d.entry true table (i % d.entries)) 4
      if (s.side f).firstPos = 16 * i then some f else none
  else if i < d.entries then some (s.rdNat (d.entry false table i) 4) else none

/-- The folio of a table that holds a position (R322, R323, R292). -/
def State.heldFolio (s : State) (c : Ctx) (d : DirEntry) (win : Bool) (seq table pos : Nat) : Except DFault Nat :=
  let i := pos / 16
  let check := fun (f : Nat) =>
    if f = noFolio then .error (keysNotHeld seq pos)
    else if s.folioBad c.wing f then .error (DFault.mk fBadFolio (leBytes 4 f ++ leBytes 4 i))
    else if min (s.side f).keys (s.side f).values ≤ pos % 16 then .error (keysNotHeld seq pos)
    else .ok f
  if win then match s.readFault [(d.table table, 512)], (s.globalList d table).find? (fun g => g.2.1 == i) with
    | some e, _ => .error e
    | none, some g => check g.2.2
    | none, none =>
      let f := s.rdNat (d.entry true table (i % d.entries)) 4
      match s.readFault [(d.entry true table (i % d.entries), 4)] with
      | some e => .error e
      | none => if f ≠ noFolio ∧ s.folioBad c.wing f = false ∧ (s.side f).firstPos ≠ 16 * i then .error (keysNotHeld seq pos) else check f
  else if d.entries ≤ i then .error (keysNotHeld seq pos)
  else match s.readFault [(d.entry false table i, 4)] with
    | some e => .error e
    | none => check (s.rdNat (d.entry false table i) 4)

/-- A key slot taken from the ring: its address, the header's first position, end and sequence, and its entries' offsets (R302). -/
structure KeySlot where
  addr : Nat
  first : Nat
  stop : Nat
  seq  : Nat
  entries : List Nat
deriving DecidableEq, Repr

/-- Where keys come from in one iteration. -/
inductive KeySrc where
  | tables (kvHead : Nat)
  | slot (k : KeySlot) (kvHead : Nat)
deriving DecidableEq, Repr

def KeySrc.cand : KeySrc → Cand
  | .tables _ => none
  | .slot k _ => some (k.first, k.stop, k.seq)

/-- A position from folio tables (R292, R321). -/
def State.keyFromTables (s : State) (c : Ctx) (j : Job) (kvHead seq pos : Nat) : Except DFault KeyPos :=
  let d := s.dirEntry j seq c.atLayer
  let win := decide (s.layerWindow j c.atLayer ≠ 0)
  (headTables c.atDim kvHead).foldl (fun acc t => match acc, s.heldFolio c d win seq t.1 pos with
    | .ok k, .ok f =>
      let x := s.side f
      let tok := folioBytes f / 16
      .ok (k.join (s.tokenPart (s.folioAddr f + tok * (pos % 16)) f x.format (fun i => mget 0 x.scales i) (pos % 16) t.2 (min c.atDim 128)))
    | .error e, _ => .error e
    | _, .error e => .error e) (.ok ⟨[], [], [], []⟩)

/-- A position from a key slot (R302, R303): its entry's side record gives tokens valid and format; a folio holds one half of a head of 256 dimensions, by its TABLE (R293). -/
def State.keyFromSlot (s : State) (c : Ctx) (k : KeySlot) (kvHead seq pos : Nat) : Except DFault KeyPos :=
  match k.entries[(pos - k.first) / 16]? with
  | none => .error (keysNotHeld seq pos)
  | some off =>
    let h := s.rd (k.addr + off) 256
    (headTables c.atDim kvHead).foldl (fun acc t => match acc with
      | .error e => .error e
      | .ok p =>
        if (c.atDim = 256 ∧ leAt h 4 1 ≠ t.1) ∨ leAt h 10 1 % 32 ≤ pos % 16 then .error (keysNotHeld seq pos)
        else
          let tok := if fmtHalf (leAt h 0 1) then 128 else 256
          .ok (p.join (s.tokenPart (k.addr + off + 256 + tok * (pos % 16)) (leAt h 20 4) (leAt h 0 1) (fun i => leAt h (32 + i) 1) (pos % 16) t.2
            (min c.atDim 128)))) (.ok ⟨[], [], [], []⟩)

def State.keyAt (s : State) (c : Ctx) (j : Job) (src : KeySrc) (seq pos : Nat) : Except DFault KeyPos := match src with
  | .tables h => s.keyFromTables c j h seq pos
  | .slot k h => s.keyFromSlot c k h seq pos

/-- The folios that belong to a key block, with their formats, whether or not a row sees a position of each (R288, R293). -/
def State.blockFolios (s : State) (c : Ctx) (j : Job) (src : KeySrc) (seq b : Nat) : List (Nat × Nat) := match src with
  | .tables h =>
    let d := s.dirEntry j seq c.atLayer
    let win := decide (s.layerWindow j c.atLayer ≠ 0)
    ((headTables c.atDim h).flatMap (fun t => ((List.range 4).map (4 * b + ·)).filterMap (s.entryFolio d win t.1))).filterMap (fun f =>
      if s.folioBad c.wing f then none else some (f, (s.side f).format))
  | .slot k _ => ((List.range 4).filterMap (fun i => if 16 * (4 * b + i) < k.first then none else k.entries[4 * b + i - k.first / 16]?)).map (fun off =>
      let h := s.rd (k.addr + off) 32
      (leAt h 20 4, leAt h 0 1))

/-- KEY_SLOT_MISMATCH: the ring, the iteration and the first differing header field by number (R307): 0 FIRST_POS, 1 POSITIONS, 2 LAYER, 3 KV_HEAD, 4 entries, 5 PART, 6 reserved. -/
def slotMismatch (ring iter field : Nat) : DFault := ⟨0x3902, leBytes 1 ring ++ leBytes 4 iter ++ leBytes 1 field⟩

/-- Read and check a key slot's header and entries (R303). `len` is the slot's filled length. -/
def State.keySlot (s : State) (c : Ctx) (iter addr len kvHead : Nat) : Except DFault KeySlot :=
  let w := s.rdNat addr 64
  let bad := fun n => slotMismatch c.atRing iter n
  match firstFault [
      (bits w 31 0 % 64 != 0, bad 0), (bits w 63 32 == 0 || decide (65536 < bits w 63 32), bad 1), (bits w 87 80 != c.atLayer, bad 2),
      (bits w 95 88 != kvHead, bad 3), (bits w 97 96 != 0, bad 5), (bits w 511 98 != 0, bad 6), (decide (len < 64), bad 4)] with
  | some d => .error d
  | none =>
    let r := (List.range (ceilDiv (bits w 63 32) 16)).foldl (fun (acc : Except DFault (List Nat × Nat)) e => match acc with
      | .error d => .error d
      | .ok (l, off) =>
        let h := s.rd (addr + off) 32
        let next := off + 256 + (if fmtHalf (leAt h 0 1) then 2048 else 4096)
        if len < off + 256 then .error (bad 4)
        else match s.readFault [(addr + off, 256)] with
          | some d => .error d
          | none =>
            if folioFmt (leAt h 0 1) ∧ leAt h 16 4 = bits w 31 0 + 16 * e ∧ next ≤ len then .ok (l ++ [off], next)
            else .error (bad 4)) (.ok ([], 64))
    match r with
    | .error d => .error d
    | .ok (l, _) => .ok ⟨addr, bits w 31 0, bits w 31 0 + bits w 63 32, bits w 79 64, l⟩

/-! ### The online softmax (R284-R286, R297) -/

/-- The state of a row: o, m and l. -/
structure RowState where
  o : List Val
  m : Val
  l : Val
deriving DecidableEq, Repr

def rowStart (dim : Nat) : RowState := ⟨List.replicate dim (.zero false), .inf true, .zero false⟩

/-- fold_qk with what the blocks drop and special blocks (R284). -/
def foldQk (q : LineOp) (k : List (Fmt × List Val × Nat)) : Val × Tally :=
  (k.zipIdx).foldl (fun acc e =>
    let ps := ((q.vals.drop (32 * e.2)).take 32).zip e.1.2.1
    let b := blockSum (ps.map (fun p => ((q.fmt, p.1), (e.1.1, p.2))))
    let r := scaleBlock b ((q.scales[e.2]?).getD 0x7F) e.1.2.2
    (foldXf acc.1 r.1, acc.2.add ⟨b2n b.dropped, 0, b2n (b.special || r.2)⟩)) (.zero false, {})

/-- An attention weight as the array takes it, and p̂ (R286). -/
def quantP (pfmt : Fmt) (p : Val) : Val × Val :=
  if pfmt = .e4m3 then
    let e := decodeElem .e4m3 (convert .e4m3 false (p.scale 8)).code
    (e, e.scale (-8))
  else
    let e := decodeElem .bf16 (convert .bf16 false p).code
    (e, e)

/-- fold_pv of one column: weights and values by position of the block, none where the weight is masked (R285, R296, R297). -/
def foldPv (pfmt : Fmt) (xs : List (Option (Val × Fmt × Val))) : Val × Tally :=
  let r := (chunksOf 32 xs).foldl (fun (acc : Val × Tally) blk =>
    let b := blockSum (blk.filterMap (fun x => x.map (fun y => ((pfmt, y.1), (y.2.1, y.2.2)))))
    let v := scaleBlock b 0x7F 0x7F
    (foldXf acc.1 (if pfmt = .e4m3 then v.1.scale (-8) else v.1), acc.2.add ⟨b2n b.dropped, 0, b2n b.special⟩)) (.zero false, {})
  r

/-- One block of R297 for one row: the visible positions with their scores t and the keys' values. Answers the row's state, its weights by position, and the tally. -/
def rowBlock (pfmt : Fmt) (dim b : Nat) (st : RowState) (ts : List (Nat × Val)) (keys : List (Nat × KeyPos)) : RowState × List (Nat × Val) × Tally :=
  let mb := ts.foldl (fun a t => a.max t.2) (Val.inf true)
  let mNew := st.m.max mb
  if mNew = .inf true then (st, [], {})
  else
    let alpha := f32exp2 (f32sub st.m mNew)
    let ph := ts.map (fun t => (t.1, quantP pfmt (f32exp2 (f32sub t.2 mNew))))
    let bs := ph.foldl (fun a p => f32add a p.2.2) (Val.zero false)
    let at_ := fun (j : Nat) => (ph.find? (fun p => p.1 == j)).bind (fun p => (keys.find? (fun k => k.1 == j)).map (fun k => (p.2.1, k.2)))
    let cells := (List.range 64).map (fun i => at_ (64 * b + i))
    let cols := (List.range dim).map (fun d => foldPv pfmt (cells.map (fun x => x.bind (fun y => (y.2.vals[d]?).map (fun v => (y.1, v.1, v.2))))))
    ({ o := (cols.zip st.o).map (fun x => f32add (f32mul x.2 alpha) (round32 x.1.1)), m := mNew
       l := f32add (f32mul st.l alpha) bs },
     ph.map (fun p => (p.1, p.2.1)), cols.foldl (fun t x => t.add x.2) {})

/-! ### The walk (R294-R296) -/

/-- What a walk gathers. -/
structure AttAcc where
  st     : List (Nat × RowState)
  tally  : Tally := {}
  narrow : Nat := 0
  visits : Nat := 0
  slots  : Nat × Nat := (0, 0)
  uncomp : Nat := 0
  resid  : Nat := 0
  lanes  : Nat := 0
  reads  : List Ext := []
deriving DecidableEq, Repr

/-- Comparisons of one row's blocks of a tile (R155): not made where bits were dropped, by residue where the tile is not exact in its check cells; none for a special block. -/
def comparisons (full : Bool) (blocks : List (List BlockSum)) : Nat × Nat :=
  blocks.foldl (fun n bs =>
    if bs.any (fun b => b.val.isSpecial) then n
    else if bs.any BlockSum.dropped then (n.1 + 1, n.2)
    else if full then n else (n.1, n.2 + 1)) (0, 0)

/-- The keys of a visited block that some row of the pass sees, in ascending position (R296), or the first fault. -/
def State.blockKeys (s : State) (c : Ctx) (j : Job) (src : KeySrc) (rs : List ARow) (b : Nat) : Except DFault (List (Nat × KeyPos)) :=
  let ps := ((List.range 64).map (64 * b + ·)).filter (fun p => rs.any (fun r => r.sees src.cand p))
  let seq := ((rs.head?).map ARow.seq).getD 0
  ps.foldl (fun acc p => match acc with
    | .error e => .error e
    | .ok l => match s.keyAt c j src seq p with
      | .error e => .error e
      | .ok k =>
        let width := fun (code : Nat) => ((Fmt.ofCode code).map Fmt.width).getD 8
        match (if c.atStrict then k.folios.find? (fun f => decide (width f.2 < width c.atMin)) else none) with
        | some f => .error ⟨fNarrowKey, leBytes 4 f.1 ++ leBytes 1 f.2⟩
        | none => .ok (l ++ [(p, k)])) (.ok [])

/-- Visit one block in one phase for the rows of a pass and sequence (R295): every row's product slots count; only rows whose phase it is take part. -/
def State.visitBlock (s : State) (c : Ctx) (j : Job) (src : KeySrc) (pfmt : Fmt) (qs : List (Nat × LineOp)) (rs : List ARow) (glob : Bool)
    (b : Nat) (acc : AttAcc) : Except DFault AttAcc :=
  match s.blockKeys c j src rs b with
  | .error e => .error e
  | .ok keys =>
    let width := fun (code : Nat) => ((Fmt.ofCode code).map Fmt.width).getD 8
    let narrow := ((s.blockFolios c j src (((rs.head?).map ARow.seq).getD 0) b).filter (fun f => decide (width f.2 < width c.atMin))).eraseDups.length
    let cols := (List.range 64).map (fun i => (keys.find? (fun k => k.1 == 64 * b + i)).map Prod.snd)
    let zero : Val := .zero false
    let keyRow := fun (d : Nat) => cols.filterMap (fun k => k.bind (fun x => ((x.key[d / 32]?).bind (fun y => y.2.1[d % 32]?))))
    let keyFull := (List.range c.atDim).all (fun d => rowFull .int8 (keyRow d))
    let valFull := cols.all (fun k => match k with
      | some x => (chunksOf 64 (x.vals.map Prod.snd)).all (rowFull .int8)
      | none => true)
    let out := rs.foldl (fun (a : AttAcc) r =>
      let q := ((qs.find? (fun x => x.1 == r.idx)).map Prod.snd).getD { fmt := .bf16, vals := [], scales := [] }
      let qk := keys.map (fun k => (k.1, foldQk q k.2.key))
      let seen := r.globalPhase b == glob
      let ts := if seen then (qk.filter (fun x => r.sees src.cand x.1)).map (fun x => (x.1, round32 (x.2.1.mul c.atScale))) else []
      let st := ((a.st.find? (fun x => x.1 == r.idx)).map Prod.snd).getD (rowStart c.atDim)
      let res := if ts = [] then (st, [], ({} : Tally)) else rowBlock pfmt c.atDim b st ts keys
      let qkSlots := cols.foldl (fun (n : Nat × Nat) k =>
        let ks := match k with
          | some x => x.key.flatMap (fun y => y.2.1.map (fun v => (y.1, v)))
          | none => List.replicate c.atDim (Fmt.int8, zero)
        let m := slotCounts ((q.vals.map (fun v => (q.fmt, v))).zip ks)
        (n.1 + m.1, n.2 + m.2)) (0, 0)
      let pvSlots := ((List.range 64).zip cols).foldl (fun (n : Nat × Nat) x =>
        let w := ((res.2.1.find? (fun p => p.1 == 64 * b + x.1)).map Prod.snd).getD zero
        let vs := match x.2 with
          | some k => k.vals
          | none => List.replicate c.atDim (Fmt.int8, zero)
        let m := slotCounts (vs.map (fun v => ((pfmt, w), v)))
        (n.1 + m.1, n.2 + m.2)) (0, 0)
      let qb := (List.range (c.atDim / 32)).map (fun i => keys.map (fun k =>
        let e := (k.2.key[i]?).getD (.int8, [], 0x7F)
        blockSum ((((q.vals.drop (32 * i)).take 32).zip e.2.1).map (fun p => ((q.fmt, p.1), (e.1, p.2))))))
      let pb := (List.range (c.atDim / 64)).flatMap (fun n => [0, 1].map (fun h => (List.range 64).map (fun i =>
        blockSum ((List.range 32).filterMap (fun x =>
          match (res.2.1.find? (fun p => p.1 == 64 * b + 32 * h + x)), ((cols[32 * h + x]?).getD none) with
          | some p, some k => (k.vals[64 * n + i]?).map (fun v => ((pfmt, p.2), v))
          | _, _ => none)))))
      let n1 := comparisons keyFull qb
      let n2 := comparisons valFull pb
      let qt := qk.foldl (fun t x => t.add x.2.2) ({} : Tally)
      { a with st := if a.st.any (fun x => x.1 == r.idx) then updFirst (fun x => x.1 == r.idx) (fun _ => (r.idx, res.1)) a.st else a.st ++ [(r.idx, res.1)]
               tally := (a.tally.add qt).add res.2.2
               slots := (a.slots.1 + qkSlots.1 + pvSlots.1, a.slots.2 + qkSlots.2 + pvSlots.2)
               uncomp := a.uncomp + n1.1 + n2.1, resid := a.resid + n1.2 + n2.2
               lanes := a.lanes + (if ts = [] then 0 else 4 * ts.length + 4 + 3 * c.atDim) }) acc
    .ok { out with narrow := out.narrow + narrow, visits := out.visits + 1, reads := out.reads ++ keys.flatMap (fun k => k.2.reads) }

/-- The rows of one pass and sequence: the global phase, then the window phase, each in ascending block order (R295). -/
def State.walkSeq (s : State) (c : Ctx) (j : Job) (src : KeySrc) (pfmt : Fmt) (qs : List (Nat × LineOp)) (rs : List ARow) (acc : AttAcc) :
    Except DFault AttAcc :=
  let order := fun (glob : Bool) => (sortBy (fun a b => decide (a ≤ b)) (rs.flatMap (fun r => r.blocks src.cand glob)).eraseDups).map (fun b => (glob, b))
  (order true ++ order false).foldl (fun a v => match a with
    | .error e => .error e
    | .ok a => s.visitBlock c j src pfmt qs rs v.1 v.2 a) (.ok acc)

/-- The KV heads of a layer (R321). -/
def DirEntry.heads (d : DirEntry) : Nat := if d.headDim = 0 then 2 * d.tables else if d.headDim = 1 then d.tables else d.tables / 2

/-- The sequences whose directories on this package give a key ring's iteration its layer's KV head count: DEDUCED, those with tables here (R305, R318, log entry 179). -/
def State.headDirs (s : State) (c : Ctx) (j : Job) (rows : List ARow) : List Nat :=
  ((rows.map ARow.seq).eraseDups).filter (fun q => decide (q < j.sequences) && (s.dirEntry j q c.atLayer).addr != 0)

/-- An iteration over a key ring whose KV head the layer does not have (R305). -/
def State.ringHead (s : State) (c : Ctx) (j : Job) (rows : List ARow) (kvHead : Nat) : Option DFault :=
  let qs := s.headDirs c j rows
  (s.readFault (qs.flatMap (fun q => s.dirReads j q c.atLayer))).or
    (if qs.any (fun q => decide ((s.dirEntry j q c.atLayer).heads ≤ kvHead)) then some (flt fAddress) else none)

/-- The checks of the sequences' directories before tables are read (R305, R320, R321). -/
def State.attendDirs (s : State) (c : Ctx) (j : Job) (rows : List ARow) (kvHead : Nat) : Option DFault :=
  ((rows.map ARow.seq).eraseDups).findSome? (fun q =>
    let d := s.dirEntry j q c.atLayer
    if j.sequences ≤ q then some (flt fBadField)
    else if (s.readFault (s.dirReads j q c.atLayer)).isSome then s.readFault (s.dirReads j q c.atLayer)
    else if d.addr = 0 ∨ d.headDim ≠ c.atDimCode then some ⟨fBadDirectory, leBytes 2 q ++ leBytes 1 c.atLayer⟩
    else if d.heads ≤ kvHead then some (flt fAddress) else none)

/-- The result of one iteration: the output lines with their addresses and what was gathered. -/
structure AttOut where
  lines : List (Nat × Line)
  acc   : AttAcc
  empty : Nat
deriving DecidableEq, Repr

/-- The addresses of Q, O and STATE in an iteration. -/
def State.attendBases (s : State) (c : Ctx) (i : Iter) : Nat × Nat × Nat :=
  (s.space c c.atQ c.slot + c.atQ.off + 64 * adv0 i, s.space c c.atO c.slot + c.atO.off + 64 * adv1 i,
   s.space c c.atState c.slot + c.atState.off + 64 * adv1 i)

/-- The on-chip ranges that an iteration reads. -/
def State.attendReads (s : State) (c : Ctx) (m : Nat) (i : Iter) : List Ext :=
  let b := s.attendBases c i
  (lineAddrs b.1 m c.atQPitch).map (fun a => (a, c.atQLine)) ++ (if c.atIn then (lineAddrs b.2.2 m c.atOPitch).map (fun a => (a, c.atStateLine)) else [])

/-- One iteration of ATTEND (R281, R297): every row over its blocks, then the output or partial-state lines (R298, R299, R301). -/
def State.attendIter (s : State) (c : Ctx) (j : Job) (rows : List ARow) (i : Iter) (src : KeySrc) : Except DFault AttOut :=
  let dim := c.atDim
  let b := s.attendBases c i
  let pfmt : Fmt := if bits (s.layerEntry j c.atLayer) 35 32 = 0x4 then .e4m3 else .bf16
  let qs := rows.map (fun r => (r.idx, lineOp c.atQ.fmt c.atQ.scaled (s.rd (b.1 + r.idx * (64 * c.atQPitch)) c.atQLine) dim))
  let st0 := rows.map (fun r => (r.idx, if c.atIn then
      let vs := lineVals .fp32 false (s.rd (b.2.2 + r.idx * (64 * c.atOPitch)) c.atStateLine) (dim + 2)
      ⟨vs.take dim, (vs[dim]?).getD .nan, (vs[dim + 1]?).getD .nan⟩
    else rowStart dim))
  let passes := chunksOf 256 rows
  let walked := passes.foldl (fun acc ps => ((ps.map ARow.seq).eraseDups).foldl (fun acc q => match acc with
    | .error e => .error e
    | .ok a => s.walkSeq c j src pfmt qs (ps.filter (fun r => r.seq == q)) a) acc) (Except.ok { st := st0 })
  match walked with
  | .error e => .error e
  | .ok acc =>
    let fin := rows.map (fun r => (r, ((acc.st.find? (fun x => x.1 == r.idx)).map Prod.snd).getD (rowStart dim)))
    let sees := fun (r : ARow) => !(r.blocks src.cand true).isEmpty || !(r.blocks src.cand false).isEmpty
    let line := fun (x : RowState) =>
      if c.atOut then encodeLine .fp32 false (x.o ++ [x.m, x.l])
      else
        let vs := if x.l.isZero then x.o.map (fun _ => Val.zero false) else x.o.map (fun v => v.div x.l)
        encodeLine c.atO.fmt c.atO.scaled (if c.atO.scaled then vs.map roundXf else vs)
    .ok { lines := fin.map (fun x => (b.2.1 + x.1.idx * (64 * c.atOPitch), line x.2)), acc := { acc with lanes := acc.lanes + rows.length * dim }
          empty := (fin.filter (fun x => x.2.l.isZero || !sees x.1)).length }

/-- What an iteration leaves: the lines written, reads, counters (R306, R140, R149, R150, R155); the rules give no schedule of its arrays, so the cycles that the ramp of R546 adds are a free value (log entry 215). -/
def State.attendLand (s : State) (c : Ctx) (rows : List ARow) (ring : Bool) (o : AttOut) : State :=
  let core := (s.coreOf c.hall c.slot).getD 63
  let h := c.hall
  let a := o.acc
  let t := (s.readAll c a.reads).writeAll c (o.lines.map (fun x => (x.1, x.2.bytes)))
  let t := (t.count (0xC130 + h) (core + 1) a.slots.1).count (0xC140 + h) (core + 1) a.slots.2
  let t := ((t.energyEvent h c.wing c.account 0 a.slots.1).energyEvent h c.wing c.account 2 a.slots.2).energyEvent h c.wing c.account 4 a.lanes
  let t := (t.countDue c.wing (0xC150 + h) (core + 1) a.resid).countDue c.wing (0xC160 + h) (core + 1) a.uncomp
  let t := ((t.countDue c.wing (0xC1B0 + h) 1 rows.length).countDue c.wing (0xC1B0 + h) 2 a.visits).countDue c.wing (0xC1B0 + h) 3 a.narrow
  let t := t.countDue c.wing (0xC1B0 + h) 4 o.empty
  let d := t.draw
  let t := d.2.count 0xC310 5 (if rows = [] then 0 else d.1 % 2 ^ 64)
  if ring then t.countDue c.wing (0xC1B0 + h) 5 1 else t

/-- Counts of an iteration for the completion record. -/
def AttOut.tally (o : AttOut) : Tally := o.acc.tally.add (linesTally (o.lines.map Prod.snd))

/-- The entries of folio tables that the rows' visible positions name, with the global lists of windowed tables (R292, R319). -/
def State.attendTables (s : State) (c : Ctx) (j : Job) (rows : List ARow) (kvHead : Nat) : List Ext :=
  let win := decide (s.layerWindow j c.atLayer ≠ 0)
  ((rows.map ARow.seq).eraseDups).flatMap (fun q =>
    let d := s.dirEntry j q c.atLayer
    let rs := rows.filter (fun r => r.seq == q)
    let bs := (rs.flatMap (fun r => r.blocks none true ++ r.blocks none false)).eraseDups
    let is := bs.flatMap (fun b => ((List.range 4).map (4 * b + ·)).filter (fun i =>
      rs.any (fun r => (List.range 16).any (fun k => r.sees none (16 * i + k)))))
    (headTables c.atDim kvHead).flatMap (fun t => (if win then [(d.table t.1, 512)] else []) ++
      is.map (fun i => (d.entry win t.1 (if win then i % d.entries else i), 4))))

/-- Run the iterations of an ATTEND over folio tables; nothing is written where one of them faults (R288). -/
def State.attendRun (s : State) (c : Ctx) (j : Job) (m : Nat) (rows : List ARow) : State :=
  let its := s.iters c
  let res := its.foldl (fun acc i => match acc with
    | .error e => .error e
    | .ok l =>
      let kv := c.atHead + adv2 i
      match s.attendDirs c j rows kv with
      | some e => .error e
      | none => match s.attendIter c j rows i (.tables kv) with
        | .error e => .error e
        | .ok o => .ok (l ++ [o])) (Except.ok ([] : List AttOut))
  match res with
  | .error e => s.descFault c e
  | .ok os =>
    let seqs := (rows.map ARow.seq).eraseDups
    let reads := s.segReads j ++ [(j.layerTable + 16 * c.atLayer, 16)] ++ seqs.flatMap (fun q => s.dirReads j q c.atLayer) ++
      (((its.map (fun i => c.atHead + adv2 i)).eraseDups).flatMap (s.attendTables c j rows)) ++
      globalReads ((s.segs j).filter (fun g => decide (g.first < m)))
    match (s.readFault reads).or (s.dataFault (os.flatMap (fun o => o.acc.reads))) with
    | some d => s.descFault c d
    | none =>
      let t := s.readAll c (reads ++ its.flatMap (s.attendReads c m))
      let t := os.foldl (fun t o => t.attendLand c rows false o) t
      let t := t.countDue c.wing (0xC190 + c.hall) 1 (its.length * skippedPasses c.atM m)
      t.done c m (os.foldl (fun n o => n + o.acc.narrow) 0) (os.foldl (fun n o => n + o.acc.visits) 0) (os.foldl (fun y o => y.add o.tally) {})

/-- Decode an ATTEND: fault, no-op, wait for a write or a key slot, or run (R148, R178, R184, R289, R351). -/
def State.attendDesc (s : State) (c : Ctx) : State :=
  match s.attendFault c with
  | some d => s.descFault c d
  | none => match s.lens c [(c.fld 215 208, c.atM), (c.fld 223 216, c.atKeys)] with
    | .bad d => s.descFault c d
    | .noop => s.noop c
    | .ok lens =>
      let m := lens.headD 0
      match s.jobOf c with
      | none => s.descFault c (flt fBadManifest)
      | some j => match s.attendRows c j m ((lens[1]?).getD 0) with
        | .error d => s.descFault c d
        | .ok rows =>
          let xs := (s.iters c).flatMap (s.attendReads c m)
          if s.depends c xs then s.holdDep c xs
          else if c.atRing ≠ 0xFF then s.awaitSlots c [c.atRing]
          else match s.dataFault xs with
            | some d => s.descFault c d
            | none => s.attendRun c j m rows

/-- ATTEND (R297). -/
def execAttend (hall slot : Nat) (s : State) : Host.Outcome State Fault Refusal :=
  .next (keepCompute s (s.onDesc hall slot (fun c => c.op == 0x03) State.attendDesc))

/-- An ATTEND whose ring's head slot is full takes it and runs the iteration (R302, R303, R350). -/
def State.attendTake (s : State) (c : Ctx) : State :=
  let r := s.ring c.hall c.atRing
  match s.takeSlots c [c.atRing], s.lens c [(c.fld 215 208, c.atM), (c.fld 223 216, c.atKeys)], s.jobOf c with
  | some (t, taken), .ok lens, some j =>
    let m := lens.headD 0
    let n := (s.seq c.hall c.slot).iter
    let its := s.iters c
    let it := (its[n]?).getD (0, 0, 0)
    let kv := c.atHead + adv2 it
    let addr := takenAddr taken c.atRing
    let len := ((r.slots[r.head]?).map RSlot.len).getD 0
    match (s.readFault [(addr, 64)]).or (s.dataFault (s.attendReads c m it)) with
    | some d => s.descFault c d
    | none => match s.attendRows c j m ((lens[1]?).getD 0), s.keySlot c n addr len kv with
      | .error d, _ => t.descFault c d
      | _, .error d => t.descFault c d
      | .ok rows, .ok k => match (s.ringHead c j rows kv).or (s.readFault (k.entries.map (fun o => (addr + o, 256)))) with
        | some d => s.descFault c d
        | none => match s.attendIter c j rows it (.slot k kv) with
          | .error d => t.descFault c d
          | .ok o => match s.dataFault o.acc.reads with
            | some d => s.descFault c d
            | none =>
              let reads := (addr, 64) :: (k.entries.map (fun x => (addr + x, 256)) ++ s.attendReads c m it ++ (s.headDirs c j rows).flatMap (fun q => s.dirReads j q c.atLayer))
              let u := (t.readAll c reads).attendLand c rows true o
              let u := u.countDue c.wing (0xC190 + c.hall) 1 (skippedPasses c.atM m)
              let u := if n = 0 then (u.openRec c 0 m 0 0).2 else u
              let id := (u.seq c.hall c.slot).nextRec - 1
              let u := u.updRec c.hall c.slot id (fun x => { x.tally o.tally with detail0 := x.detail0 + o.acc.narrow, detail1 := x.detail1 + o.acc.visits })
              let u := u.tally c.hall c.slot o.tally
              if n + 1 < its.length then
                let q := u.seq c.hall c.slot
                u.setSeq c.hall c.slot { q with iter := n + 1 }
              else u.advance c
  | _, _, _ => s

/-! ### CONSUMER_TAKES_SLOT (R350) -/

/-- A consumer whose head slots are full takes them: the descriptor at which the sequencer waits goes on. -/
def consumerTakesSlot (hall slot : Nat) (s : State) : State :=
  match s.held hall slot .ringSlot with
  | none => s
  | some c => match c.op with
    | 0x01 => s.heavyTake c
    | 0x02 => s.heavyTake c
    | 0x03 => s.attendTake c
    | 0x04 => s.vectorTake c
    | 0x08 => s.moveTake c
    | _ => s

/-- CONSUMER_TAKES_SLOT (R350). -/
def execConsumerTakesSlot (hall slot : Nat) (s : State) : Host.Outcome State Fault Refusal :=
  .next (keepCompute s (consumerTakesSlot hall slot s))

/-! ### The start of a stage group (R81, R85) -/

/-- The rings that a descriptor consumes (R351). -/
def State.inputRings (s : State) (c : Ctx) : List Nat := match c.op with
  | 0x01 => s.heavyRingIds c
  | 0x02 => s.heavyRingIds c
  | 0x03 => if c.atRing = 0xFF then [] else [c.atRing]
  | 0x04 => s.vectorRings c
  | 0x08 => (s.mvSrcRing c).toList
  | _ => []

/-- The inputs of a stage group that come from outside its package's programs, rings filled by a peer or by collectives, have their head slots full: DEDUCED reading of "its last needed input" (R81, R85, log entry 193). -/
def State.inputsFull (s : State) (hall : Nat) (slots : List Nat) : Bool :=
  slots.all (fun slot =>
    let q := s.seq hall slot
    (q.program.zipIdx).all (fun d => (s.inputRings ⟨hall, slot, q.wing, d.2, d.1⟩).all (fun id =>
      let r := s.ring hall id
      !r.isOpen || r.closing || r.source == 0 || r.headFull)))

/-- The members of a stage group begin their programs (R81) once their inputs are full. -/
def stageGroupStart (hall : Nat) (g : GroupStart) (s : State) : State :=
  let slots := (List.range 40).filter (fun slot => (s.seq hall slot).status == .waiting && (s.seq hall slot).leader == g.leader)
  if s.beat.finished || s.cur.hallsStopped || !s.inputsFull hall slots then s
  else slots.foldl (fun t slot =>
    let q := t.seq hall slot
    t.setSeq hall slot { q with status := .running
                                slips := (g.slips.filter (fun x => x.1 == slot)).map Prod.snd
                                realPart := (g.realPart.filter (fun x => x.1 == slot)).map Prod.snd }) s

/-- STAGE_GROUP_START (R81). -/
def execStageGroupStart (hall : Nat) (leader : GroupStart) (s : State) : Host.Outcome State Fault Refusal :=
  .next (keepCompute s (stageGroupStart hall leader s))

end Sys2Proof.Machine
end

