-- ==== Sys2Proof/Machine/Sequencer.lean ====
section
/-! DEFINITION. Work sharing, waiting, flags and the end of a beat program (R208-R216, R244, R245), the start of a stage group (R81), the end of a dependency hold (R148), and descriptors that name no operation of the tables (R175). -/

namespace Sys2Proof.Machine

open Sys2Proof

/-! ### CLAIM (R208, R209) -/

def Ctx.clCounter (c : Ctx) : Nat := c.fld 68 64
def Ctx.clReg (c : Ctx) : Nat := c.fld 70 69
def Ctx.clBody (c : Ctx) : Nat := c.fld 79 72
def Ctx.clStep (c : Ctx) : Nat := c.fld 95 80
def Ctx.clLimit (c : Ctx) : Nat := c.fld 127 96

/-- The body runs past the program's SEAL, or holds a CLAIM or SEAL (R209). -/
def State.bodyBad (s : State) (c : Ctx) : Bool :=
  let p := (s.seq c.hall c.slot).program
  let body := (p.drop (c.pos + 1)).take c.clBody
  decide (body.length < c.clBody) || body.any (fun d => bits d 7 0 == 0x18 || bits d 7 0 == 0x3F)

/-- Decode checks of CLAIM (R178, R208, R209). -/
def State.claimFault (s : State) (c : Ctx) : Option DFault :=
  (s.headerFault c [(71, 71), (136, 511)] [] false false).or (firstFault [
    (c.clBody == 0 || decide (64 < c.clBody) || c.clStep == 0, flt fBadField),
    (s.bodyBad c, flt fBadBody)])

/-- The key of a shared work counter of the slot's stage group (R244). -/
def State.counterKey (s : State) (c : Ctx) (i : Nat) : Nat := s.groupKey c * 32 + i

def State.counter (s : State) (c : Ctx) (i : Nat) : Nat := mget 0 s.work.counters (s.counterKey c i)

/-- The loop ends: its record, and on after the body. -/
def State.claimEnd (s : State) (c : Ctx) (status length : Nat) : State :=
  let q := s.seq c.hall c.slot
  let runs := if q.loop = some (c.pos, c.pos + c.clBody) then q.runs else 0
  let t := (s.openRec c status length runs 0).2
  let q := t.seq c.hall c.slot
  t.setSeq c.hall c.slot { q with pos := c.pos + c.clBody + 1, hold := .none, waits := [], iter := 0, loop := none, runs := 0 }

/-- One claim (R208, R244, R245): fetch and add, then the body for a value below the limit. -/
def State.claimOnce (s : State) (c : Ctx) (limit : Nat) : State :=
  let v := s.counter c c.clCounter
  let t := { s with work := { s.work with counters := mset 0 s.work.counters (s.counterKey c c.clCounter) (satAdd 32 v c.clStep) } }
  if limit ≤ v then t.claimEnd c 0 limit
  else
    let q := t.seq c.hall c.slot
    let runs := if q.loop = some (c.pos, c.pos + c.clBody) then q.runs else 0
    (t.setSeq c.hall c.slot { q with cregs := q.cregs.set c.clReg v, loop := some (c.pos, c.pos + c.clBody), runs := runs + 1
                                     pos := c.pos + 1, hold := .none, waits := [], iter := 0 }).countDue c.wing (0xC190 + c.hall) 4 1

/-- Decode a CLAIM: a manifest length of 0 runs no body and reports STATUS 1 (R184, R242). -/
def State.claimDesc (s : State) (c : Ctx) : State :=
  match s.claimFault c with
  | some d => s.descFault c d
  | none => match s.refLen c (c.fld 135 128) c.clLimit with
    | .error d => s.descFault c d
    | .ok n =>
      if n = 0 ∧ c.fld 135 128 ≠ 0xFF then (s.countDue c.wing (0xC190 + c.hall) 3 1).claimEnd c 1 0
      else s.claimOnce c n

/-- CLAIM (R208). -/
def execClaim (hall slot : Nat) (s : State) : Host.Outcome State Fault Refusal :=
  .next (keepCompute s (s.onDesc hall slot (fun c => c.op == 0x18) State.claimDesc))

/-! ### COUNTER_WAIT (R210) -/

def Ctx.cwKind (c : Ctx) : Nat := c.fld 71 64
def Ctx.cwIndex (c : Ctx) : Nat := c.fld 79 72
def Ctx.cwValue (c : Ctx) : Nat := c.fld 127 96

/-- Decode checks of COUNTER_WAIT. -/
def State.counterWaitFault (s : State) (c : Ctx) : Option DFault :=
  (s.headerFault c [(80, 95), (136, 511)] [] false false).or (firstFault [
    (decide (1 < c.cwKind), flt fBadField),
    (decide ((if c.cwKind = 0 then 31 else 15) < c.cwIndex), flt fBadField)])

/-- The counter a COUNTER_WAIT watches: a shared work counter or a row-completion counter (R210, R277). -/
def State.watched (s : State) (c : Ctx) : Nat :=
  if c.cwKind = 0 then s.counter c c.cwIndex else mget 0 s.work.rowsDone (c.hall * 16 + c.cwIndex)

/-- Decode a COUNTER_WAIT: on at once when the counter has reached VALUE, else hold (R210). -/
def State.counterWaitDesc (s : State) (c : Ctx) : State :=
  match s.counterWaitFault c with
  | some d => s.descFault c d
  | none => match s.refLen c (c.fld 135 128) c.cwValue with
    | .error d => s.descFault c d
    | .ok n =>
      if n = 0 ∧ c.fld 135 128 ≠ 0xFF then s.noop c
      else if n ≤ s.watched c then s.done c n 0 0 {}
      else s.holdSeq c .counter

/-- COUNTER_WAIT (R210). -/
def execCounterWait (hall slot : Nat) (s : State) : Host.Outcome State Fault Refusal :=
  .next (keepCompute s (s.onDesc hall slot (fun c => c.op == 0x19) State.counterWaitDesc))

/-- COUNTER_WAIT_SATISFIED (R210): the held wait goes on when its counter has reached VALUE. -/
def execCounterWaitSatisfied (hall slot : Nat) (s : State) : Host.Outcome State Fault Refusal :=
  .next (keepCompute s (match s.held hall slot .counter with
    | some c => match s.refLen c (c.fld 135 128) c.cwValue with
      | .ok n => if n ≤ s.watched c then s.done c n 0 0 {} else s
      | .error _ => s
    | none => s))

/-! ### SIGNAL and WAIT (R211, R212) -/

def Ctx.sgKind (c : Ctx) : Nat := c.fld 71 64
def Ctx.sgFlag (c : Ctx) : Nat := c.fld 79 72
def Ctx.sgTarget (c : Ctx) : Nat := c.fld 85 80
def Ctx.sgAdd (c : Ctx) : Nat := c.fld 127 96

/-- Decode checks of SIGNAL. -/
def State.signalFault (s : State) (c : Ctx) : Option DFault :=
  (s.headerFault c [(86, 95), (128, 511)] [] false false).or (firstFault [
    (decide (63 < c.sgFlag), flt fBadField),
    (c.sgKind == 1 && c.sgTarget != s.device && !s.present c.sgTarget, flt fBadPeer)])

/-- Add to a local flag, saturating (R212). -/
def State.flagAdd (s : State) (hall flag n : Nat) : State :=
  { s with work := { s.work with flags := mset 0 s.work.flags (hall * 64 + flag) (satAdd 32 (mget 0 s.work.flags (hall * 64 + flag)) n) } }

/-- Add to a wing's remote flag, saturating (R212). -/
def State.remoteAdd (s : State) (wing flag n : Nat) : State :=
  { s with work := { s.work with remote := mset 0 s.work.remote (wing * 64 + flag) (satAdd 32 (mget 0 s.work.remote (wing * 64 + flag)) n) } }

/-- A local SIGNAL adds at once (R212). -/
def State.signalLocalDesc (s : State) (c : Ctx) : State :=
  match s.signalFault c with
  | some d => s.descFault c d
  | none => (s.flagAdd c.hall c.sgFlag c.sgAdd).done c 0 0 0 {}

/-- A remote SIGNAL is due at the seal that commits the beat (R212). -/
def State.signalRemoteDesc (s : State) (c : Ctx) : State :=
  match s.signalFault c with
  | some d => s.descFault c d
  | none =>
    let t := { s with work := { s.work with
      signals := s.work.signals ++ [(c.sgTarget, c.wing, c.sgFlag, c.sgAdd, c.account)]
      sentTo := if c.sgTarget = s.device ∨ s.work.sentTo.contains c.sgTarget then s.work.sentTo else s.work.sentTo ++ [c.sgTarget] } }
    t.done c 0 0 0 {}

/-- SIGNAL, local (R212). -/
def execSignalLocal (hall slot : Nat) (s : State) : Host.Outcome State Fault Refusal :=
  .next (keepCompute s (s.onDesc hall slot (fun c => c.op == 0x28 && c.sgKind == 0) State.signalLocalDesc))

/-- SIGNAL, remote (R212). -/
def execSignalRemote (hall slot : Nat) (s : State) : Host.Outcome State Fault Refusal :=
  .next (keepCompute s (s.onDesc hall slot (fun c => c.op == 0x28 && c.sgKind == 1) State.signalRemoteDesc))

/-- REMOTE_FLAG (R212): a remote-flag packet; the router has matched its WING (R615). -/
def execRemoteFlag (_source wing flag add : Nat) (s : State) : Host.Outcome State Fault Refusal :=
  .next (keepCompute s (s.remoteAdd wing flag add))

/-- Decode checks of WAIT. -/
def State.flagWaitFault (s : State) (c : Ctx) : Option DFault :=
  (s.headerFault c [(80, 95), (128, 511)] [] false false).or (firstFault [
    (decide (1 < c.sgKind) || decide (63 < c.sgFlag), flt fBadField)])

/-- The flag a WAIT watches. -/
def State.flagOf (s : State) (c : Ctx) : Nat :=
  if c.sgKind = 0 then mget 0 s.work.flags (c.hall * 64 + c.sgFlag) else mget 0 s.work.remote (c.wing * 64 + c.sgFlag)

/-- Decode a WAIT (R211). -/
def State.flagWaitDesc (s : State) (c : Ctx) : State :=
  match s.flagWaitFault c with
  | some d => s.descFault c d
  | none => if c.sgAdd ≤ s.flagOf c then s.done c 0 0 0 {} else s.holdSeq c .flag

/-- WAIT (R211). -/
def execFlagWait (hall slot : Nat) (s : State) : Host.Outcome State Fault Refusal :=
  .next (keepCompute s (s.onDesc hall slot (fun c => c.op == 0x29) State.flagWaitDesc))

/-- FLAG_WAIT_SATISFIED (R211). -/
def execFlagWaitSatisfied (hall slot : Nat) (s : State) : Host.Outcome State Fault Refusal :=
  .next (keepCompute s (match s.held hall slot .flag with
    | some c => if c.sgAdd ≤ s.flagOf c then s.done c 0 0 0 {} else s
    | none => s))

/-! ### PHASE and SEAL (R215, R216) -/

/-- Decode a PHASE (R215, R220): the slot's phase from this point on. -/
def State.phaseDesc (s : State) (c : Ctx) : State :=
  match (s.headerFault c [(68, 511)] [] false false).or (firstFault [(c.version == 2, flt fBadVersion)]) with
  | some d => s.descFault c d
  | none =>
    let q := s.seq c.hall c.slot
    (s.setSeq c.hall c.slot { q with phase := c.fld 67 64 }).done c 0 0 0 {}

/-- Decode a SEAL (R216): the program's length must be COUNT; the sequencer issues nothing further. -/
def State.sealDesc (s : State) (c : Ctx) : State :=
  let n := (s.seq c.hall c.slot).program.length
  match (s.headerFault c [(80, 511)] [] false false).or (firstFault [
      (c.fld 79 64 != n || c.pos + 1 != n, flt fSealCount)]) with
  | some d => s.descFault c d
  | none =>
    let t := s.done c 0 0 0 {}
    let q := t.seq c.hall c.slot
    t.setSeq c.hall c.slot { q with status := .sealed }

/-- SEAL (R216). -/
def execSeal (hall slot : Nat) (s : State) : Host.Outcome State Fault Refusal :=
  .next (keepCompute s (s.onDesc hall slot (fun c => c.op == 0x3F) State.sealDesc))

/-! ### Descriptors without an operation (R175) -/

/-- The opcodes of R175. -/
def opcodes : List Nat := [0x01, 0x02, 0x03, 0x04, 0x05, 0x08, 0x09, 0x0A, 0x0B, 0x10, 0x11, 0x12, 0x18, 0x19, 0x20, 0x21, 0x28, 0x29, 0x2C, 0x3F]

/-- The opcode is in the table, but the operation it selects is not: VOP, RSOP, LOP, COP, or SIGNAL's KIND. The command tables have no row of their own for these; they fault as reserved encodings (R219, log entry 22). -/
def Ctx.subUnknown (c : Ctx) : Bool :=
  let x := c.fld 71 64
  (c.op == 0x04 && !([0x01, 0x02, 0x03, 0x04, 0x05, 0x06, 0x07, 0x08, 0x09, 0x0A, 0x0B, 0x10, 0x11, 0x12, 0x13, 0x14, 0x15, 0x16,
      0x20, 0x21, 0x22, 0x23].contains x)) ||
    (c.op == 0x05 && !([1, 2, 3].contains x)) || (c.op == 0x0B && !([1, 2].contains (c.fld 103 96))) ||
    (c.op == 0x20 && !([1, 2, 3, 4, 5, 6, 7, 8].contains (c.fld 87 80))) || (c.op == 0x28 && decide (1 < x))

/-- Decode a descriptor that names no operation (R175, R219). -/
def State.badOpcodeDesc (s : State) (c : Ctx) : State :=
  if opcodes.contains c.op then s.descFault c ((s.headerFault c [] [] false false).getD (flt fBadField))
  else s.descFault c (flt fBadOpcode)

/-- BAD_OPCODE (R175). -/
def execBadOpcode (hall slot : Nat) (s : State) : Host.Outcome State Fault Refusal :=
  .next (keepCompute s (s.onDesc hall slot (fun c => !opcodes.contains c.op || c.subUnknown) State.badOpcodeDesc))

/-! ### Dependency and start -/

/-- DEPENDENCY_WAIT_END (R148): the writes the held descriptor depends on are complete; the cycles held count. -/
def dependencyWaitEnd (hall slot cycles : Nat) (s : State) : State :=
  match s.held hall slot .dependency with
  | none => s
  | some c =>
    let q := s.seq hall slot
    if s.depends c q.dep then s
    else (s.setSeq hall slot { q with hold := .none, dep := [] }).countDue q.wing (0xC170 + hall) ((s.coreOf hall slot).getD 63 + 1) cycles

/-- DEPENDENCY_WAIT_END (R148). -/
def execDependencyWaitEnd (hall slot cycles : Nat) (s : State) : Host.Outcome State Fault Refusal :=
  .next (keepCompute s (dependencyWaitEnd hall slot cycles s))

end Sys2Proof.Machine
end

