-- ==== Sys2Proof/Machine/Torus.lean ====
section
/-! DEFINITION. The torus (13_torus_links.md): coordinates and neighbours (R404), the maps of R431 as routing reads them, the way round a ring (R428, R430, R432), and whether a device can be reached. -/

namespace Sys2Proof.Machine

open Sys2Proof

/-- x and y of a device, and the device at a place (R404). -/
def devX (d : Nat) : Nat := d / 8
def devY (d : Nat) : Nat := d % 8
def devAt (x y : Nat) : Nat := 8 * x + y

/-- The shape of the torus (R64). -/
def State.torusX (s : State) : Nat := max 1 s.torus.shapeX
def State.torusY (s : State) : Nat := max 1 s.torus.shapeY

/-- The neighbour of a device in a direction. -/
def State.neighbourOf (s : State) (dev dir : Nat) : Nat :=
  let x := devX dev
  let y := devY dev
  match dir with
  | 0 => devAt ((x + 1) % s.torusX) y
  | 1 => devAt ((x + s.torusX - 1) % s.torusX) y
  | 2 => devAt x ((y + 1) % s.torusY)
  | _ => devAt x ((y + s.torusY - 1) % s.torusY)

/-- A link is in CUT_LINKS (R431). -/
def State.linkBit (s : State) (dev : Nat) (yLink : Bool) : Bool := bitOf (s.obj 0x8100 2) (2 * dev + b2n yLink)

/-- The link out of a device in a direction is cut. -/
def State.cutFrom (s : State) (dev dir : Nat) : Bool := s.linkBit (if dir % 2 = 0 then dev else s.neighbourOf dev dir) (decide (2 ≤ dir))

/-- The next hops of a leg meet no missing device and no cut link. -/
def State.legClear (s : State) (dev dir : Nat) : Nat → Bool
  | 0 => true
  | n + 1 => !s.cutFrom dev dir && s.present (s.neighbourOf dev dir) && s.legClear (s.neighbourOf dev dir) dir n

/-- Position on a ring, and its size. -/
def ringPos (dev : Nat) (y : Bool) : Nat := if y then devY dev else devX dev
def State.ringSize (s : State) (y : Bool) : Nat := if y then s.torusY else s.torusX

/-- Hops from one position to another in the + or the - direction. -/
def hopsTo (n p q : Nat) (plus : Bool) : Nat := if plus then (q + n - p) % n else (p + n - q) % n

/-- The route of a ring entered at dev towards position q: the direction, and whether it is a detour (R428, R430, R432). -/
def State.enterRing (s : State) (dev q : Nat) (y vc4 : Bool) : Option (Nat × Bool) :=
  let n := s.ringSize y
  let p := ringPos dev y
  let plus := hopsTo n p q true
  let minus := hopsTo n p q false
  let first := if vc4 then decide (p < q) else decide (plus ≤ minus)
  let base := if y then 2 else 0
  let dir := fun (b : Bool) => if b then base else base + 1
  let clear := fun (b : Bool) => s.legClear dev (dir b) (if b then plus else minus)
  if clear first then some (dir first, false) else if clear (!first) then some (dir (!first), true) else none

/-- A device is present, and routing reaches it: along X in this package's row, then along Y (R428, R432). -/
def State.reaches (s : State) (dev : Nat) : Bool :=
  s.present dev && (s.enterRing s.device (devX dev) false false).isSome &&
    (s.enterRing (devAt (devX dev) (devY s.device)) (devY dev) true false).isSome

end Sys2Proof.Machine
end

