-- ==== Sys2Proof/Machine/Group.lean ====
section
/-! DEFINITION. Collective groups and their runs (14_collectives.md): paths (R440-R442), the reference fold with narrowing (R451-R454), pieces and frames (R457, R458, R464, R465), progress of a run on this package (R455-R463), delivery (R448, R450, R467). -/

namespace Sys2Proof.Machine

open Sys2Proof

/-! ### Groups -/

/-- Device, hall, x and y of a member (R438, R440). -/
def memDev (m : Nat) : Nat := m % 64
def memHall (m : Nat) : Nat := m / 64 % 8

/-- The member packages, in rank order. -/
def Group.devices (g : Group) : List Nat := (g.members.map memDev).eraseDups

/-- The rows that hold a member, ascending. -/
def Group.rows (g : Group) : List Nat := sortBy (fun a b => decide (a ≤ b)) (g.devices.map devY).eraseDups

/-- x_L (R441). -/
def Group.xLast (g : Group) : Nat := g.devices.foldl (fun m d => max m (devX d)) 0

/-- The smallest member x of a row. -/
def Group.rowStart (g : Group) (y : Nat) : Nat := (g.devices.filter (fun d => devY d == y)).foldl (fun m d => min m (devX d)) g.xLast

def Group.yFirst (g : Group) : Nat := g.rows.headD 0
def Group.yLast (g : Group) : Nat := (g.rows.getLast?).getD 0

/-- The packages on the path: row chains and the column chain (R441). -/
def Group.path (g : Group) : List Nat :=
  (g.rows.flatMap (fun y => (List.range (g.xLast + 1 - g.rowStart y)).map (fun i => 8 * (g.rowStart y + i) + y)) ++
    (List.range (g.yLast + 1 - g.yFirst)).map (fun i => 8 * g.xLast + g.yFirst + i)).eraseDups

/-- A link of the path: from the device in +X, or in +Y (R441). -/
def Group.usesLink (g : Group) (device : Nat) (yLink : Bool) : Bool :=
  let x := devX device
  let y := devY device
  if yLink then x == g.xLast && decide (g.yFirst ≤ y) && decide (y < g.yLast)
  else g.rows.contains y && decide (g.rowStart y ≤ x) && decide (x < g.xLast)

/-- The ranks of a package's members, ascending. -/
def Group.ranksOn (g : Group) (d : Nat) : List Nat := (List.range g.members.length).filter (fun r => ((g.members[r]?).map memDev) == some d)

/-- The rank of a hall of this package. -/
def Group.rankOf (g : Group) (d h : Nat) : Option Nat := g.members.findIdx? (fun m => memDev m == d && memHall m == h)

def State.group (s : State) (h : Nat) : Option Group := mget none s.coll.groups h

def State.setGroup (s : State) (h : Nat) (g : Option Group) : State :=
  { s with coll := { s.coll with groups := mset none s.coll.groups h g } }

/-! ### Runs -/

def State.run (s : State) (group seq : Nat) : Option CollRun := s.coll.runs.find? (fun r => r.group == group && r.seq == seq)

def State.putRun (s : State) (r : CollRun) : State :=
  let same := fun (x : CollRun) => x.group == r.group && x.seq == r.seq
  { s with coll := { s.coll with runs := if s.coll.runs.any same then updFirst same (fun _ => r) s.coll.runs else s.coll.runs ++ [r] } }

/-- The run of a launch, created when it is first heard of. -/
def State.runOf (s : State) (group seq : Nat) : CollRun := (s.run group seq).getD { group := group, seq := seq }

/-- The launches of local members in a run, ascending rank. -/
def State.launchesOf (s : State) (group seq : Nat) : List Launch :=
  sortBy (fun (a b : Launch) => decide (a.rank ≤ b.rank)) (s.coll.launches.filter (fun l => l.group == group && l.seq == seq))

/-- A member is empty (R447), once its frame is known. -/
def CollRun.emptyRank (r : CollRun) (rank : Nat) : Bool := match r.frames.find? (fun f => f.1 == rank) with
  | some f => f.2.2
  | none => false

/-- Every member's LAUNCH frame is here (R456). -/
def CollRun.framesAll (r : CollRun) (g : Group) : Bool := (List.range g.members.length).all (fun k => r.frames.any (fun f => f.1 == k))

/-- The package has a member that is not empty. -/
def CollRun.gives (r : CollRun) (g : Group) (d : Nat) : Bool := (g.ranksOn d).any (fun k => !r.emptyRank k)

/-- The identity of the run: this package's first member's, else any that is known. -/
def State.runIdentity (s : State) (r : CollRun) (g : Group) : List Byte :=
  let mine := g.ranksOn s.device
  match r.frames.find? (fun f => mine.contains f.1) with
  | some f => f.2.1
  | none => ((r.frames.head?).map (fun f => f.2.1)).getD (List.replicate 32 0)

/-- COP, DTYPE, NARROW_FMT where NARROW is set, of an identity (R465). -/
def idCop (i : List Byte) : Nat := leAt i 10 1
def idDtype (i : List Byte) : Nat := leAt i 11 1 % 16
def idNarrow (i : List Byte) : Option Nat := if leAt i 12 1 = 1 then some (leAt i 11 1 / 16) else none

/-- The fingerprint (R465). -/
def fingerprint (i : List Byte) : List Byte := (sha256 i).take 8

/-- The launch identity (R465). -/
def launchIdentity (g : Group) (l : Launch) (nfmt : Nat) : List Byte :=
  leBytes 2 l.group ++ leBytes 8 g.digest ++ leBytes 1 l.cop ++ leBytes 1 (l.dtype + 16 * nfmt) ++ leBytes 1 (b2n l.narrow.isSome) ++ [0] ++
    leBytes 4 (if l.cop = 7 then 0 else l.count) ++ leBytes 4 l.capacity ++ leBytes 2 l.root ++ leBytes 4 l.seq ++ leBytes 4 0

/-- The payload of a LAUNCH frame (R464). -/
def launchFrame (identity : List Byte) (rank : Nat) (empty : Bool) : List Byte :=
  fitBytes 56 (identity ++ fingerprint identity ++ leBytes 2 rank ++ leBytes 1 (b2n empty))

/-! ### Elements and pieces -/

def dtypeFmt (d : Nat) : Fmt := (Fmt.ofCode d).getD .bf16

/-- Bytes of n elements of a DTYPE. -/
def dtBytes (d n : Nat) : Nat := elemBytes (dtypeFmt d) n

/-- Elements of a full piece (R457). -/
def pieceElems (d : Nat) : Nat := 3840 * 8 / (dtypeFmt d).width

/-- Pieces of n elements. -/
def pieceCountOf (d n : Nat) : Nat := ceilDiv n (pieceElems d)

/-- Elements of piece k of n. -/
def pieceLen (d n k : Nat) : Nat := min (pieceElems d) (n - k * pieceElems d)

/-- Quantise one aligned block and widen it (R453): codes of DTYPE and saturations. -/
def narrowBlock (d nf : Nat) (vs : List Val) : List Val × Nat :=
  if nf = 0xA then (vs.map (roundFmt .bf16), 0)
  else
    let f := dtypeFmt nf
    let q := quantBlock f (vs ++ List.replicate (32 - vs.length) (Val.zero false))
    (((q.codes.take vs.length).map (fun x => roundFmt (dtypeFmt d) (scaled (decodeElem f x) q.scale))), q.sats)

/-- N over a piece (R453): the identity where NARROW is 0. -/
def narrowN (d : Nat) (nf : Option Nat) (vs : List Val) : List Val × Nat := match nf with
  | none => (vs, 0)
  | some nf =>
    let bs := (chunksOf 32 vs).map (narrowBlock d nf)
    (bs.flatMap Prod.fst, bs.foldl (fun n b => n + b.2) 0)

/-- Values of codes, and codes of values, of a DTYPE. -/
def dtVals (d : Nat) (cs : List Nat) : List Val := cs.map (decodeElem (dtypeFmt d))
def dtCodes (d : Nat) (vs : List Val) : List Nat := vs.map (fun v => (convert (dtypeFmt d) false v).code)

/-- add (R451, R452), element by element. -/
def dtAdd (d : Nat) (a b : List Val) : List Val := (a.zip b).map (fun p => roundFmt (dtypeFmt d) (p.1.add p.2))

/-- The data bytes of a piece (R458): DTYPE elements, or on upper levels of a narrowed launch the block elements with their scales. -/
def pieceData (d : Nat) (nf : Option Nat) (upper : Bool) (cs : List Nat) : List Byte := match nf, upper with
  | some nf, true =>
    if nf = 0xA then packCodes .bf16 ((dtVals d cs).map (fun v => (convert .bf16 false v).code))
    else
      let f := dtypeFmt nf
      let qs := (chunksOf 32 (dtVals d cs)).map (fun b => (b.length, quantBlock f (b ++ List.replicate (32 - b.length) (Val.zero false))))
      qs.flatMap (fun q => packCodes f (q.2.codes.take q.1)) ++ qs.map (fun q => BitVec.ofNat 8 q.2.scale)
  | _, _ => packCodes (dtypeFmt d) cs

/-- The elements of n received data bytes. -/
def pieceOfData (d : Nat) (nf : Option Nat) (narrowed : Bool) (n : Nat) (bs : List Byte) : List Nat := match nf, narrowed with
  | some nf, true =>
    if nf = 0xA then dtCodes d ((lineCodes .bf16 bs n).map (decodeElem .bf16))
    else
      let f := dtypeFmt nf
      dtCodes d (((lineCodes f bs n).zipIdx).map (fun e => roundFmt (dtypeFmt d) (scaled (decodeElem f e.1) (leAt bs (n + e.2 / 32) 1))))
  | _, _ => lineCodes (dtypeFmt d) bs n

/-- The bytes of a piece's packet after the route word (R458). -/
def piecePacket (r : CollRun) (cop d : Nat) (nf : Option Nat) (print : List Byte) (p : Piece) : List Byte :=
  let upper := decide (0 < p.level)
  let narrowed := upper && nf.isSome
  let fmt := if narrowed then nf.getD d else d
  let head := leBytes 2 r.group ++ leBytes 1 cop ++ leBytes 1 (fmt + 16 * d) ++ leBytes 1 (p.level + 4 * b2n p.back + 8 * b2n narrowed) ++ leBytes 3 0 ++
    leBytes 4 r.seq ++ fitBytes 8 print ++ leBytes 4 p.index ++ leBytes 4 p.codes.length ++ leBytes 2 p.origin ++ leBytes 2 p.dest ++ leBytes 6 p.beat
  fitBytes 60 head ++ pieceData d nf upper p.codes

/-- A piece's header as it arrives. -/
structure PieceHead where
  group : Nat
  cop   : Nat
  dtype : Nat
  level : Nat
  back  : Bool
  narrowed : Bool
  seq   : Nat
  print : List Byte
  index : Nat
  elems : Nat
  origin : Nat
  dest  : Nat
  beat  : Nat
deriving DecidableEq, Repr

def PieceHead.of (b : List Byte) : PieceHead :=
  { group := leAt b 0 2, cop := leAt b 2 1, dtype := leAt b 3 1 / 16, level := leAt b 4 1 % 4, back := bitOf (leAt b 4 1) 2
    narrowed := bitOf (leAt b 4 1) 3, seq := leAt b 8 4, print := slice b 12 8, index := leAt b 20 4, elems := leAt b 24 4
    origin := leAt b 28 2, dest := leAt b 30 2, beat := leAt b 32 6 }

/-- A reducing operation (R449). -/
def reducing (cop : Nat) : Bool := [3, 4, 8].contains cop

/-- An operation that reduces along the chains (R455). -/
def chained (cop : Nat) : Bool := [3, 4].contains cop

/-- Elements at an element offset of a device range, as codes. -/
def State.rdElems (s : State) (a d off n : Nat) : List Nat :=
  lineCodes (dtypeFmt d) (s.rd (a + dtBytes d off) (dtBytes d n)) n

/-! ### Reduction along the chains (R451, R455, R459) -/

/-- The stages of the chain at a package: the row's partial, the column's partial, the result. -/
abbrev stageRow : Nat := 1
abbrev stageColumn : Nat := 2
abbrev stageResult : Nat := 3

/-- The commit tokens of a piece are in (R460): a bulk piece's sender's; a reduced piece's from every package on the path, or, where no chain carries it (R463), from every member package. -/
def State.pieceOk (s : State) (g : Group) (r : CollRun) (p : Piece) : Bool :=
  let from_ := if p.origin ≠ 0xFFFF then [p.sender] else if idCop (s.runIdentity r g) = 8 then g.devices else g.path
  from_.all (fun d => s.coll.tokens.contains (d, p.beat))

/-- Pieces may be formed now: the beat is under way, or a package has withdrawn it and its reducing work is done again (R461). -/
def State.mayForm (s : State) : Bool := !s.beat.committed || s.coll.redo.any (fun e => e.2 == s.beat.doing)

/-- The count of a run: its members' that are not empty (R447, R465). -/
def CollRun.count (r : CollRun) : Nat := (r.frames.filter (fun f => !f.2.2)).foldl (fun m f => max m (leAt f.2.1 14 4)) 0

/-- A run along the chains is over at this package: it has every result piece, and every piece of it here is committed. Its reduction slots are free again. -/
def State.runOver (s : State) (g : Group) (r : CollRun) : Bool :=
  r.framesAll g && r.pieces.all (fun p => p.ok) &&
    (List.range (pieceCountOf (idDtype (s.runIdentity r g)) r.count)).all (fun k => r.pieces.any (fun p => p.back && p.origin == 0xFFFF && p.index == k))

/-- A piece may be used as an input: it is of the beat under way, or committed (R460). -/
def State.usable (s : State) (p : Piece) : Bool := p.ok || p.beat == s.beat.doing

/-- The incoming partial of a level for an index. -/
def State.partialIn (s : State) (r : CollRun) (level k : Nat) : Option Piece :=
  r.pieces.find? (fun p => p.level == level && !p.back && p.index == k && p.origin == 0xFFFF && s.usable p)

/-- s[p]: the level-0 sum of piece k over this package's members that are not empty (R451), in DTYPE values. -/
def State.levelZero (s : State) (ls : List Launch) (d k n : Nat) : List Val :=
  match ls.filter (fun l => l.count != 0) with
  | [] => []
  | l :: rest => rest.foldl (fun a x => dtAdd d a (dtVals d (s.rdElems x.src d (k * pieceElems d) n)))
      (dtVals d (s.rdElems l.src d (k * pieceElems d) n))

/-- What a package forms for one piece: the stage, the values, the saturations and additions it took, and where it goes (none: it is the result). -/
structure Formed where
  stage : Nat
  vals  : List Val
  sats  : Nat
  adds  : Nat
  next  : Option Nat
deriving DecidableEq, Repr

/-- An operand joined to an incoming partial (R451). -/
def joinPartial (d : Nat) (nf : Option Nat) (inc : Option (List Val)) (own : Option (List Val)) : Option (List Val × Nat × Nat) :=
  match inc, own with
  | none, none => none
  | some a, none => some (a, 0, 0)
  | none, some b => let n := narrowN d nf b
                    some (n.1, n.2, 0)
  | some a, some b =>
    let n := narrowN d nf b
    let m := narrowN d nf (dtAdd d a n.1)
    some (m.1, n.2 + m.2, 1)

/-- What this package can form of piece k now, beyond what it has (R451, R459): the row's partial, then at x_L the column's. -/
def State.formPiece (s : State) (g : Group) (r : CollRun) (ls : List Launch) (d k n : Nat) (nf : Option Nat) : List Formed :=
  let me := s.device
  let x := devX me
  let y := devY me
  let single := g.devices.length == 1
  let own := if r.gives g me then some (s.levelZero ls d k n) else none
  if single then (match own with
    | some v => [⟨stageResult, v, 0, 0, none⟩]
    | none => [])
  else
    let inRow := g.rows.contains y
    let upRow := (g.devices.filter (fun e => devY e == y && decide (devX e < x))).any (r.gives g)
    let upCol := (g.devices.filter (fun e => decide (devY e < y))).any (r.gives g)
    let rowIn := s.partialIn r 1 k
    let colIn := s.partialIn r 2 k
    let row := if !inRow || (upRow && rowIn.isNone) then none
      else joinPartial d nf (rowIn.map (fun p => dtVals d p.codes)) own
    if x < g.xLast then (match row with
      | some v => [⟨stageRow, v.1, v.2.1, v.2.2, some (devAt (x + 1) y)⟩]
      | none => [])
    else
      let rowGives := inRow && (g.devices.filter (fun e => devY e == y)).any (r.gives g)
      if (upCol && colIn.isNone) || (rowGives && row.isNone) then []
      else match joinPartial d nf (colIn.map (fun p => dtVals d p.codes)) (row.map (fun v => v.1)) with
        | none => []
        | some v =>
          let extra := ((row.map (fun w => w.2.1)).getD 0, (row.map (fun w => w.2.2)).getD 0)
          if y < g.yLast then [⟨stageColumn, v.1, v.2.1 + extra.1, v.2.2 + extra.2, some (devAt x (y + 1))⟩]
          else [⟨stageResult, v.1, v.2.1 + extra.1, v.2.2 + extra.2, none⟩]

/-- The packages that a returning piece goes on to from here: down the column, and down the row (R441, R459). -/
def Group.returnTo (g : Group) (d : Nat) : List (Nat × Nat) :=
  let x := devX d
  let y := devY d
  (if x = g.xLast ∧ g.yFirst < y then [(devAt x (y - 1), 2)] else []) ++
    (if g.rows.contains y ∧ g.rowStart y < x then [(devAt (x - 1) y, 1)] else [])

/-- Send a collective packet on an account of its wing (R458, R544); the package owes its receiver a token (R84). -/
def State.sendPiece (s : State) (wing account : Nat) (dest channel : Nat) (bytes : List Byte) : State :=
  let t := s.sendPacket (tagOwner wing account) dest wing 0x02 channel bytes
  { t with work := { t.work with sentTo := if t.work.sentTo.contains dest then t.work.sentTo else t.work.sentTo ++ [dest] } }

/-- The packet of a piece of a run. -/
def State.packetOf (s : State) (g : Group) (r : CollRun) (p : Piece) : List Byte :=
  let id := s.runIdentity r g
  piecePacket r (idCop id) (idDtype id) (idNarrow id) (fingerprint id) p

/-- Put a result piece here and send it on along the return chains; what the routers add and return is the wing's, not a descriptor's (R544). -/
def State.returnPiece (s : State) (g : Group) (group seq : Nat) (p : Piece) : State :=
  let r := s.runOf group seq
  let t := s.putRun { r with pieces := r.pieces ++ [p] }
  (g.returnTo s.device).foldl (fun t e => t.sendPiece g.wing 0xFFFF e.1 3 (s.packetOf g r { p with level := e.2 })) t

/-- Do what a run along the chains can do now (R441, R455, R459): it holds its slots, every frame is here, and its local members have launched. A relay has no member and adds nothing of its own. -/
def State.progressChain (s : State) (g : Group) (group seq : Nat) : State :=
  let r := s.runOf group seq
  let ls := s.launchesOf group seq
  let id := s.runIdentity r g
  let d := idDtype id
  let givers := ls.filter (fun x => x.count != 0)
  if !r.slots || !r.framesAll g || r.aborted.isSome || decide (ls.length < (g.ranksOn s.device).length) then s
  else (List.range (pieceCountOf d r.count)).foldl (fun t k =>
    let r := t.runOf group seq
    let n := pieceLen d r.count k
    let fs := (t.formPiece g r ls d k n (idNarrow id)).filter (fun f => !r.made.any (fun m => m.1 == f.stage && m.2.1 == k))
    fs.foldl (fun t f =>
      let r := t.runOf group seq
      let p : Piece := { origin := 0xFFFF, dest := 0xFFFF, index := k, back := f.stage == stageResult, level := if f.stage = stageRow then 1 else 2
                         beat := t.beat.doing, sender := t.device, ok := false, codes := dtCodes d f.vals }
      let t := t.putRun { r with made := r.made ++ [(f.stage, k, t.beat.doing)] }
      let t := (t.count 0xC230 2 f.adds).count 0xC230 5 f.sats
      let t := givers.foldl (fun t x =>
        let a := x.src + dtBytes d (k * pieceElems d)
        ((t.touch .beat a (dtBytes d n)).request x.hall 41 false [(a, dtBytes d n)]).accessed x.hall (tagOwner x.wing x.account) [(a, dtBytes d n)]) t
      match f.next with
      | some dev => t.sendPiece g.wing 0xFFFF dev 3 (t.packetOf g r p)
      | none => t.returnPiece g group seq p) t) s

/-! ### The courier all-reduce (R463) -/

/-- The courier frame's payload (R464). -/
def courierFrame (group seq index : Nat) (bytes : List Byte) : List Byte :=
  leBytes 2 group ++ leBytes 4 seq ++ leBytes 1 index ++ [0] ++ fitBytes 48 bytes

/-- Form and broadcast this package's level-0 sums once its members have launched; fold when every member package's frames are here. -/
def State.progressCourier (s : State) (g : Group) (group seq : Nat) : State :=
  let r := s.runOf group seq
  let ls := s.launchesOf group seq
  match ls with
  | [] => s
  | l :: _ =>
    if !r.framesAll g || r.aborted.isSome || decide (ls.length < (g.ranksOn s.device).length) then s
    else
      let c := r.count
      let bytes := dtBytes l.dtype c
      let nf := ceilDiv bytes 48
      let t := if r.gives g s.device && !r.courier.any (fun e => e.1 == s.device) then
          let data := packCodes (dtypeFmt l.dtype) (dtCodes l.dtype (s.levelZero ls l.dtype 0 c))
          (List.range nf).foldl (fun t i =>
            let r := t.runOf group seq
            let b := fitBytes 48 (data.drop (48 * i))
            (t.putRun { r with courier := r.courier ++ [(s.device, i, b)] }).courier none (.collective 1 g.wing (courierFrame group seq i b))) s
        else s
      let r := t.runOf group seq
      let devs := g.devices.filter (r.gives g)
      if r.made.any (fun m => m.1 == stageResult) || devs == [] ||
          !(devs.all (fun d => (List.range nf).all (fun i => r.courier.any (fun e => e.1 == d && e.2.1 == i)))) then t
      else
        let sum := fun (d : Nat) => dtVals l.dtype (lineCodes (dtypeFmt l.dtype) ((List.range nf).flatMap (fun i =>
          ((r.courier.find? (fun e => e.1 == d && e.2.1 == i)).map (fun e => e.2.2)).getD [])) c)
        let foldAll := fun (xs : List (List Val)) => match xs with
          | [] => []
          | x :: rest => rest.foldl (dtAdd l.dtype) x
        let byRow := g.rows.filterMap (fun y => match devs.filter (fun d => devY d == y) with
          | [] => none
          | ds => some (foldAll (ds.map sum)))
        let p : Piece := { origin := 0xFFFF, dest := 0xFFFF, index := 0, back := true, level := 0, beat := t.beat.doing, sender := t.device, ok := false
                           codes := dtCodes l.dtype (foldAll byRow) }
        t.putRun { r with made := r.made ++ [(stageResult, 0, t.beat.doing)], pieces := r.pieces ++ [p] }

/-- Do what a run can do now. -/
def State.progressRun (s : State) (group seq : Nat) : State := match s.group group with
  | none => s
  | some g =>
    let cop := idCop (s.runIdentity (s.runOf group seq) g)
    if !s.mayForm then s else if chained cop then s.progressChain g group seq else if cop = 8 then s.progressCourier g group seq else s

/-- Do what every run can do now. -/
def State.progressAll (s : State) : State := s.coll.runs.foldl (fun t r => t.progressRun r.group r.seq) s

/-! ### Completion and delivery (R445, R447, R448, R450, R467) -/

/-- Elements of a block that have arrived from an origin, by committed pieces. -/
def CollRun.arrived (r : CollRun) (origin : Nat) : Nat :=
  (r.pieces.filter (fun p => p.ok && p.origin == origin)).foldl (fun n p => n + p.codes.length) 0

/-- A piece that a member may have now: into DST a committed one, into a ring a pending one as well (R356, R467). -/
def Launch.takes (l : Launch) (p : Piece) : Bool := p.ok || l.ring.isSome

/-- Ranks whose blocks the member receives, with the piece indices expected; an ALL_TO_ALL_V block ends with a piece shorter than a full one, or at CAPACITY. -/
def State.expected (_ : State) (g : Group) (r : CollRun) (l : Launch) : List (Nat × List Nat) :=
  let n := g.members.length
  let idx := List.range (pieceCountOf l.dtype l.count)
  let live := (List.range n).filter (fun k => !r.emptyRank k)
  if l.count = 0 then []
  else match l.cop with
    | 1 => [(l.root, if r.emptyRank l.root then [] else idx)]
    | 2 => live.map (fun k => (k, idx))
    | 6 => live.map (fun k => (k, idx))
    | 7 => (List.range n).map (fun k =>
        let ps := r.pieces.filter (fun p => l.takes p && p.origin == k && (p.dest == l.rank))
        let full := decide (l.capacity ≤ ps.foldl (fun m p => m + p.codes.length) 0) && decide (0 < l.capacity) || ps.any (fun p => decide (p.codes.length < pieceElems l.dtype))
        let top := ps.foldl (fun m p => max m (p.index + 1)) 0
        (k, if full then List.range top else List.range (top + 1)))
    | 3 => [(0xFFFF, idx)]
    | 4 => [(0xFFFF, idx)]
    | 8 => [(0xFFFF, [0])]
    | _ => []

/-- A piece that the member receives. -/
def CollRun.pieceFor (r : CollRun) (l : Launch) (origin k : Nat) : Option Piece :=
  r.pieces.find? (fun p => l.takes p && p.origin == origin && p.index == k && (p.dest == 0xFFFF || p.dest == l.rank) && (origin != 0xFFFF || p.back))

/-- The element offset in DST of a piece's elements for a member, and the elements it takes of them (R448). -/
def pieceDst (n : Nat) (l : Launch) (p : Piece) : Nat × List Nat :=
  let off := p.index * pieceElems l.dtype
  match l.cop with
  | 2 => (p.origin * l.count + off, p.codes)
  | 6 => (p.origin * l.count + off, p.codes)
  | 7 => (p.origin * l.capacity + off, p.codes)
  | 3 =>
    let q := ceilDiv l.count n
    let lo := l.rank * q
    let hi := min (lo + q) l.count
    (max off lo - lo, (p.codes.drop (lo - off)).take (min (off + p.codes.length) hi - max off lo))
  | _ => (off, p.codes)

/-- Bytes at an element offset. -/
def elemOffset (d off : Nat) : Nat := dtBytes d off

/-- The slot of a SOURCE 2 ring for a piece (R467). -/
def ringPiece (l : Launch) (p : Piece) (off : Nat) (cs : List Nat) : List Byte :=
  fitBytes 64 (leBytes 2 l.group ++ leBytes 4 l.seq ++ leBytes 2 p.origin ++ leBytes 4 p.index ++ leBytes 4 off ++ leBytes 4 cs.length) ++
    packCodes (dtypeFmt l.dtype) cs

/-- The slot at the tail takes a piece: it is empty, and holds no data that this beat has emptied and a failed verdict would restore (R357). -/
def Ring.takesPiece (r : Ring) : Bool := r.isOpen && !r.closing && (match r.slots[r.tail]? with
  | some x => x.st == 0 && !x.landed
  | none => false)

/-- Fill the tail slot of a member's SOURCE 2 ring (R347, R356): full where the piece is committed, filling while it is pending. -/
def State.fillRing (s : State) (hall id : Nat) (k : PieceId) (p : Piece) (bytes : List Byte) : State :=
  let r := s.ring hall id
  let t := (s.writeMem (s.ringSlotAddr hall r r.tail) bytes).accessed hall (wingOwner r.wing) [(s.ringSlotAddr hall r r.tail, bytes.length)]
  (t.setRing hall id { r.setSlot r.tail (fun x => { x with st := if p.ok then 2 else 1, tag := r.gen, len := bytes.length, sender := p.sender, beat := p.beat
                                                           landed := true, ok := p.ok, folios := [], piece := some k }) with
    tail := (r.tail + 1) % r.slots.length, moved := true }).count (0xC1C0 + hall) 1 (b2n p.ok)

/-- Deliver one piece to a member: into DST, or into its ring while the tail slot is empty. Answers whether it was delivered. -/
def State.deliverPiece (s : State) (n : Nat) (l : Launch) (p : Piece) : State × Bool :=
  let x := pieceDst n l p
  if x.2 = [] ∧ l.cop ≠ 7 then (s, true)
  else match l.ring with
    | some id =>
      if (s.ring l.hall id).takesPiece then (s.fillRing l.hall id ⟨l.group, l.seq, p.origin, p.index, p.dest⟩ p (ringPiece l p x.1 x.2), true)
      else (s, false)
    | none =>
      let bytes := packCodes (dtypeFmt l.dtype) x.2
      let xs := [(l.dst + elemOffset l.dtype x.1, bytes.length)]
      (((s.writeMem (l.dst + elemOffset l.dtype x.1) bytes).request l.hall 41 true xs).accessed l.hall (tagOwner l.wing l.account) xs, true)

/-- Whether a slot's piece is still here, and committed. -/
def State.pieceNow (s : State) (k : PieceId) : Option Bool := (s.run k.group k.seq).bind (fun r =>
  (r.pieces.find? (fun p => p.origin == k.origin && p.index == k.index && p.dest == k.dest && (p.origin != 0xFFFF || p.back))).map Piece.ok)

/-- A slot of a SOURCE 2 ring whose piece is pending. -/
def RSlot.awaits (x : RSlot) : Option PieceId := if x.landed ∧ x.ok = false then x.piece else none

/-- Filling slots of SOURCE 2 rings whose pieces are committed become full (R347, R356). -/
def State.settlePieces (s : State) : State :=
  s.work.rings.foldl (fun t e =>
    let hit := fun (x : RSlot) => match x.awaits with
      | some k => s.pieceNow k == some true
      | none => false
    if e.2.source ≠ 2 ∨ !e.2.slots.any hit then t
    else
      let slots := e.2.slots.map (fun x => if hit x then { x with ok := true, st := if x.st = 1 ∧ !e.2.closing then 2 else x.st } else x)
      (t.setRing (e.1 / 256) (e.1 % 256) { e.2 with slots := slots, moved := true }).count (0xC1C0 + e.1 / 256) 1
        ((slots.filter (fun x => x.st == 2)).length - (e.2.slots.filter (fun x => x.st == 2)).length)) s

/-- The pieces of slots are again to be delivered. -/
def State.redeliver (s : State) (hall : Nat) (ks : List PieceId) : State :=
  { s with coll := { s.coll with runs := s.coll.runs.map (fun r => { r with
      got := r.got.filter (fun g => !(g.1 == hall && ks.any (fun k => k.group == r.group && k.seq == r.seq && k.origin == g.2.1 && k.index == g.2.2))) }) } }

/-- One SOURCE 2 ring whose pending pieces a withdrawal has taken: the first of their slots becomes empty and the tail returns to it (R347); the slots after it empty too, and their pieces wait in the engine for their turn (R467). -/
def State.unfillRing (s : State) (key : Nat) (r : Ring) : State :=
  let n := r.slots.length
  let order := (List.range n).map (fun j => (r.head + j) % n)
  let gone := fun (i : Nat) => match (r.slots[i]?).bind RSlot.awaits with
    | some k => s.pieceNow k == none
    | none => false
  match order.findIdx? gone with
  | none => s
  | some j =>
    let from_ := (order.drop j).filter (fun i => match r.slots[i]? with
      | some x => x.landed && x.st != 3
      | none => false)
    let ks := from_.filterMap (fun i => (r.slots[i]?).bind RSlot.piece)
    let slots := (r.slots.zipIdx).map (fun e => if from_.contains e.2 then { e.1 with st := 0, landed := false, ok := false, piece := none } else e.1)
    (s.setRing (key / 256) (key % 256) { r with slots := slots, tail := (order[j]?).getD r.tail, moved := true }).redeliver (key / 256) ks

/-- Every SOURCE 2 ring after a withdrawal or an abort (R347, R461). -/
def State.unfillRings (s : State) : State := s.work.rings.foldl (fun t e => if e.2.source = 2 then t.unfillRing e.1 e.2 else t) s

/-- Deliver what a member may have now, in order (R467): source rank, then piece index; empty members' all-gather blocks read +0 (R447). -/
def State.deliverTo (s : State) (g : Group) (l : Launch) : State :=
  let n := g.members.length
  let r := s.runOf l.group l.seq
  let zeros := if l.cop = 2 ∧ l.count ≠ 0 then (List.range n).filter r.emptyRank else []
  let want := (s.expected g r l).flatMap (fun e => e.2.map (fun k => (e.1, k))) ++ zeros.flatMap (fun z =>
    (List.range (pieceCountOf l.dtype l.count)).map (fun k => (z, k)))
  let want := sortBy (fun a b => decide (a.1 * 2 ^ 32 + a.2 ≤ b.1 * 2 ^ 32 + b.2)) want
  (want.foldl (fun (acc : State × Bool) w =>
    let t := acc.1
    let r := t.runOf l.group l.seq
    if acc.2 || r.got.contains (l.hall, w.1, w.2) then acc
    else
      let zero : Piece := { origin := w.1, dest := 0xFFFF, index := w.2, back := false, level := 0, beat := l.beat, sender := t.device, ok := true
                            codes := List.replicate (pieceLen l.dtype l.count w.2) 0 }
      match (if zeros.contains w.1 then (if r.framesAll g then some zero else none) else r.pieceFor l w.1 w.2) with
      | none => (t, l.ring.isSome)
      | some p =>
        let d := t.deliverPiece n l p
        if d.2 then
          let r := d.1.runOf l.group l.seq
          (d.1.putRun { r with got := r.got ++ [(l.hall, w.1, w.2)] }, false)
        else (d.1, true)) (s, false)).1

/-- The received counts of an ALL_TO_ALL_V, and +0 up to CAPACITY (R450), once every block is in. -/
def State.finishV (s : State) (g : Group) (l : Launch) : State :=
  let n := g.members.length
  let r := s.runOf l.group l.seq
  if l.cop ≠ 7 ∨ l.count = 0 ∨ l.ring.isSome ∨ r.got.contains (l.hall, 0xFFFE, 0) ∨
      (s.expected g r l).any (fun e => e.2.any (fun k => !r.got.contains (l.hall, e.1, k))) then s
  else
    let got := (List.range n).map (fun k => ((r.pieces.filter (fun p => p.ok && p.origin == k && p.dest == l.rank)).foldl (fun m p => m + p.codes.length) 0))
    let t := (got.zipIdx).foldl (fun t e =>
      let bs := packCodes (dtypeFmt l.dtype) (List.replicate (l.capacity - e.1) 0)
      let a := l.dst + elemOffset l.dtype (e.2 * l.capacity + e.1)
      (t.writeMem a bs).accessed l.hall (tagOwner l.wing l.account) [(a, bs.length)]) s
    let a := l.dst + up64 (dtBytes l.dtype (n * l.capacity))
    let t := (t.writeMem a (got.flatMap (leBytes 4))).accessed l.hall (tagOwner l.wing l.account) [(a, 4 * n)]
    let r := t.runOf l.group l.seq
    t.putRun { r with got := r.got ++ [(l.hall, 0xFFFE, 0)] }

/-- Deliver to every local member what is committed. -/
def State.deliverAll (s : State) : State :=
  s.coll.launches.foldl (fun t l => match t.group l.group with
    | some g => if (t.runOf l.group l.seq).aborted.isSome then t else (t.deliverTo g l).finishV g l
    | none => t) s

/-- A launch is complete at its member (R445): its own pieces are committed, every member's frame is here, and everything it receives is delivered. -/
def State.launchDone (s : State) (g : Group) (l : Launch) : Bool :=
  let r := s.runOf l.group l.seq
  l.committed && r.framesAll g && (s.expected g r l).all (fun e => e.2.all (fun k => r.got.contains (l.hall, e.1, k))) &&
    (l.cop != 7 || l.count == 0 || l.ring.isSome || r.got.contains (l.hall, 0xFFFE, 0)) && r.pieces.all (fun p => (p.sender != s.device && l.ring.isNone) || p.ok)

/-! ### Commit tokens (R460, R461) -/

/-- Mark as committed what a package's commit of a beat commits (R460), and deliver it. -/
def State.commitPieces (s : State) (device beat : Nat) : State :=
  let t := { s with coll := { s.coll with tokens := s.coll.tokens.filter (fun (t : Nat × Nat) => decide (beat ≤ t.2 + 8)) ++ [(device, beat)]
                                          redo := s.coll.redo.filter (· != (device, beat)) } }
  let t := { t with coll := { t.coll with runs := t.coll.runs.map (fun (r : CollRun) => match t.group r.group with
    | none => r
    | some g => { r with pieces := r.pieces.map (fun (p : Piece) => { p with ok := p.ok || t.pieceOk g r p }) }) } }
  t.settlePieces.deliverAll

/-- Discard what a package's withdrawal of a beat withdraws (R461): its bulk pieces, and every reducing piece of the beat of runs whose path it is on; what was formed here is done again. -/
def State.withdrawPieces (s : State) (device beat : Nat) : State :=
  let redo := s.coll.runs.foldl (fun n r => match s.group r.group with
    | some g => if g.path.contains device then n + (r.made.filter (fun m => m.2.2 == beat)).length else n
    | none => n) 0
  let t := { s with coll := { s.coll with runs := s.coll.runs.map (fun (r : CollRun) => match s.group r.group with
    | none => r
    | some g =>
      let on := g.path.contains device
      { r with pieces := r.pieces.filter (fun (p : Piece) => !(if p.origin ≠ 0xFFFF then p.sender == device && p.beat == beat else on && p.beat == beat && !p.ok))
               made := r.made.filter (fun m => !(on && m.2.2 == beat))
               courier := if on ∧ r.made.any (fun m => m.2.2 == beat) then r.courier.filter (fun e => e.1 != s.device) else r.courier }) } }
  t.unfillRings.count 0xC230 3 redo

end Sys2Proof.Machine
end

