-- ==== Sys2Proof/Machine/Collective.lean ====
section
/-! DEFINITION. The commands of collectives (14_collectives.md): COLLECT_START in its eight operations (R213, R214, R444-R457), COLLECT_WAIT (R445), the frames and pieces that arrive (R458-R466), reduction slots (R455), the timeout (R456), broken groups (R469), group definition and deletion (R437-R443). -/

namespace Sys2Proof.Machine

open Sys2Proof

/-! ### COLLECT_START -/

def Ctx.csGroup (c : Ctx) : Nat := c.fld 79 64
def Ctx.csCop (c : Ctx) : Nat := c.fld 87 80
def Ctx.csDtype (c : Ctx) : Nat := c.fld 91 88
def Ctx.csNarrowFmt (c : Ctx) : Nat := c.fld 99 96
def Ctx.csNarrow (c : Ctx) : Bool := bitOf c.desc 100
def Ctx.csInst (c : Ctx) : Nat := c.fld 111 104
def Ctx.csSrc (c : Ctx) : Nat := c.fld 175 128
def Ctx.csDst (c : Ctx) : Nat := c.fld 239 192
def Ctx.csPlan (c : Ctx) : Nat := c.fld 287 256
def Ctx.csCap (c : Ctx) : Nat := c.fld 319 288
def Ctx.csSizes (c : Ctx) : Nat := c.fld 367 320
def Ctx.csRoot (c : Ctx) : Nat := c.fld 399 384

/-- Elements of SRC that the member gives, of n members (R448); none where SRC is not read. -/
def Ctx.csSrcElems (c : Ctx) (n rank count : Nat) : Option Nat := match c.csCop with
  | 1 => if rank = c.csRoot then some count else none
  | 5 => none
  | 6 => some (n * count)
  | 7 => some (n * c.csCap)
  | _ => some count

/-- Bytes of DST that the operation may write (R448, R450). -/
def Ctx.csDstBytes (c : Ctx) (n count : Nat) : Nat := match c.csCop with
  | 2 => dtBytes c.csDtype (n * count)
  | 3 => dtBytes c.csDtype (ceilDiv count n)
  | 5 => 0
  | 6 => dtBytes c.csDtype (n * count)
  | 7 => up64 (dtBytes c.csDtype (n * c.csCap)) + 4 * n
  | _ => dtBytes c.csDtype count

/-- The rules of R449, R450, R453, R454 that do not hold: BAD_FIELD. -/
def Ctx.csFieldBad (c : Ctx) (g : Group) : Bool :=
  let d := c.csDtype
  let cop := c.csCop
  let wide := [0xA, 0xB, 0xC].contains d
  (reducing cop && !wide) || (!reducing cop && !wide && !([0, 1, 2, 4, 5, 6, 7, 8].contains d)) || (cop == 5 && d != 0) ||
    (decide ((dtypeFmt d).width = 4) && cop != 5 && cop != 7 && c.csPlan % 2 != 0) || (decide ((dtypeFmt d).width = 4) && cop == 7 && c.csCap % 2 != 0) ||
    (if cop = 1 then decide (g.members.length ≤ c.csRoot) else c.csRoot != 0) ||
    (c.csNarrow && (!chained cop || !(if d = 0xC then [0xA, 0x4, 0x5].contains c.csNarrowFmt else [0x4, 0x5].contains c.csNarrowFmt))) ||
    (chained cop && g.depth == 0) || (cop != 7 && (c.csCap != 0 || c.csSizes != 0)) ||
    (cop == 5 && (c.csPlan != 1 || c.csSrc != 0 || c.csDst != 0))

/-- The SOURCE 2 ring whose BASE DST is (R467). -/
def State.csRing (s : State) (c : Ctx) : Option Nat := match s.ringAtAddr c.csDst with
  | some (h, id) => if h = c.hall ∧ (s.ring h id).source = 2 then some id else none
  | none => none

/-- The next sequence number of a hall's member (R444). -/
def Group.nextSeq (g : Group) (hall : Nat) : Nat := mget 0 g.seqs hall

/-- The detail of GROUP_BROKEN (R471): group, sequence number, and the missing device, or the device of a cut link with 1 for its link in +X, 2 in +Y in the byte above (log entry 210). -/
def brokenDetail (group seq what : Nat) : List Byte := leBytes 2 group ++ leBytes 4 seq ++ leBytes 2 what

/-- Decode checks of COLLECT_START (R214, R343, R444, R449, R463, R467, R469). -/
def State.collectFault (s : State) (c : Ctx) : Option DFault :=
  (s.headerFault c [(92, 95), (101, 103), (120, 127), (176, 191), (240, 255), (368, 383), (400, 511)] [(96, 100)] false false).or
  (match s.group c.csGroup with
    | none => some (flt fBadGroup)
    | some g => match g.rankOf s.device c.hall with
      | none => some (flt fBadGroup)
      | some rank =>
        let n := g.members.length
        let src := c.csSrcElems n rank c.csPlan
        let sb := dtBytes c.csDtype (src.getD 0)
        let db := c.csDstBytes n c.csPlan
        let seq := g.nextSeq c.hall
        firstFault [
          (g.wing != c.wing, flt fBadGroup),
          (g.broken.isSome, ⟨0x3E01, brokenDetail c.csGroup seq (g.broken.getD 0)⟩),
          (c.csCop == 8 && g.devices.any (fun d => !s.reaches d), ⟨0x3E01, brokenDetail c.csGroup seq ((g.devices.find? (fun d => !s.reaches d)).getD 0)⟩),
          (c.csPlan == 0, flt fPlan),
          (c.csFieldBad g, flt fBadField),
          (c.csCop == 8 && decide (256 < dtBytes c.csDtype c.csPlan), flt fCourierSize),
          (s.coll.launches.any (fun l => l.group == c.csGroup && l.hall == c.hall && l.inst == c.csInst && !l.waited), flt fBadField),
          (src.isSome && (s.resolve c.wing c.csSrc sb).isNone, flt fAddress),
          (decide (0 < db) && ((s.resolve c.wing c.csDst db).isNone || s.inPool c.csDst db) && (s.csRing c).isNone, flt fAddress),
          (c.csCop == 7 && (s.resolve c.wing c.csSizes (4 * n)).isNone, flt fAddress),
          (src.isSome && s.addrOverRing c.csSrc sb, flt fBadRing),
          (c.csCop == 7 && s.addrOverRing c.csSizes (4 * n), flt fBadRing),
          (decide (0 < db) && (s.csRing c).isNone && s.addrOverRing c.csDst db, flt fBadRing),
          (match s.csRing c with
            | some id => (s.ring c.hall id).closing || (s.ring c.hall id).wing != c.wing
            | none => false, flt fBadRing),
          (match s.csRing c with
            | some id => decide ((s.ring c.hall id).slotSize < 3904)
            | none => false, flt fRingGeometry)])

/-- A fault of a launch at one local member (R456, R466, R469, R179): the wing's F3 record, and the member's slot issues nothing further. -/
def State.memberFault (s : State) (l : Launch) (code : Nat) (detail : List Byte) : State :=
  let q := s.seq l.hall l.slot
  let t := if q.wing = l.wing ∧ q.status ≠ .idle then s.setSeq l.hall l.slot { q with status := .stopped, hold := .none, waits := [] } else s
  (t.failCheck (.fault l.wing code)).raise code unitCore (coreId l.hall ((s.coreOf l.hall l.slot).getD 63)) (some l.wing)
    (leBytes 2 l.tag ++ leBytes 1 0x20 ++ leBytes 1 l.hall ++ leBytes 1 l.slot ++ detail)

/-- Every local member of a run faults; the launch's pieces are discarded (R456, R464, R466). -/
def State.abortRun (s : State) (group seq code : Nat) (detail : List Byte) : State :=
  let r := s.runOf group seq
  if r.aborted.isSome then s
  else
    let t := (s.putRun { r with aborted := some (code, detail), pieces := [], courier := [] }).unfillRings
    (s.launchesOf group seq).foldl (fun t l => t.memberFault l code detail) t

/-- Broadcast ABORT and fault the local members (R464). -/
def State.sendAbort (s : State) (g : Group) (group seq code : Nat) (detail : List Byte) : State :=
  if (s.runOf group seq).aborted.isSome then s
  else
    let f := fitBytes 56 (leBytes 2 group ++ leBytes 4 seq ++ leBytes 2 code ++ fitBytes 8 detail)
    ((s.count 0xC230 8 1).courier none (.collective 2 g.wing f)).abortRun group seq code detail

/-- The first differing field of two identities in the order of R466: 0 COP, 1 formats, 2 NARROW, 3 c, 4 CAPACITY, 5 ROOT, 6 digest, 7 sequence. -/
def identityDiff (a b : List Byte × Bool) : Option Nat :=
  let f := fun (lo n : Nat) => slice a.1 lo n != slice b.1 lo n
  [f 10 1, f 11 1, f 12 1, f 14 4 && !a.2 && !b.2, f 18 4, f 22 2, f 2 8, f 24 4].findIdx? (fun x => x)

/-- Compare every known identity with the lowest-ranked member's (R466): the lowest differing rank and its first differing field. -/
def CollRun.mismatch (r : CollRun) : Option (Nat × Nat) :=
  match r.frames.find? (fun f => f.1 == 0) with
  | none => none
  | some z => ((sortBy (fun a b => decide (a.1 ≤ b.1)) r.frames).findSome? (fun f => (identityDiff z.2 f.2).map (fun k => (f.1, k))))

/-- Take a LAUNCH frame into its run, compare where this is a member package, and go on (R466). -/
def State.takeFrame (s : State) (g : Group) (group seq rank : Nat) (identity : List Byte) (empty : Bool) : State :=
  let r := s.runOf group seq
  let t := s.putRun { r with frames := r.frames.filter (fun f => f.1 != rank) ++ [(rank, identity, empty)] }
  match if g.devices.contains s.device then (t.runOf group seq).mismatch else none with
  | some (k, f) => t.sendAbort g group seq fFingerprint (leBytes 1 f ++ leBytes 2 0 ++ leBytes 2 k)
  | none => (t.progressRun group seq).deliverAll

/-- The bulk pieces of a member's launch (R448, R450, R459): destination rank (none: every member), block offset in SRC elements, elements. -/
def bulkBlocks (n : Nat) (l : Launch) (sizes : List Nat) : List (Option Nat × Nat × Nat) := match l.cop with
  | 1 => if l.rank = l.root then [(none, 0, l.count)] else []
  | 2 => [(none, 0, l.count)]
  | 6 => (List.range n).map (fun d => (some d, d * l.count, l.count))
  | 7 => (List.range n).map (fun d => (some d, d * l.capacity, min ((sizes[d]?).getD 0) l.capacity))
  | _ => []

/-- Piece indices of a block: an ALL_TO_ALL_V block short of CAPACITY ends with a piece shorter than a full one, of no element if need be. -/
def blockPieces (l : Launch) (n : Nat) : Nat :=
  if l.cop = 7 then (if n < l.capacity ∨ l.capacity = 0 then n / pieceElems l.dtype + 1 else pieceCountOf l.dtype n) else pieceCountOf l.dtype n

/-- Form and send the bulk pieces of a launch (R457, R459): one packet to each member package that needs it, a copy kept for local members. -/
def State.sendBulk (s : State) (g : Group) (l : Launch) (sizes : List Nat) : State :=
  let n := g.members.length
  if l.count = 0 ∧ l.cop ≠ 7 then s
  else (bulkBlocks n l sizes).foldl (fun t b =>
    (List.range (blockPieces l b.2.2)).foldl (fun t k =>
      let len := pieceLen l.dtype b.2.2 k
      let a := l.src + dtBytes l.dtype (b.2.1 + k * pieceElems l.dtype)
      let p : Piece := { origin := l.rank, dest := b.1.getD 0xFFFF, index := k, back := false, level := 0, beat := t.beat.doing, sender := t.device, ok := false
                         codes := t.rdElems l.src l.dtype (b.2.1 + k * pieceElems l.dtype) len }
      let t := if len = 0 then t else ((t.touch .beat a (dtBytes l.dtype len)).request l.hall 41 false [(a, dtBytes l.dtype len)]).accessed l.hall (tagOwner l.wing l.account) [(a, dtBytes l.dtype len)]
      let devs := match b.1 with
        | some d => ((g.members[d]?).map memDev).toList
        | none => g.devices
      let r := t.runOf l.group l.seq
      let t := if devs.contains t.device then t.putRun { r with pieces := r.pieces ++ [p] } else t
      (devs.filter (· != t.device)).foldl (fun t dev => t.sendPiece l.wing l.account dev 1
        (piecePacket r l.cop l.dtype l.narrow (fingerprint (t.runIdentity r g)) p)) t) t) s

/-- Launch (R444, R457, R465): the member's sequence number advances, its LAUNCH frame goes out, its bulk pieces are formed. -/
def State.launchNow (s : State) (c : Ctx) (g : Group) (rank count : Nat) : State :=
  let n := g.members.length
  let seq := g.nextSeq c.hall
  let narrow := if c.csNarrow then some c.csNarrowFmt else none
  let srcBytes := dtBytes c.csDtype ((c.csSrcElems n rank c.csPlan).getD 0)
  let sizes := if c.csCop = 7 then
      (List.range n).map (fun d => if count = 0 then 0 else s.rdNat ((s.resolve c.wing c.csSizes (4 * n)).getD 0 + 4 * d) 4)
    else []
  let overs := sizes.map (fun z => z - c.csCap)
  let l : Launch := { group := c.csGroup, wing := c.wing, hall := c.hall, slot := c.slot, inst := c.csInst, seq := seq, rank := rank, cop := c.csCop
                      dtype := c.csDtype, narrow := narrow, count := count, capacity := c.csCap, root := c.csRoot
                      src := (s.resolve c.wing c.csSrc srcBytes).getD 0
                      dst := (s.resolve c.wing c.csDst (c.csDstBytes n c.csPlan)).getD 0, ring := s.csRing c, tag := c.tag, account := c.account
                      beat := s.beat.doing, committed := false, waited := false
                      drops := overs.foldl (· + ·) 0, dropDests := (overs.filter (· != 0)).length }
  let id := launchIdentity g l c.csNarrowFmt
  let t := s.setGroup c.csGroup (some { g with seqs := mset 0 g.seqs c.hall ((seq + 1) % 2 ^ 32) })
  let t := { t with coll := { t.coll with launches := t.coll.launches ++ [l] } }
  let t := t.count 0xC230 6 l.drops
  let t := t.courier none (.collective 0 c.wing (launchFrame id rank (count == 0)))
  match (t.runOf c.csGroup seq).aborted with
  | some a => t.memberFault l a.1 a.2
  | none => (t.sendBulk g l sizes).takeFrame g c.csGroup seq rank id (count == 0)

/-- Decode a COLLECT_START (R178, R213, R242): a run-time count of 0 launches empty. -/
def State.collectDesc (s : State) (c : Ctx) : State :=
  match s.collectFault c with
  | some d => s.descFault c d
  | none => match s.refLen c (c.fld 119 112) c.csPlan, s.group c.csGroup with
    | .error d, _ => s.descFault c d
    | .ok count, some g => match g.rankOf s.device c.hall with
      | none => s.descFault c (flt fBadGroup)
      | some rank =>
        let n := g.members.length
        let sizes : List Ext := if c.csCop = 7 ∧ count ≠ 0 then [((s.resolve c.wing c.csSizes (4 * n)).getD 0, 4 * n)] else []
        let xs : List Ext := (match if count = 0 then none else c.csSrcElems n rank count with
          | some e => if e = 0 then [] else [((s.resolve c.wing c.csSrc (dtBytes c.csDtype e)).getD 0, dtBytes c.csDtype e)]
          | none => []) ++ sizes
        if (dtypeFmt c.csDtype).width = 4 ∧ c.csCop ≠ 7 ∧ c.csCop ≠ 5 ∧ count % 2 ≠ 0 then s.descFault c (flt fBadField)
        else if s.depends c xs then s.holdDep c xs
        else match s.dataFault xs with
          | some d => s.descFault c d
          | none =>
            let t := (s.readAll c sizes).launchNow c g rank count
            if (t.seq c.hall c.slot).status = .stopped then t
            else if count = 0 then t.noop c else t.done c count 0 0 {}
    | .ok _, none => s.descFault c (flt fBadGroup)

/-- The slot decodes its next descriptor when that is a COLLECT_START of the operation. -/
def collect (cop hall slot : Nat) (s : State) : State :=
  s.onDesc hall slot (fun c => c.op == 0x20 && c.csCop == cop) State.collectDesc

/-- What COLLECT_START may change: everything but latched values, domains, security, pins, doors, folios and export. -/
def keepCollect (s t : State) : State :=
  { t with pending := s.pending, inUse := s.inUse, doms := s.doms, sec := s.sec, pins := s.pins, torus := s.torus, ship := s.ship, folio := s.folio }

/-- BROADCAST (R448). -/
def execBroadcast (hall slot : Nat) (s : State) : Host.Outcome State Fault Refusal := .next (keepCollect s (collect 1 hall slot s))

/-- ALL_GATHER (R448). -/
def execAllGather (hall slot : Nat) (s : State) : Host.Outcome State Fault Refusal := .next (keepCollect s (collect 2 hall slot s))

/-- REDUCE_SCATTER (R448, R451). -/
def execReduceScatter (hall slot : Nat) (s : State) : Host.Outcome State Fault Refusal := .next (keepCollect s (collect 3 hall slot s))

/-- ALL_REDUCE (R448, R451). -/
def execAllReduce (hall slot : Nat) (s : State) : Host.Outcome State Fault Refusal := .next (keepCollect s (collect 4 hall slot s))

/-- BARRIER (R448). -/
def execBarrier (hall slot : Nat) (s : State) : Host.Outcome State Fault Refusal := .next (keepCollect s (collect 5 hall slot s))

/-- ALL_TO_ALL (R448). -/
def execAllToAll (hall slot : Nat) (s : State) : Host.Outcome State Fault Refusal := .next (keepCollect s (collect 6 hall slot s))

/-- ALL_TO_ALL_V (R450). -/
def execAllToAllV (hall slot : Nat) (s : State) : Host.Outcome State Fault Refusal := .next (keepCollect s (collect 7 hall slot s))

/-- COURIER_ALL_REDUCE (R463). -/
def execCourierAllReduce (hall slot : Nat) (s : State) : Host.Outcome State Fault Refusal := .next (keepCollect s (collect 8 hall slot s))

/-! ### COLLECT_WAIT (R445) -/

/-- The launch a COLLECT_WAIT names. -/
def State.waitLaunch (s : State) (c : Ctx) : Option Launch :=
  s.coll.launches.find? (fun l => l.group == c.csGroup && l.hall == c.hall && l.inst == c.csCop && !l.waited)

/-- The wait ends: the instance is free again, and the record carries what the launch dropped (R217, R445). -/
def State.waitEnd (s : State) (c : Ctx) (l : Launch) : State :=
  let t := { s with coll := { s.coll with launches := updFirst (fun x => x == l) (fun x => { x with waited := true }) s.coll.launches } }
  t.done c l.count l.drops l.dropDests {}

/-- Decode a COLLECT_WAIT (R213, R214, R445, R469): [87:80] is the INSTANCE. -/
def State.collectWaitDesc (s : State) (c : Ctx) : State :=
  match s.headerFault c [(88, 511)] [] false false with
  | some d => s.descFault c d
  | none => match s.group c.csGroup with
    | none => s.descFault c (flt fBadGroup)
    | some g =>
      if g.wing ≠ c.wing ∨ (g.rankOf s.device c.hall).isNone then s.descFault c (flt fBadGroup)
      else match s.waitLaunch c with
        | none => s.descFault c (flt fBadField)
        | some l =>
          if l.committed = false ∧ l.slot = c.slot then s.descFault c (flt fBadField)
          else match (s.runOf l.group l.seq).aborted with
            | some a => s.descFault c ⟨a.1, a.2⟩
            | none => if s.launchDone g l then s.waitEnd c l else s.holdSeq c .collect

/-- COLLECT_WAIT (R445). -/
def execCollectWait (hall slot : Nat) (s : State) : Host.Outcome State Fault Refusal :=
  .next (keepCollect s (s.onDesc hall slot (fun c => c.op == 0x21) State.collectWaitDesc))

/-- A held COLLECT_WAIT goes on once its launch is complete (R445). -/
def collectWaitDone (hall slot : Nat) (s : State) : State :=
  match s.held hall slot .collect with
  | none => s
  | some c => match s.group c.csGroup, s.waitLaunch c with
    | some g, some l => if s.launchDone g l then s.waitEnd c l else s
    | _, _ => s

/-- COLLECT_WAIT_DONE (R445). -/
def execCollectWaitDone (hall slot : Nat) (s : State) : Host.Outcome State Fault Refusal :=
  .next (keepCollect s (collectWaitDone hall slot s))

/-! ### Frames and pieces that arrive -/

/-- A LAUNCH frame (R464-R466), taken by every package on the path (R455). -/
def launchArrives (wing : Nat) (payload : List Byte) (s : State) : State :=
  let id := slice payload 0 32
  let group := leAt id 0 2
  match s.group group with
  | none => s
  | some g =>
    if g.wing ≠ wing ∨ g.members.length ≤ leAt payload 40 2 ∨ !g.path.contains s.device then s
    else s.takeFrame g group (leAt id 24 4) (leAt payload 40 2) id (bitOf (leAt payload 42 1) 0)

/-- LAUNCH (R466). -/
def execLaunch (_source wing : Nat) (payload : List Byte) (s : State) : Host.Outcome State Fault Refusal :=
  .next (keepCollect s (launchArrives wing payload s))

/-- A COURIER_DATA frame (R463, R464): kept by sender and frame index. -/
def courierArrives (source wing : Nat) (payload : List Byte) (s : State) : State :=
  let group := leAt payload 0 2
  let seq := leAt payload 2 4
  match s.group group with
  | none => s
  | some g =>
    if g.wing ≠ wing ∨ !g.devices.contains source ∨ !g.devices.contains s.device then s
    else
      let r := s.runOf group seq
      if r.aborted.isSome then s
      else
        let i := leAt payload 6 1
        ((s.putRun { r with courier := r.courier.filter (fun e => !(e.1 == source && e.2.1 == i)) ++ [(source, i, slice payload 8 48)] }).progressRun group seq).deliverAll

/-- COURIER_DATA (R463). -/
def execCourierData (source wing : Nat) (payload : List Byte) (s : State) : Host.Outcome State Fault Refusal :=
  .next (keepCollect s (courierArrives source wing payload s))

/-- An ABORT frame (R464): every local member of the launch faults with its code and detail. -/
def abortArrives (wing : Nat) (payload : List Byte) (s : State) : State :=
  match s.group (leAt payload 0 2) with
  | none => s
  | some g => if g.wing ≠ wing then s else s.abortRun (leAt payload 0 2) (leAt payload 2 4) (leAt payload 6 2) (slice payload 8 8)

/-- ABORT (R464). -/
def execAbort (_source wing : Nat) (payload : List Byte) (s : State) : Host.Outcome State Fault Refusal :=
  .next (keepCollect s (abortArrives wing payload s))

/-- A piece reaches this package (R459, R462, R466): the bytes of its packet after the route word. A reducing piece joins its chain, on a relay too; a returning one goes on along the return chains as it is; a bulk one waits for its sender's token. -/
def pieceArrives (source wing : Nat) (packet : List Byte) (residueFault : Bool) (s : State) : State :=
  let h := PieceHead.of packet
  match s.group h.group with
  | none => s.wingMismatch source wing 0x02
  | some g =>
    if g.wing ≠ wing then s.wingMismatch source wing 0x02
    else if (s.runOf h.group h.seq).aborted.isSome then s
    else
      let r := s.runOf h.group h.seq
      let mine := g.devices.contains s.device
      let id := s.runIdentity r g
      let known := mine && r.frames.any (fun f => (g.ranksOn s.device).contains f.1)
      if residueFault then
        ((s.count 0xC230 4 1).raise 0x1E01 unitRouter 0 none (leBytes 1 0 ++ leBytes 2 h.group ++ leBytes 4 h.seq ++ leBytes 4 h.index)).failCheck .residue
      else if known && fingerprint id != h.print then
        match r.frames.find? (fun f => f.1 == h.origin), r.frames.find? (fun f => (g.ranksOn s.device).contains f.1) with
        | some a, some b => s.sendAbort g h.group h.seq fFingerprint (leBytes 1 ((identityDiff b.2 a.2).getD 0xFF) ++ leBytes 2 b.1 ++ leBytes 2 a.1)
        | _, some b => s.sendAbort g h.group h.seq fFingerprint (leBytes 1 0xFF ++ leBytes 2 b.1 ++ leBytes 2 h.origin)
        | _, _ => s
      else
        let nf := if h.narrowed then (if h.dtype = leAt packet 3 1 % 16 then none else some (leAt packet 3 1 % 16)) else none
        let codes := pieceOfData h.dtype nf h.narrowed h.elems (packet.drop 60)
        let p : Piece := { origin := h.origin, dest := h.dest, index := h.index, back := h.back, level := h.level, beat := h.beat, sender := source, ok := false, codes := codes }
        let pass := fun (t : State) (e : Nat × Nat) => t.sendPiece g.wing 0xFFFF e.1 3 (packet.take 4 ++ leBytes 1 (e.2 + 4 * b2n h.back + 8 * b2n h.narrowed) ++ packet.drop 5)
        let t := if h.back then (g.returnTo s.device).foldl pass s else s
        if !g.path.contains s.device || (!mine && h.origin != 0xFFFF) then t
        else ((t.putRun { r with pieces := r.pieces ++ [{ p with ok := s.pieceOk g r p }] }).progressRun h.group h.seq).deliverAll

/-- COLLECTIVE_PIECE (R459). -/
def execCollectivePiece (source wing : Nat) (packet : List Byte) (residueFault : Bool) (s : State) : Host.Outcome State Fault Refusal :=
  .next (keepCollect s (pieceArrives source wing packet residueFault s))

/-! ### Slots, timeouts, broken groups -/

/-- The reducing runs of a group on this package. -/
def State.chainRuns (s : State) (group : Nat) : List CollRun :=
  s.coll.runs.filter (fun r => r.group == group && r.aborted.isNone && r.frames.any (fun f => chained (idCop f.2.1)))

/-- A launch takes its slots (R455): in ascending sequence number, at most CONCURRENCY launches at once that are not over. -/
def reductionSlotsTaken (group seq : Nat) (s : State) : State :=
  match s.group group with
  | none => s
  | some g =>
    let rs := s.chainRuns group
    match rs.find? (fun r => r.seq == seq) with
    | none => s
    | some r =>
      if r.slots || rs.any (fun x => decide (x.seq < seq) && !x.slots) || decide (g.conc ≤ (rs.filter (fun x => x.slots && !s.runOver g x)).length) then s
      else ((s.putRun { r with slots := true }).progressRun group seq).deliverAll

/-- REDUCTION_SLOTS_TAKEN (R455). -/
def execReductionSlotsTaken (group sequence : Nat) (s : State) : Host.Outcome State Fault Refusal :=
  .next (keepCollect s (reductionSlotsTaken group sequence s))

/-- A run waits here for its reduction slots (R455). -/
def CollRun.lacksSlots (r : CollRun) : Bool := r.frames.any (fun f => chained (idCop f.2.1)) && !r.slots

/-- A run is waiting at this package (R456): it lacks its slots, or, at a member package, some member's frame. -/
def CollRun.waits (r : CollRun) (g : Group) (device : Nat) : Bool :=
  r.aborted.isNone && (r.lacksSlots || (g.devices.contains device && !r.framesAll g))

/-- Count a beat of waiting (R456, R97), at each advance. -/
def State.waitTick (s : State) : State :=
  s.coll.runs.foldl (fun t r => match t.group r.group with
    | some g =>
      if r.waits g s.device then
        let t := t.putRun { r with waited := r.waited + 1 }
        if r.lacksSlots then t.count 0xC230 7 1 else t
      else t
    | none => t) s

/-- A launch that has waited COLLECTIVE_TIMEOUT beats is aborted (R456). -/
def collectiveTimeout (group seq : Nat) (s : State) : State :=
  match s.group group, s.run group seq with
  | some g, some r =>
    if r.waits g s.device && decide (s.obj 0x9000 3 ≤ r.waited) then
      s.sendAbort g group seq fCollTimeout (leBytes 2 (((s.launchesOf group seq).head?).map Launch.tag |>.getD 0) ++ leBytes 4 seq)
    else s
  | _, _ => s

/-- COLLECTIVE_TIMEOUT (R456). -/
def execCollectiveTimeout (group sequence : Nat) (s : State) : Host.Outcome State Fault Refusal :=
  .next (keepCollect s (collectiveTimeout group sequence s))

/-- Groups break when a package of their path or members is missing, or a link of their chains is cut (R469): their outstanding launches fault. `what` is what the detail names. -/
def State.breakGroups (s : State) (hit : Group → Bool) (what : Nat) : State :=
  s.coll.groups.foldl (fun t e => match t.group e.1 with
    | some g =>
      if g.broken.isSome || !hit g then t
      else
        let t := t.setGroup e.1 (some { g with broken := some what })
        ((t.coll.runs.filter (fun r => r.group == e.1)).foldl (fun t r =>
          t.abortRun r.group r.seq 0x3E01 (brokenDetail r.group r.seq what)) t)
    | none => t) s

/-! ### Definition and deletion (R437-R443) -/

/-- Slots that a group reserves on this package (R442). -/
def State.groupSlotsHere (s : State) (g : Group) : Nat := if 1 ≤ g.depth ∧ g.path.contains s.device then 2 * g.depth * g.conc else 0

/-- The group that a definition gives (R438), its handle first. -/
def groupOf (wing : Nat) (bs : List Byte) : Nat × Group :=
  let n := bits (leAt bs 0 8) 24 16 + 1
  (leAt bs 0 2, { wing := wing, members := (List.range n).map (fun r => leAt bs (8 + 2 * r) 2), digest := leNat ((sha256 (slice bs 8 (2 * n))).take 8)
                  depth := bits (leAt bs 0 8) 36 32, conc := bits (leAt bs 0 8) 43 40, seqs := [], broken := none })

/-- Publish the counts of groups and free slots (R470). -/
def State.publishGroups (s : State) : State :=
  let gs := s.coll.groups.filterMap (fun e => e.2)
  (s.setObj 0x9000 1 gs.length).setObj 0x9000 2 (1024 - gs.foldl (fun n g => n + s.groupSlotsHere g) 0)

/-- What breaks a group as the maps stand (R469): a missing package of its path, else a cut link of its chains. -/
def State.groupBroken (s : State) (g : Group) : Option Nat :=
  (g.path.find? (fun d => !s.present d)).or
    ((g.path.flatMap (fun d => [(d, false), (d, true)])).findSome? (fun e =>
      if g.usesLink e.1 e.2 && s.linkBit e.1 e.2 then some (e.1 + 256 * (1 + b2n e.2)) else none))

/-- Define a group (R437-R442): the result code where it is refused. -/
def State.defineGroup (s : State) (wing : Nat) (bs : List Byte) : Except Nat State :=
  let w := leAt bs 0 8
  let n := bits w 24 16 + 1
  let d := groupOf wing bs
  let g := d.2
  let key := fun (m : Nat) => (devY (memDev m) * 64 + devX (memDev m)) * 8 + memHall m
  let keys := g.members.map key
  if bs.length ≠ 8 + 2 * n then .error rcLength
  else if bits w 31 25 ≠ 0 ∨ bits w 39 37 ≠ 0 ∨ bits w 63 44 ≠ 0 ∨ d.1 = 0xFFFF ∨ 511 < bits w 24 16 ∨ 16 < g.depth ∨ g.conc = 0 ∨ 8 < g.conc ∨
      g.members.any (fun m => decide (511 < m) || !s.torusIds.contains (memDev m)) ∨ (keys.zip keys.tail).any (fun p => decide (p.2 ≤ p.1)) then .error rcRange
  else if 4096 ≤ (s.coll.groups.filterMap (fun e => e.2)).length then .error rcRange
  else if (s.group d.1).isSome ∨ s.obj 0x9000 2 < s.groupSlotsHere g then .error rcConflict
  else .ok ((s.setGroup d.1 (some { g with broken := s.groupBroken g })).publishGroups)

/-- Delete a group (R443). -/
def State.deleteGroup (s : State) (wing handle : Nat) : Except Nat State := match s.group handle with
  | none => .error rcRange
  | some g =>
    if g.wing ≠ wing then .error rcRange
    else if s.coll.launches.any (fun l => l.group == handle) then .error rcConflict
    else
      let t := s.setGroup handle none
      .ok ({ t with coll := { t.coll with runs := t.coll.runs.filter (fun r => r.group != handle) } }).publishGroups

end Sys2Proof.Machine
end

