-- ==== Sys2Proof/Machine/Queue.lean ====
section
/-! DEFINITION. Command queues (16_host_interface.md): doorbells, configuration of queues (R504, R505, R511, R512), entries and completions (R506-R510), interrupts (R519), program images (R513, R514, R230), the aperture and BAR4 (R515-R518), function level reset (R523). -/

namespace Sys2Proof.Machine

open Sys2Proof

/-! ### Queues -/

/-- The function that owns a wing's queues (R501). -/
def State.fnOf (s : State) (wing : Nat) : Nat := if s.vfActive wing then wing + 1 else 0

/-- A function reaches a wing's BAR2 region (R501, R502). -/
def State.owns (s : State) (fn wing : Nat) : Bool := decide (wing < 16) && s.fnOf wing == fn

def State.sq (s : State) (wing q : Nat) : Sq := mget {} s.host.sqs (wing * 64 + q)

def State.setSq (s : State) (wing q : Nat) (x : Sq) : State := { s with host := { s.host with sqs := mset {} s.host.sqs (wing * 64 + q) x } }

def State.cq (s : State) (wing q : Nat) : Cq := mget {} s.host.cqs (wing * 64 + q)

def State.setCq (s : State) (wing q : Nat) (x : Cq) : State := { s with host := { s.host with cqs := mset {} s.host.cqs (wing * 64 + q) x } }

/-- A queue's error state with its cause (R505, R511, R512). -/
def State.sqError (s : State) (wing q cause : Nat) : State := s.setSq wing q { s.sq wing q with st := 2, cause := cause }

/-- The fields of SQ_CONFIG that a write sets while ENABLE is 0 (R504). -/
def Sq.config (x : Sq) (v : Nat) : Sq :=
  { x with size := bits v 4 1, cq := bits v 21 16, rest := v - bits v 47 32 * 2 ^ 32 - bits v 21 16 * 2 ^ 16 - bits v 4 0 }

/-- The fields of CQ_CONFIG that a write sets while ENABLE is 0 (R504). -/
def Cq.config (x : Cq) (v : Nat) : Cq :=
  { x with size := bits v 4 1, vector := bits v 26 16, count := bits v 39 32, time := bits v 47 40 }

/-- A write that R504 or R511 ignores. -/
def State.ignored (s : State) : State := s.count 0xC260 1 1

/-- ENABLE = 1 written to SQ_CONFIG (R505). -/
def sqEnable (fn wing q v : Nat) (s : State) : State :=
  if !s.owns fn wing then s
  else if (s.sq wing q).enable then s.ignored
  else
    let x := { (s.sq wing q).config v with enable := true, head := 0, tail := 0, st := 1, cause := 0, orders := [] }
    let t := s.setSq wing q x
    if x.size = 0 ∨ 8 < x.size then t.sqError wing q 1
    else if (s.cq wing x.cq).enable = false then t.sqError wing q 5
    else t

/-- SQ_ENABLE (R505). -/
def execSqEnable (fn wing queue value : Nat) (s : State) : Host.Outcome State Fault Refusal := .next (keepHost s (sqEnable fn wing queue value s))

/-- ENABLE = 0 written to SQ_CONFIG (R505): fetching stops; entries already taken still complete. With ENABLE already 0 the write sets the other fields (R504). -/
def sqDisable (fn wing q v : Nat) (s : State) : State :=
  if !s.owns fn wing then s
  else if (s.sq wing q).enable then s.setSq wing q { s.sq wing q with enable := false, st := 0, cause := 0 }
  else s.setSq wing q ((s.sq wing q).config v)

/-- SQ_DISABLE (R505). -/
def execSqDisable (fn wing queue value : Nat) (s : State) : Host.Outcome State Fault Refusal := .next (keepHost s (sqDisable fn wing queue value s))

/-- A vector a completion queue may name (R504, R519). -/
def State.vectorOk (s : State) (wing v : Nat) : Bool := decide (1 ≤ v) && decide (v ≤ if s.fnOf wing = 0 then 2047 else 63)

/-- ENABLE = 1 written to CQ_CONFIG (R505). A block out of range leaves the queue without ENABLE and its pair in the error state. -/
def cqEnable (fn wing q v : Nat) (s : State) : State :=
  if !s.owns fn wing then s
  else if (s.cq wing q).enable then s.ignored
  else
    let x := (s.cq wing q).config v
    let t := s.setCq wing q { x with enable := true, tail := 0, head := 0, phase := true, fullWait := false, unsignalled := 0 }
    let bad := fun (cause : Nat) => (s.setCq wing q x).sqError wing q cause
    if x.size = 0 ∨ 12 < x.size then bad 1
    else if !s.vectorOk wing x.vector then bad 2
    else if x.base % 4096 ≠ 0 then bad 3
    else t

/-- CQ_ENABLE (R505). -/
def execCqEnable (fn wing queue value : Nat) (s : State) : Host.Outcome State Fault Refusal := .next (keepHost s (cqEnable fn wing queue value s))

/-- ENABLE = 0 written to CQ_CONFIG (R505): an enabled SQ that names the queue goes to the error state. -/
def cqDisable (fn wing q v : Nat) (s : State) : State :=
  if !s.owns fn wing then s
  else if (s.cq wing q).enable then
    (List.range 64).foldl (fun t i => if (t.sq wing i).enable ∧ (t.sq wing i).cq = q then t.sqError wing i 5 else t)
      (s.setCq wing q { s.cq wing q with enable := false })
  else s.setCq wing q ((s.cq wing q).config v)

/-- CQ_DISABLE (R505). -/
def execCqDisable (fn wing queue value : Nat) (s : State) : Host.Outcome State Fault Refusal := .next (keepHost s (cqDisable fn wing queue value s))

/-- An SQ_TAIL doorbell (R383, R507, R511): the function's merge entries are written first; the entries up to the new tail become available in the order of doorbell writes. -/
def sqTail (fn wing q tail : Nat) (s : State) : State :=
  let s := s.flushOwner (· == fn + 1)
  let x := s.sq wing q
  if !s.owns fn wing then s
  else if !x.enable then s.ignored
  else if 2 ^ x.size ≤ tail then s.sqError wing q 4
  else if x.st = 2 then s
  else
    let n := (tail + 2 ^ x.size - x.tail) % 2 ^ x.size
    let os := (List.range n).foldl (fun m i => mset 0 m ((x.tail + i) % 2 ^ x.size) (s.host.bells + 1)) x.orders
    ({ s with host := { s.host with bells := s.host.bells + 1 } }).setSq wing q { x with tail := tail, orders := os }

/-- SQ_TAIL (R507). -/
def execSqTail (fn wing queue tail : Nat) (s : State) : Host.Outcome State Fault Refusal := .next (keepHost s (sqTail fn wing queue tail s))

/-- A CQ_HEAD doorbell (R510, R511). -/
def cqHead (fn wing q head : Nat) (s : State) : State :=
  let s := s.flushOwner (· == fn + 1)
  let x := s.cq wing q
  if !s.owns fn wing then s
  else if !x.enable then s.ignored
  else if 2 ^ x.size ≤ head then s.sqError wing q 4
  else s.setCq wing q { x with head := head }

/-- CQ_HEAD (R510). -/
def execCqHead (fn wing queue head : Nat) (s : State) : Host.Outcome State Fault Refusal := .next (keepHost s (cqHead fn wing queue head s))

/-! ### Completions (R508-R510, R519) -/

/-- STATUS of a completion (R508). -/
abbrev csDone : Nat := 0
abbrev csBadEntry : Nat := 1
abbrev csNotAnchor : Nat := 2
abbrev csHalted : Nat := 3
abbrev csImageRefused : Nat := 4
abbrev csImageInUse : Nat := 5
abbrev csShipEnded : Nat := 6

/-- A completion entry but for PHASE and SQ_HEAD, which the write fills in (R508). -/
def completionEntry (p : Pending) (status beat d0 d1 code device : Nat) : Nat :=
  p.command % 2 ^ 16 + (p.kind % 2 ^ 8) * 2 ^ 16 + (status % 2 ^ 8) * 2 ^ 24 + (p.queue % 64) * 2 ^ 32 + (beat % 2 ^ 48) * 2 ^ 64 +
    (d0 % 2 ^ 32) * 2 ^ 128 + (d1 % 2 ^ 16) * 2 ^ 160 + (code % 2 ^ 16) * 2 ^ 176 + (device % 64) * 2 ^ 192

/-- The completion queue is full (R510). -/
def Cq.isFull (x : Cq) : Bool := (x.tail + 1) % 2 ^ x.size == x.head

/-- FULL_WAIT is set while a completion waits for space (R510). -/
def State.noteFull (s : State) (wing q : Nat) : State :=
  let x := s.cq wing q
  if x.enable && x.isFull && !x.fullWait && x.waiting != [] then (s.setCq wing q { x with fullWait := true }).count 0xC260 4 1 else s

/-- Post a completion: it waits in its completion queue until the device writes it. -/
def State.post (s : State) (wing : Nat) (p : Pending) (status beat d0 d1 code device : Nat) : State :=
  let q := (s.sq wing p.queue).cq
  let x := s.cq wing q
  (s.setCq wing q { x with waiting := x.waiting ++ [completionEntry p status beat d0 d1 code device] }).noteFull wing q

/-- Post a completion that names no job and no error: BEAT is the beat at posting. -/
def State.postPlain (s : State) (wing : Nat) (p : Pending) (status d0 d1 : Nat) : State := s.post wing p status s.beatNo d0 d1 0 0

/-- Signal the queue's vector (R519). -/
def State.signalCq (s : State) (wing q : Nat) : State :=
  let x := s.cq wing q
  (s.setCq wing q { x with unsignalled := 0 }).msix (s.fnOf wing) x.vector

/-- Write the oldest waiting completion (R508, R510): only while Bus Master Enable is set (R500). -/
def completionWrite (wing q : Nat) (s : State) : State :=
  let x := s.cq wing q
  match x.waiting with
  | [] => s
  | e :: rest =>
    if !x.enable || mget 0 s.host.busMaster (s.fnOf wing) == 0 then s
    else if x.isFull then s.noteFull wing q
    else
      let sqh := (s.sq wing (bits e 37 32)).head
      let bytes := leBytes 64 (e + b2n x.phase * 2 ^ 40 + (sqh % 2 ^ 16) * 2 ^ 48)
      let last := decide (x.tail + 1 = 2 ^ x.size)
      let y := { x with waiting := rest, tail := (x.tail + 1) % 2 ^ x.size, phase := x.phase != last, fullWait := false
                        unsignalled := x.unsignalled + 1 }
      let t := (s.setCq wing q y).send (.hostWrite (s.fnOf wing) (x.base + 64 * x.tail) bytes)
      (if x.count ≤ y.unsignalled then t.signalCq wing q else t).noteFull wing q

/-- COMPLETION_WRITE (R510). -/
def execCompletionWrite (wing queue : Nat) (s : State) : Host.Outcome State Fault Refusal := .next (keepHost s (completionWrite wing queue s))

/-- The coalescing time of the oldest unsignalled entry has passed (R519). -/
def coalesceTimer (wing q : Nat) (s : State) : State :=
  if (s.cq wing q).unsignalled = 0 ∨ (s.cq wing q).time = 0 then s else s.signalCq wing q

/-- COALESCE_TIMER (R519). -/
def execCoalesceTimer (wing queue : Nat) (s : State) : Host.Outcome State Fault Refusal := .next (keepHost s (coalesceTimer wing queue s))

/-- A vector is unmasked: with its Pending Bit set it sends its message (R519). -/
def msixUnmask (fn v : Nat) (s : State) : State :=
  let e := s.vectorEntry fn v
  s.setVector fn v (if bitOf e 96 then e - 2 ^ 96 else e)

/-- MSIX_UNMASK (R519). -/
def execMsixUnmask (fn vector : Nat) (s : State) : Host.Outcome State Fault Refusal := .next (keepHost s (msixUnmask fn vector s))

/-! ### Entries (R506, R507) -/

/-- Fields of a submission entry (R506). -/
def entryKind (e : Nat) : Nat := bits e 7 0
def entryAddress (e : Nat) : Nat := bits e 159 112
def entryImage (e : Nat) : Nat := bits e 191 160
def entryLength (e : Nat) : Nat := bits e 223 192

/-- The queue's next entry, when the device may take it: the queue runs, an entry is available, no completion waits for space in its CQ, and no entry of the queue waits to start: a job (R231), or a shipment that waits for a session here (R493, R507, R510). -/
def State.nextEntry (s : State) (wing q : Nat) : Option Nat :=
  let ships := fun (p : Pending) => p.kind == 4 && s.ship.waiting.any (fun e => e.1 == wing && leAt e.2.1 0 4 == p.image)
  let x := s.sq wing q
  if x.enable && x.st == 1 && x.head != x.tail && !(s.cq wing x.cq).fullWait && !((s.wing wing).waiting.any (fun p => p.queue == q)) &&
      !((s.wing wing).commands.any (fun p => p.queue == q && ships p)) then
    some (mget 0 x.entries x.head)
  else none

/-- Copy the entry and advance HEAD (R507). -/
def State.takeEntry (s : State) (wing q e : Nat) : State × Pending :=
  let x := s.sq wing q
  (s.setSq wing q { x with head := (x.head + 1) % 2 ^ x.size, orders := mset 0 x.orders x.head 0 },
    { queue := q, command := bits e 31 16, kind := entryKind e, address := entryAddress e, image := entryImage e, length := entryLength e
      order := mget 0 x.orders x.head })

/-- An entry the device does not accept (R508): unknown KIND, a reserved field set, or ADDRESS outside the window. -/
def State.entryBad (s : State) (wing e : Nat) : Bool :=
  let k := entryKind e
  k == 0 || decide (5 < k) || bits e 15 8 != 0 || bits e 111 32 != 0 || bits e 511 224 != 0 ||
    ([1, 2, 4].contains k && !s.inWindow wing (entryAddress e) (if k = 2 then max 1 (entryLength e) else 128))

/-- Take the next entry of a queue when it is of a kind: NOT_ANCHOR and BAD_ENTRY complete at once (R508, R521). -/
def State.withEntry (s : State) (wing q : Nat) (kind : Nat → Bool) (f : State → Pending → State) : State :=
  match s.nextEntry wing q with
  | none => s
  | some e =>
    if !kind (entryKind e) then s
    else
      let r := s.takeEntry wing q e
      if entryKind e ≠ 5 ∧ !s.isAnchor then r.1.postPlain wing r.2 csNotAnchor 0 0
      else if s.entryBad wing e then r.1.postPlain wing r.2 csBadEntry 0 0
      else f r.1 r.2

/-- A NOP completes at once (R506). An entry of unknown KIND is taken here too, and completes BAD_ENTRY. -/
def nop (wing q : Nat) (s : State) : State :=
  s.withEntry wing q (fun k => k == 5 || k == 0 || decide (5 < k)) (fun t p => t.postPlain wing p csDone 0 0)

/-- NOP (R506). -/
def execNop (wing queue : Nat) (s : State) : Host.Outcome State Fault Refusal := .next (keepHost s (nop wing queue s))

/-- JOB_STATE follows the wing's jobs (R251): 0 none, 1 waiting, 2 running. -/
def State.publishJob (s : State) (wing : Nat) : State :=
  let w := s.wing wing
  s.put (0x3100 + wing) 1 (if w.job.isSome || w.running.isSome then 2 else if w.waiting.any (fun p => p.kind == 1) then 1 else 0)

/-- A RUN_JOB entry is taken and waits to be accepted (R231, R506). -/
def runJob (wing q : Nat) (s : State) : State :=
  s.withEntry wing q (· == 1) (fun t p => (t.setWing wing { t.wing wing with waiting := (t.wing wing).waiting ++ [p] }).publishJob wing)

/-- RUN_JOB (R506). -/
def execRunJob (wing queue : Nat) (s : State) : Host.Outcome State Fault Refusal := .next (keepHost s (runJob wing queue s))

/-! ### Program images (R513, R514, R230) -/

/-- A read outside any beat, for a wing: a range with an uncorrectable word is read once more (R643, R396). Answers whether it is still uncorrectable. -/
def State.readTwice (s : State) (wing who a n : Nat) : State × Bool :=
  let t := (s.plainSectors (some wing) a n).touch (.outside who) a n
  if (t.mem.firstBad a n).isSome then
    let u := t.touch (.outside who) a n
    (u, (u.mem.firstBad a n).isSome)
  else (t, false)

/-- The step and hall keep R230: a slot with a program in at most one valid group, every member with a program, at most 8 groups of two or more. -/
def Image.hallOk (i : Image) (step hall : Nat) : Bool :=
  let gs := (List.range 16).filterMap (fun g => (i.groupRec step hall g).map (fun r => r.1))
  let has := fun (slot : Nat) => decide (0 < (i.program step hall slot).2.1)
  (List.range 40).all (fun slot =>
    let n := (gs.filter (fun m => bitOf m slot)).length
    if has slot then decide (n ≤ 1) else n == 0) &&
  decide ((gs.filter (fun m => decide (1 < popcount 40 m))).length ≤ 8)

/-- Why a package refuses an image (R514): the image's bytes, as read. -/
def State.imageBad (s : State) (wing handle length : Nat) (bs : List Byte) : Bool :=
  let f := fun (start len : Nat) => leAt bs start len
  let i : Image := { address := 0, length := length, steps := f 12 4, table := f 16 4, set := f 20 1, bytes := bs }
  f 0 4 != 0x4F474C55 || f 4 2 != 1 || f 8 4 != length || decide (length < 64) ||
    bits (f 21 1) 3 0 != s.torus.shapeX || bits (f 21 1) 7 4 != s.torus.shapeY || f 22 1 % 64 != s.device ||
    decide (length < i.table + i.steps * 8 * 576) || crc32c (overlay bs 24 (leBytes 4 0)) != f 24 4 ||
    (s.image wing handle).isSome || decide (64 ≤ (s.work.images.filter (fun e => e.1 / 2 ^ 32 == wing)).length) ||
    !((List.range i.steps).all (fun st => (List.range 8).all (i.hallOk st)))

/-- Read, check and keep an image; whether it was accepted (R513, R514, R643). -/
def State.loadHere (s : State) (wing handle address length : Nat) : State × Bool :=
  let r := s.readTwice wing 3 address length
  let bs := r.1.rd address length
  if r.2 || !s.inWindow wing address length || s.imageBad wing handle length bs then (r.1, false)
  else
    let i : Image := { address := address, length := length, steps := leAt bs 12 4, table := leAt bs 16 4, set := leAt bs 20 1, bytes := bs }
    ({ r.1 with work := { r.1.work with images := mput r.1.work.images (wing * 2 ^ 32 + handle) i } }, true)

/-- Forget an image. -/
def State.unloadHere (s : State) (wing handle : Nat) : State :=
  { s with work := { s.work with images := mdel s.work.images (wing * 2 ^ 32 + handle) } }

/-- The other packages of the group. -/
def State.others (s : State) : List Nat := s.members.filter (· != s.device)

/-- The view byte of a packet for a function (R616): 0x00-0x0F that of a virtual function, 0x10 the physical function's. -/
def viewOf (fn : Nat) : Nat := if fn = 0 then 0x10 else fn - 1

/-- The function whose view a view byte names. -/
def fnOfView (view : Nat) : Nat := if view = 0x10 then 0 else view + 1

/-- Carry a command to every other package (R522). -/
def State.toOthers (s : State) (wing kind address : Nat) (data : List Byte) : State :=
  s.others.foldl (fun t d => t.send (.distribute d wing (viewOf (s.fnOf wing)) kind address data)) s

/-- The data that goes with an entry's distribution: IMAGE and LENGTH. -/
def Pending.data (p : Pending) : List Byte := leBytes 4 p.image ++ leBytes 4 p.length

/-- All results of a command are in: its completion (R514, R522). -/
def State.commandDone (s : State) (wing : Nat) (p : Pending) : State :=
  if p.kind = 2 then
    if p.refused then ((s.unloadHere wing p.image).toOthers wing 3 0 p.data).postPlain wing p csImageRefused 0 0
    else s.postPlain wing p csDone (((s.image wing p.image).map Image.steps).getD 0) 0
  else s.postPlain wing p csDone 0 0

/-- Wait for the results of a command, or complete it when there is nobody to wait for. -/
def State.awaitOthers (s : State) (wing : Nat) (p : Pending) : State :=
  if s.others = [] then s.commandDone wing p
  else s.setWing wing { s.wing wing with commands := (s.wing wing).commands ++ [{ p with acks := s.others }] }

/-- LOAD_IMAGE on the anchor (R514): its own check, then every other package's. -/
def loadImage (wing q : Nat) (s : State) : State :=
  s.withEntry wing q (· == 2) (fun t p =>
    let r := t.loadHere wing p.image p.address p.length
    if r.2 then (r.1.toOthers wing 2 p.address p.data).awaitOthers wing p
    else r.1.postPlain wing p csImageRefused 0 0)

/-- LOAD_IMAGE (R514). -/
def execLoadImage (wing queue : Nat) (s : State) : Host.Outcome State Fault Refusal := .next (keepHost s (loadImage wing queue s))

/-- A job of the wing runs or waits on an image (R508). -/
def State.imageInUse (s : State) (wing handle : Nat) : Bool :=
  (match (s.wing wing).job with
    | some j => j.image == handle
    | none => false) ||
  ((s.wing wing).waiting ++ (s.wing wing).running.toList).any (fun p => p.kind == 1 && s.rdNat p.address 4 == handle)

/-- UNLOAD_IMAGE (R506): withdraw the handle everywhere, or IMAGE_IN_USE. -/
def unloadImage (wing q : Nat) (s : State) : State :=
  s.withEntry wing q (· == 3) (fun t p =>
    if t.imageInUse wing p.image then t.postPlain wing p csImageInUse 0 0
    else ((t.unloadHere wing p.image).toOthers wing 3 p.address p.data).awaitOthers wing p)

/-- UNLOAD_IMAGE (R506). -/
def execUnloadImage (wing queue : Nat) (s : State) : Host.Outcome State Fault Refusal := .next (keepHost s (unloadImage wing queue s))

/-- A package's result of a command of the anchor (R522). -/
def State.takeAck (s : State) (source wing : Nat) (is : Pending → Bool) (ok : Bool) : State :=
  let w := s.wing wing
  match w.commands.find? (fun p => is p && p.acks.contains source) with
  | none => s
  | some p =>
    let p' := { p with acks := p.acks.filter (· != source), refused := p.refused || !ok }
    if p'.acks = [] then (s.setWing wing { w with commands := w.commands.filter (· != p) }).commandDone wing p'
    else s.setWing wing { w with commands := updFirst (· == p) (fun _ => p') w.commands }

/-! ### Aperture and BAR4 (R515-R518) -/

/-- A write of APERTURE (R516): each function has one. -/
def aperture (fn wing v : Nat) (s : State) : State :=
  if s.owns fn wing then { s with host := { s.host with aperture := mset 0 s.host.aperture fn (v % 2 ^ 64) } } else s

/-- APERTURE (R516). -/
def execAperture (fn wing value : Nat) (s : State) : Host.Outcome State Fault Refusal := .next (keepHost s (aperture fn wing value s))

/-- The device address and the first address beyond reach of a function's BAR4 access at offset a under an APERTURE value (R515). -/
def State.barReach (s : State) (fn ap a : Nat) : Nat × Nat :=
  let off := bits ap 47 28 * 2 ^ 28 + a
  if fn = 0 then (off, s.obj 0x7000 2) else (s.obj (0x3000 + (fn - 1)) 1 + off, s.obj (0x3000 + (fn - 1)) 2)

/-- The other package that an aperture points at, where REMOTE is set (R516, R517). -/
def State.remoteTarget (s : State) (ap : Nat) : Option Nat := if bitOf ap 54 && bits ap 53 48 != s.device then some (bits ap 53 48) else none

/-- Word addresses from here on name words of the valid-bit map, which no device address reaches (R371): 2 × (stack × 2^20 + map word) + copy. -/
def mapWords : Nat := 2 ^ 45

/-- Invert stored bits of one word; two or more in a map word make that copy uncorrectable. -/
def Mem.upsetWord (m : Mem) (u : Nat × Nat) : Mem :=
  if mapWords ≤ u.1 then
    let key := (u.1 - mapWords) / 2
    if 2 ≤ popcount 72 u.2 then { m with mapBad := mset 0 m.mapBad key (mget 0 m.mapBad key ||| 2 ^ ((u.1 - mapWords) % 2)) } else m
  else
    (m.putBytes (8 * u.1) (leBytes 8 (m.word u.1 ^^^ u.2 % 2 ^ 64))).putCheck u.1 (BitVec.ofNat 8 ((m.check u.1).toNat ^^^ u.2 / 2 ^ 64))

/-- A map word that is uncorrectable in one copy is restored from the other; in both, the package is fatal (R392). -/
def State.checkMap (s : State) : State :=
  let lost := s.mem.mapBad.filter (fun e => e.2 == 3)
  let t := { s with mem := { s.mem with mapBad := lost } }
  lost.foldl (fun t e => t.raise 0x4505 unitStack (e.1 / 2 ^ 20 * 32) none (leBytes 1 (e.1 / 2 ^ 20) ++ leBytes 4 (e.1 % 2 ^ 20))) t

/-- The state with stored bits inverted by the memory (R368): word address and mask over data and check bits. -/
def State.upset (s : State) (l : List (Nat × Nat)) : State :=
  let t := { s with mem := l.foldl Mem.upsetWord s.mem }
  if t.mem.mapBad = s.mem.mapBad then t else t.checkMap

/-- Count an access's parity retries (R368, R398). -/
def State.parityRetries (s : State) (a : Nat) (p : Parity) : State :=
  (s.count (0xC1D0 + stackOf a) 9 p.command).count (0xC1D0 + stackOf a) 0xA p.data

/-- Status of a read's completion: 0 successful, 1 Unsupported Request, 4 Completer Abort. -/
abbrev cplOk : Nat := 0
abbrev cplUr : Nat := 1
abbrev cplCa : Nat := 4

/-- Read HBM for a host: the bytes, or Completer Abort when a word is uncorrectable or a data-parity retry failed (R396, R398). -/
def State.hostRead (s : State) (fn a n : Nat) (p : Parity) : State × Nat × List Byte :=
  let t := ((s.upset p.upsets).parityRetries a p).plainSectors (if fn = 0 then none else some (fn - 1)) a n
  let r := t.touch (.outside 1) a n
  if (r.mem.firstBad a n).isSome then (r, cplCa, [])
  else if p.failed then (r.hbmBad (.outside 1) (a / 8) true, cplCa, [])
  else (r, cplOk, r.rd a n)

/-- A BAR4 read (R515, R517): answered from HBM, forwarded to TARGET, or completed as Unsupported Request. -/
def bar4Read (fn a n : Nat) (p : Parity) (s : State) : State :=
  let ap := mget 0 s.host.aperture fn
  let r := s.barReach fn ap a
  if !s.fnActive fn then s.send (.bar4 fn cplUr [])
  else match s.remoteTarget ap with
    | some d =>
      if s.others.contains d && s.isAnchor then s.send (.distribute d (fn - 1) (viewOf fn) 0x10 (bits ap 47 28 * 2 ^ 28 + a) (leBytes 4 n))
      else s.send (.bar4 fn cplUr [])
    | none =>
      if r.2 < r.1 + n then s.send (.bar4 fn cplUr [])
      else
        let x := s.hostRead fn r.1 n p
        x.1.send (.bar4 fn x.2.1 x.2.2)

/-- BAR4_READ (R515). -/
def execBar4Read (fn address length : Nat) (parity : Parity) (s : State) : Host.Outcome State Fault Refusal :=
  .next (keepHost s (bar4Read fn address length parity s))

/-- Write HBM for a host (R391, R518): a write that reaches a folio pool is dropped and reported. -/
def State.hostWrite (s : State) (fn a limit : Nat) (bs : List Byte) : State :=
  if limit < a + bs.length then s.count 0xC260 2 1
  else if s.inPool a bs.length then (s.count 0xC260 2 1).raise 0x0201 unitPackage 0 none (leBytes 1 fn ++ leBytes 8 a)
  else (s.plainSectors (if fn = 0 then none else some (fn - 1)) a bs.length).outsideWrite (fn + 1) a bs

/-- A BAR4 write (R499, R515, R517, R518). -/
def bar4Write (fn a : Nat) (bs : List Byte) (poisoned : Bool) (s : State) : State :=
  let ap := mget 0 s.host.aperture fn
  if !s.fnActive fn then s
  else if poisoned then (s.count 0xC260 3 1).send (.aer fn)
  else match s.remoteTarget ap with
    | some d =>
      if s.others.contains d && s.isAnchor then s.send (.distribute d (fn - 1) (viewOf fn) 0x11 (bits ap 47 28 * 2 ^ 28 + a) bs)
      else s.count 0xC260 2 1
    | none => let r := s.barReach fn ap a; s.hostWrite fn r.1 r.2 bs

/-- BAR4_WRITE (R518). -/
def execBar4Write (fn address : Nat) (data : List Byte) (poisoned : Bool) (s : State) : Host.Outcome State Fault Refusal :=
  .next (keepHost s (bar4Write fn address data poisoned s))

/-! ### Function level reset (R523) -/

/-- A running wing goes to stopping and halts at the next seal (R68). -/
def State.stopWing (s : State) (w : Nat) : State := if s.wingState w = 1 then s.put (0x3000 + w) 3 2 else s

/-- Unload every image of a wing. -/
def State.dropImages (s : State) (w : Nat) : State :=
  { s with work := { s.work with images := s.work.images.filter (fun e => e.1 / 2 ^ 32 != w) } }

/-- What a reset of a wing's function does here (R523): the wing stops, its queues are disabled and their completions discarded, its images go, at the halt where a job still runs. -/
def State.resetWing (s : State) (w : Nat) : State :=
  let mine := fun (k : Nat) => k / 64 == w
  let h := { s.host with
    sqs := s.host.sqs.map (fun (e : Nat × Sq) => if mine e.1 then (e.1, { e.2 with enable := false, st := 0, cause := 0 }) else e)
    cqs := s.host.cqs.map (fun (e : Nat × Cq) => if mine e.1 then (e.1, { e.2 with enable := false, waiting := [], fullWait := false, unsignalled := 0 }) else e) }
  let h := { h with sqs := h.sqs.filter (fun e => e.2 != ({} : Sq)), cqs := h.cqs.filter (fun e => e.2 != ({} : Cq)) }
  let x := s.wing w
  let busy := x.job.isSome && (s.wingState w == 1 || s.wingState w == 2)
  let t := ({ s with host := h }).setWing w { x with waiting := [], running := none, commands := [], dropImages := busy || x.dropImages }
  let t := if busy then t else t.dropImages w
  (t.stopWing w).publishJob w

/-- The wings that a function's reset reaches: a virtual function's own; the physical function's, all that are not exposed. -/
def State.resetWings (s : State) (fn : Nat) : List Nat :=
  if fn = 0 then (List.range 16).filter (fun w => !s.vfActive w) else [fn - 1]

/-- The effects of resetting a function, here and on every package of the group (R523). -/
def State.resetFunction (s : State) (fn : Nat) : State :=
  let t := (s.resetWings fn).foldl (fun t w => (if t.isAnchor then t.toOthers w 0x20 0 [] else t).resetWing w) s
  let t := { t with host := { t.host with aperture := mset 0 t.host.aperture fn 0 } }
  if fn = 0 then ({ t with host := { t.host with doe := {} } }).setWindow 0 {} else t

/-- An FLR (R523) of a function that responds. -/
def flr (fn : Nat) (s : State) : State := if s.fnActive fn then s.resetFunction fn else s

/-- FLR (R523). -/
def execFlr (fn : Nat) (s : State) : Host.Outcome State Fault Refusal := .next (keepHost s (flr fn s))

/-- VF Enable is cleared (R501, R523): one bit of the physical function's SR-IOV capability stands for every virtual function, and each that responded is reset. -/
def State.clearVfEnable (s : State) : State :=
  let t := ((List.range 16).filter s.vfActive).foldl (fun t n => t.resetFunction (n + 1)) s
  { t with host := { t.host with vfEnable := false } }

/-- VF_ENABLE_CLEAR (R523). -/
def execVfEnableClear (fn : Nat) (s : State) : Host.Outcome State Fault Refusal :=
  .next (keepHost s (if 1 ≤ fn ∧ fn ≤ 16 ∧ s.host.vfEnable then s.clearVfEnable else s))

/-- A hot reset, link down or PERST_N (R523): every function is reset, and with them the configuration that software set in them. -/
def hotReset (s : State) : State :=
  let fns := 0 :: ((List.range 16).filter s.vfActive).map (· + 1)
  let t := fns.foldl (fun t fn => t.resetFunction fn) s
  let t := ((t.setObj 0x1040 1 0).setObj 0x1040 2 0).setObj 0x1040 3 0
  { t with host := { t.host with busMaster := [], vectors := [], pendingMsi := [], vfEnable := false, numVfs := 0 } }

/-- HOT_RESET (R523). The beat, the torus and forwarding go on (R15). -/
def execHotReset (s : State) : Host.Outcome State Fault Refusal := .next (keepHost s (hotReset s))

end Sys2Proof.Machine
end

