-- ==== Sys2Proof/Machine/Ship.lean ====
section
/-! DEFINITION. Export (15_export.md): Ethernet frames (R472-R476), shipment records (R477-R479), loans, chunks and entries (R480-R482), Ailas frames (R484-R488), sessions and flow (R489-R493), the torus and receiving (R494, R495). -/

namespace Sys2Proof.Machine

open Sys2Proof

/-! ### Records (R477, R478) -/

/-- A field of a shipment record. -/
def recF (r : List Byte) (hi lo : Nat) : Nat := bits (leNat (r.take 128)) hi lo

def recShip (r : List Byte) : Nat := recF r 31 0
def recDoors (r : List Byte) : List Nat := (List.range 4).filter (fun k => bitOf (recF r 35 32) k)
def recTorus (r : List Byte) : Bool := recF r 36 36 == 1
def recFollow (r : List Byte) : Bool := recF r 37 37 == 1
def recReceive (r : List Byte) : Bool := recF r 38 38 == 1
def recDev (r : List Byte) : Nat := recF r 45 40
def recDir (r : List Byte) : Nat := recF r 111 64
def recLayers (r : List Byte) : List Nat := (List.range (recF r 143 136)).map (· + recF r 135 128)
def recTables (r : List Byte) : List Nat := (List.range (recF r 159 152)).map (· + recF r 151 144)
def recFirst (r : List Byte) : Nat := recF r 191 160
def recEnd (r : List Byte) : Nat := recF r 223 192
def recAddr (r : List Byte) : List Byte := slice r 28 16
def recPort (r : List Byte) : Nat := recF r 367 352

/-- A directory's layer entry breaks R320: `win` whether the layer has a window. A layer without tables is not checked. -/
def State.dirBad (s : State) (wing : Nat) (d : DirEntry) (win : Bool) : Bool :=
  let size := (if win then 512 else 0) + 4 * d.entries
  d.res || d.addr != 0 && (d.headDim == 3 || !folioFmt d.fmt || d.tables == 0 || decide (128 < d.tables) || (d.headDim == 2 && d.tables % 2 != 0) ||
    d.entries == 0 || decide (262144 < d.entries) || decide (64 * d.stride < size) || d.addr % 64 != 0 ||
    !s.inWindow wing d.addr (64 * d.stride * (d.tables - 1) + size))

/-- The layer has a window in the wing's job; a shipment record names no layer table of its own. -/
def State.shipWindowed (s : State) (wing layer : Nat) : Bool := match (s.wing wing).job with
  | some j => decide (layer < j.layers) && s.layerWindow j layer != 0
  | none => false

/-- A record's entry for a layer. -/
def State.recEntry (s : State) (r : List Byte) (layer : Nat) : DirEntry := DirEntry.of (s.rdNat (recDir r + 16 * layer) 16)

/-- The record or its directory is bad (R477, R478). -/
def State.recBad (s : State) (wing : Nat) (r : List Byte) : Bool :=
  let net := !recTorus r && !recReceive r
  recF r 39 39 != 0 || recF r 63 46 != 0 || recF r 127 112 != 0 || recF r 1023 448 != 0 || (recTorus r && recF r 35 32 != 0) ||
    recF r 143 136 == 0 || recF r 159 152 == 0 || decide (128 < recF r 159 152) || decide (255 < recF r 135 128 + recF r 143 136) ||
    recFirst r % 16 != 0 || decide (recEnd r ≤ recFirst r) || decide (4194304 < recEnd r) ||
    (!net && (recF r 351 224 != 0 || recPort r != 0)) || (net && decide (recPort r < 1024)) ||
    !s.inWindow wing (recDir r) (16 * (recF r 135 128 + recF r 143 136)) ||
    (recLayers r).any (fun n =>
      let d := s.recEntry r n
      s.dirBad wing d (s.shipWindowed wing n) || (d.addr != 0 && decide (d.tables < recF r 151 144 + recF r 159 152)))

/-- The folio for entry i of a table by R322: in a windowed layer the global list first, then the ring entry whose folio starts there. -/
def State.shipFolio (s : State) (wing : Nat) (r : List Byte) (layer table i : Nat) : Option Nat :=
  let d := s.recEntry r layer
  let win := s.shipWindowed wing layer
  let some' := fun (f : Nat) => if f = noFolio then none else some f
  if win then
    match (s.globalList d table).find? (fun g => g.2.1 == i) with
    | some g => some' g.2.2
    | none =>
      let f := s.rdNat (d.entry win table (i % d.entries)) 4
      if f ≠ noFolio ∧ (s.side f).firstPos = 16 * i then some f else none
  else if i < d.entries then some' (s.rdNat (d.entry win table i) 4) else none

/-- Every position of entry i below the record's end is held (R292, R479). -/
def sideHolds (x : Side) (i last : Nat) : Bool :=
  x.firstPos == 16 * i && decide (min 16 (last - 16 * i) ≤ min x.keys x.values)

/-- The entries a shipment covers: layer, table, entry, in order (R479); layers without tables hold nothing. -/
def State.shipTodo (s : State) (r : List Byte) : List (Nat × Nat × Nat) :=
  let is := (List.range (ceilDiv (recEnd r) 16 - recFirst r / 16)).map (· + recFirst r / 16)
  ((recLayers r).filter (fun n => (s.recEntry r n).addr != 0)).flatMap (fun n => (recTables r).flatMap (fun x => is.map (fun i => (n, x, i))))

/-! ### Frames (R484-R488) -/

/-- The version byte of a frame header. -/
def ailasVersion (v : Nat) : Nat := v / 256 * 16 + v % 256

/-- A frame: header and body (R484). -/
def ailasFrame (version kind session number count flags : Nat) (body : List Byte) : List Byte :=
  beBytes 2 0x4149 ++ beBytes 1 (ailasVersion version) ++ beBytes 1 kind ++ beBytes 4 session ++ beBytes 4 number ++ beBytes 2 body.length ++
    beBytes 1 count ++ beBytes 1 flags ++ body

/-- Fields of a received frame. -/
def afKind (f : List Byte) : Nat := beAt f 3 1
def afSession (f : List Byte) : Nat := beAt f 4 4
def afNumber (f : List Byte) : Nat := beAt f 8 4
def afLength (f : List Byte) : Nat := beAt f 12 2
def afCount (f : List Byte) : Nat := beAt f 14 1
def afBody (f : List Byte) : List Byte := slice f 16 (afLength f)

/-- A frame is well formed and of a kind. -/
def ailasOk (kind : Nat) (f : List Byte) : Bool :=
  beAt f 0 2 == 0x4149 && afKind f == kind && decide (16 + afLength f ≤ f.length) && afSession f != 0

/-- A CLOSE frame (R488). -/
def closeFrame (version session reason chunks folios : Nat) : List Byte :=
  ailasFrame version 5 session 0 0 0 (beBytes 1 reason ++ [0, 0, 0] ++ beBytes 4 chunks ++ beBytes 4 folios ++ [0, 0, 0, 0])

/-- Formats that the session's folios have (R489): those named now, and with FOLLOW each layer's APPEND_FMT. -/
def State.shipFormats (s : State) (wing : Nat) (r : List Byte) : Nat :=
  let now := (s.shipTodo r).filterMap (fun e => (s.shipFolio wing r e.1 e.2.1 e.2.2).map (fun f => (s.side f).format))
  let app := if recFollow r then (recLayers r).map (fun n => (s.recEntry r n).fmt) else []
  (List.range 16).foldl (fun a f => if (now ++ app).contains f then a + 2 ^ f else a) 0

/-- An OPEN frame (R485). -/
def State.openFrame (s : State) (x : Ship) : List Byte :=
  let r := x.record
  ailasFrame 0x0102 1 x.session 0 0 0 (beBytes 2 0x0102 ++ beBytes 2 0x0100 ++ beBytes 4 (recShip r) ++ slice r 48 8 ++ beBytes 2 (s.shipFormats x.wing r) ++
    beBytes 1 (recF r 135 128) ++ beBytes 1 (recF r 143 136) ++ beBytes 1 (recF r 151 144) ++ beBytes 1 (recF r 159 152) ++
    beBytes 1 (b2n (recFollow r)) ++ [0] ++ beBytes 4 (recFirst r) ++ beBytes 4 (recEnd r) ++
    beBytes 4 (if recFollow r then 0 else (s.shipTodo r).length) ++ List.replicate 12 0)

/-! ### Sending (R475, R476, R490, R494) -/

/-- An Ethernet door is up: MODE 1 and LINK_STATE 1. -/
def State.ethUp (s : State) (k : Nat) : Bool := s.obj (0x800C + k) 1 == 1 && s.obj (0xD000 + k) 8 == 1

/-- The doors of a shipment that are UP, ascending. -/
def State.shipDoors (s : State) (r : List Byte) : List Nat := (recDoors r).filter s.ethUp

/-- The next hop of a destination on a door (R475). -/
def State.nextHop (s : State) (k : Nat) (dst : List Byte) : List Byte :=
  let n := s.obj (0xD000 + k) 3
  let own := leBytes 16 (s.obj (0xD000 + k) 2)
  let inside := beNat own / 2 ^ (128 - n) == beNat dst / 2 ^ (128 - n)
  if (s.obj (0xD000 + k) 2 ≠ 0 ∧ inside) ∨ beAt dst 0 2 / 64 = 0x3FA then dst else leBytes 16 (s.obj (0xD000 + k) 4)

/-- The MAC address of a resolved next hop. -/
def State.hopMac (s : State) (k : Nat) (hop : List Byte) : Option (List Byte) :=
  (s.ship.neighbours.find? (fun n => n.1 == k && n.2.1 == hop)).map (fun n => n.2.2)

/-- The next hop of a shipment's destination on a door is resolved (R475, R491). -/
def State.routed (s : State) (x : Ship) (k : Nat) : Bool := (s.hopMac k (s.nextHop k (recAddr x.record))).isSome

/-- A session need not wait (R491): a door of DOORS is UP and its next hop resolved, or it goes over the torus. -/
def State.canSend (s : State) (x : Ship) : Bool := recTorus x.record || (s.shipDoors x.record).any (s.routed x)

/-- Ask for the next hop on a door while a session waits for it (R475). -/
def State.solicitHop (s : State) (x : Ship) (k : Nat) : State :=
  s.putEth k (wingOwner x.wing) ((s.doorIface k).solicit (s.nextHop k (recAddr x.record)))

/-- The UDP source port of a session (R476). -/
def shipPort (session : Nat) : Nat := 49152 + session % 16384

/-- Put a session's frame on a door; an unresolved next hop is solicited instead (R475, R491). -/
def State.sendEth (s : State) (x : Ship) (k : Nat) (f : List Byte) : State :=
  let i := s.doorIface k
  let dst := recAddr x.record
  let hop := s.nextHop k dst
  match s.hopMac k hop with
  | some mac =>
    let src := (i.addrs.getLast?).getD noAddress
    s.putEth k (wingOwner x.wing) (i.udp mac src dst (shipPort x.session) (recPort x.record) f)
  | none => s.solicitHop x k

/-- The fragments of a frame sent over the torus (R494). -/
def fragments (frame : Nat) (f : List Byte) : List (List Byte) :=
  let ps := chunksOf 3840 f
  (ps.zipIdx).map (fun p => beBytes 4 frame ++ beBytes 1 p.2 ++ beBytes 1 ps.length ++ [0, 0] ++ p.1)

/-- Send fragments to a device on VC4. -/
def State.sendFragments (s : State) (dev wing frame : Nat) (f : List Byte) : State :=
  (fragments frame f).foldl (fun t p => t.sendPacket (wingOwner wing) dev wing 0x03 4 p) s

def State.setShip (s : State) (x : Ship) : State :=
  { s with ship := { s.ship with ships := updFirst (fun y => y.session == x.session) (fun _ => x) s.ship.ships } }

def State.shipOf (s : State) (session : Nat) : Option Ship := s.ship.ships.find? (fun x => x.session == session && x.st != 3)

/-- The door a session's frame goes on when none is named: the first that is UP with its next hop resolved, else the first that is UP. -/
def State.firstDoor (s : State) (x : Ship) : Option Nat :=
  let ks := s.shipDoors x.record
  (ks.find? (s.routed x)).or ks.head?

/-- Send a session's frame: over the torus, or on a door. -/
def State.sendShip (s : State) (x : Ship) (door : Option Nat) (f : List Byte) : State :=
  if recTorus x.record then
    (s.sendFragments (recDev x.record) x.wing x.frames f).setShip { x with frames := x.frames + 1 }
  else match door.or (s.firstDoor x) with
    | some k => s.sendEth x k f
    | none => s

/-! ### Ends (R492, R493) -/

/-- Statuses of R492. -/
abbrev shDone : Nat := 0
abbrev shBadRecord : Nat := 1
abbrev shNoAnswer : Nat := 2
abbrev shRefused : Nat := 3
abbrev shFormat : Nat := 4
abbrev shAborted : Nat := 5
abbrev shUnreadable : Nat := 6
abbrev shNotHeld : Nat := 7
abbrev shCeiling : Nat := 8
abbrev shNoRoute : Nat := 9
abbrev shCancelled : Nat := 10
abbrev shBadFolio : Nat := 11
abbrev shNoSpace : Nat := 12
abbrev shOccupied : Nat := 13

/-- The anchor takes a package's end of a shipment (R492, R522): with all in, the completion reports the status of the lowest device id not at DONE. -/
def State.takeShipEnd (s : State) (device wing ship status : Nat) : State :=
  let w := s.wing wing
  match w.commands.find? (fun p => p.kind == 4 && p.image == ship && p.acks.contains device) with
  | none => s
  | some p =>
    let p' := { p with acks := p.acks.filter (· != device) }
    let es := s.ship.ends ++ [(wing, ship, device, status)]
    if p'.acks = [] then
      let mine := es.filter (fun e => e.1 == wing && e.2.1 == ship)
      let bad := sortBy (fun a b => decide (a.2.2.1 ≤ b.2.2.1)) (mine.filter (fun e => e.2.2.2 != shDone))
      let st := (bad.head?.map (fun e => e.2.2.2)).getD shDone
      let t := { s with ship := { s.ship with ends := es.filter (fun e => !(e.1 == wing && e.2.1 == ship)) } }
      (t.setWing wing { w with commands := w.commands.filter (· != p) }).postPlain wing p' (if st = shDone then csDone else csShipEnded) ship st
    else
      ({ s with ship := { s.ship with ends := es } }).setWing wing { w with commands := updFirst (· == p) (fun _ => p') w.commands }

/-- This package's part of a shipment has ended: counters, the F0 record, the report to the anchor (R492, R496, R497). -/
def State.reportShip (s : State) (wing ship home status : Nat) (folio : Option Nat) : State :=
  let t := if status = shDone then s.count 0xC250 4 1
    else (s.count 0xC250 5 1).raise 0x0F01 unitPackage 0 (some wing) (leBytes 4 ship ++ leBytes 1 status ++ ((folio.map (leBytes 4)).getD []))
  if home = t.device then t.takeShipEnd t.device wing ship status else t.send (.result home (.shipment wing ship status))

/-- Live sessions (R493, R496). -/
def State.liveShips (s : State) : Nat := (s.ship.ships.filter (fun x => x.st != 3)).length + s.ship.recvs.length

def State.publishShips (s : State) : State := s.setObj 0xD100 2 s.liveShips

/-- Folios of the chunks of a session. -/
def Ship.folios (x : Ship) (p : Chunk → Bool) : List Nat := (x.chunks.filter p).flatMap Chunk.folios

/-- Folios in the chunks sent. -/
def Ship.sentFolios (x : Ship) : Nat := (x.folios (fun c => c.sends != 0)).length

/-- The CLOSE frame of a session. -/
def Ship.close (x : Ship) (reason : Nat) : List Byte :=
  closeFrame (if x.version = 0 then 0x0102 else x.version) x.session reason (x.chunks.filter (fun c => c.sends != 0)).length x.sentFolios

/-- Send OPEN, which counts once it has gone out (R489, R491). -/
def State.sendOpen (s : State) (x : Ship) : State :=
  if s.canSend x then
    let y := { x with opens := x.opens + 1 }
    (s.setShip y).sendShip y none (s.openFrame y)
  else s.sendShip x none (s.openFrame x)

/-- Begin a session for a record that has passed its checks (R479, R489), or end at once. -/
def State.beginShip (s : State) (wing : Nat) (r : List Byte) (home : Nat) : State :=
  let todo := s.shipTodo r
  let held := todo.all (fun e => match s.shipFolio wing r e.1 e.2.1 e.2.2 with
    | some f => sideHolds (mget {} s.folio.sealed.sides f) e.2.2 (recEnd r)
    | none => false)
  if todo = [] then s.reportShip wing (recShip r) home shDone none
  else if !recFollow r && !held then s.reportShip wing (recShip r) home shNotHeld none
  else
    let x : Ship := { session := s.ship.nextSession, ship := recShip r, wing := wing, record := r, home := home, todo := todo, rtx := s.obj 0xD100 1 }
    let t := { s with ship := { s.ship with ships := s.ship.ships ++ [x], nextSession := s.ship.nextSession + 1 } }
    (t.sendOpen x).publishShips

/-- Start a shipment's part on this package (R478, R493, R495): a record with RECEIVE waits for its OPEN; others wait for one of 256 sessions. -/
def State.startShip (s : State) (wing : Nat) (r : List Byte) (home : Nat) : State :=
  if s.recBad wing r then s.reportShip wing (recShip r) home shBadRecord none
  else if recReceive r then { s with ship := { s.ship with receives := s.ship.receives ++ [(wing, r, home)] } }
  else if 256 ≤ s.liveShips then { s with ship := { s.ship with waiting := s.ship.waiting ++ [(wing, r, home)] } }
  else s.beginShip wing r home

/-- Where a waiting shipment comes among its wing's, by the doorbell that made its entry available (R507). -/
def State.shipOrder (s : State) (e : Nat × List Byte × Nat) : Nat :=
  (((s.wing e.1).commands.find? (fun p => p.kind == 4 && p.image == recShip e.2.1)).map Pending.order).getD 0

/-- A session that waited starts when there is room, in order of submission (R493), and among the wing's queues in that of their doorbells (R507). -/
def State.startWaiting (s : State) : State := match s.ship.waiting with
  | [] => s
  | e :: rest =>
    if 256 ≤ s.liveShips then s
    else
      let x := rest.foldl (fun a b => if a.1 = b.1 ∧ s.shipOrder b < s.shipOrder a then b else a) e
      State.beginShip { s with ship := { s.ship with waiting := (e :: rest).erase x } } x.1 x.2.1 x.2.2

/-- Read a shipment's record and start (R477, R643). -/
def State.shipAt (s : State) (wing address home : Nat) : State :=
  let r := s.readTwice wing 2 address 128
  let bytes := r.1.rd address 128
  if r.2 then r.1.reportShip wing (recShip bytes) home shBadRecord none else r.1.startShip wing bytes home

/-- A session ends: its loans are due at the next seal, the end is reported, a waiting shipment may start. `close`: one CLOSE goes out with the status. -/
def State.endShip (s : State) (x : Ship) (status : Nat) (close : Bool) (folio : Option Nat) : State :=
  let t := if close then s.sendShip x none (x.close status) else s
  let y := { x with st := 3, status := status, todo := [], release := x.release ++ x.folios (fun c => !c.acked) }
  (((t.setShip y).publishShips).reportShip x.wing x.ship x.home status folio).startWaiting

/-- SHIP (R478) on the anchor: the entry is carried to every package, and each starts its part. -/
def ship (wing q : Nat) (s : State) : State :=
  s.withEntry wing q (· == 4) (fun t p =>
    let id := t.rdNat p.address 4
    let t := t.setWing wing { t.wing wing with commands := (t.wing wing).commands ++ [{ p with image := id, acks := t.members }] }
    (t.toOthers wing 4 p.address p.data).shipAt wing p.address t.device)

/-- SHIP (R478). -/
def execShip (wing queue : Nat) (s : State) : Host.Outcome State Fault Refusal := .next (keepHost s (ship wing queue s))

/-! ### Opening and sending (R489-R491) -/

/-- OPEN_RESEND (R489): every 1 ms; after 8 sends the shipment ends. -/
def openResend (session : Nat) (s : State) : State := match s.shipOf session with
  | some x =>
    if x.st ≠ 0 then s
    else if 8 ≤ x.opens then s.endShip x shNoAnswer true none
    else s.sendOpen x
  | none => s

/-- OPEN_RESEND (R489). -/
def execOpenResend (session : Nat) (s : State) : Host.Outcome State Fault Refusal := .next (keepHost s (openResend session s))

/-- ACCEPT (R485, R489, R490). -/
def accept (f : List Byte) (s : State) : State := match s.shipOf (afSession f), ailasOk 2 f with
  | some x, true =>
    let b := afBody f
    let v := beAt b 2 2
    if x.st ≠ 0 then s
    else if beAt b 0 1 ≠ 0 ∨ v < 0x0100 ∨ 0x0102 < v then s.endShip x shRefused true none
    else s.setShip { x with st := 1, version := v, formats := beAt b 4 2, credit := if v = 0x0102 then beAt b 8 4 else 256 }
  | _, _ => s

/-- ACCEPT (R489). -/
def execAccept (frame : List Byte) (s : State) : Host.Outcome State Fault Refusal := .next (keepHost s (accept frame s))

/-- Tokens of a folio that a shipment sends (R482). -/
def shipTokens (x : Side) (last : Nat) : Nat := min (min x.keys x.values) (last - x.firstPos)

/-- The entry of a folio in a chunk (R482). -/
def State.shipEntry (s : State) (r : List Byte) (f : Nat) : List Byte :=
  let x := s.side f
  let clip := recEnd r - x.firstPos
  let n := folioBytes f
  let pay := fitBytes n ((s.rd (s.folioAddr f) n).take (n / 16 * shipTokens x (recEnd r)))
  let head := leBytes 1 x.format ++ leBytes 1 x.version ++ leBytes 1 (16 * x.layout) ++ leBytes 1 x.layer ++ leBytes 1 x.table ++ [0, 0, 0] ++
    leBytes 1 (min x.keys clip) ++ leBytes 1 (min x.values clip) ++ leBytes 1 (shipTokens x (recEnd r)) ++ [0, 0, 0, 0, 0] ++ leBytes 4 x.firstPos ++
    List.replicate 12 0
  pay ++ head ++ slice (s.sideBytes f) 32 224

/-- Send or resend a chunk on a door (R486, R490, R491, R493): each folio is read, once more where a word is uncorrectable. DESIGN CHOICE: the reads ask at index 40 of the hall whose stack holds them (R366, log entry 200). -/
def State.sendChunk (s : State) (x : Ship) (c : Chunk) (door : Option Nat) : State :=
  let r := c.folios.foldl (fun (acc : State × Option Nat) f =>
    if acc.2.isSome then acc
    else
      (acc.1.folioRead f).foldl (fun (a : State × Option Nat) e =>
        let y := (a.1.request (stackOf e.1) 40 false [e]).readTwice x.wing 2 e.1 e.2
        (y.1, if y.2 then some f else a.2)) (acc.1, none)) (s, none)
  match r.2 with
  | some f => r.1.endShip x shUnreadable true (some f)
  | none =>
    let t := r.1
    let body := c.folios.flatMap (t.shipEntry x.record)
    let fr := ailasFrame x.version 3 x.session c.number c.folios.length (if c.sends = 0 then 0 else 1) body ++ beBytes 8 (crc64 body)
    let c' := { c with sends := c.sends + 1, door := door.getD c.door, later := 0 }
    let y := { x with chunks := updFirst (fun z => z.number == c.number) (fun _ => c') x.chunks }
    ((t.setShip y).sendShip y door fr).count 0xC250 (if c.sends = 0 then 1 else 2) 1

/-- Send or resend a chunk on an Ethernet door; while the next hop is unresolved there the chunk waits (R491). -/
def State.chunkOn (s : State) (x : Ship) (c : Chunk) (k : Nat) : State := if s.routed x k then s.sendChunk x c (some k) else s.solicitHop x k

/-- The wing of a FOLLOW shipment is halted: the shipment pauses (R493); every shipment pauses while the HBM is in self-refresh (R551). -/
def State.shipPaused (s : State) (x : Ship) : Bool := (recFollow x.record && s.wingState x.wing != 1) || s.mem.selfRefresh

/-- CHUNK_SEND (R489, R490): the first send of a chunk below the credit limit, on door n mod u. -/
def chunkSend (session number : Nat) (s : State) : State := match s.shipOf session with
  | none => s
  | some x => match x.chunks.find? (fun c => c.number == number) with
    | none => s
    | some c =>
      let doors := s.shipDoors x.record
      let limit := if x.version = 0x0102 then x.credit else x.cum + 256
      if x.st ≠ 1 ∨ c.sends ≠ 0 ∨ c.acked ∨ limit ≤ number ∨ s.shipPaused x then s
      else match c.folios.find? (fun f => !bitOf x.formats (s.side f).format) with
        | some f => s.endShip x shFormat true (some f)
        | none =>
          if recTorus x.record then s.sendChunk x c none
          else match doors[number % doors.length]? with
            | some k => s.chunkOn x c k
            | none => s

/-- CHUNK_SEND (R490). -/
def execChunkSend (session chunk : Nat) (s : State) : Host.Outcome State Fault Refusal := .next (keepHost s (chunkSend session chunk s))

/-- The next UP door after a chunk's last one (R491). -/
def State.nextDoor (s : State) (x : Ship) (c : Chunk) : Option Nat :=
  let doors := s.shipDoors x.record
  (doors.find? (fun k => decide (c.door < k))).or doors.head?

/-- Resend a chunk (R491). -/
def State.resendChunk (s : State) (session number : Nat) : State := match s.shipOf session with
  | none => s
  | some x => match x.chunks.find? (fun c => c.number == number) with
    | none => s
    | some c =>
      if recTorus x.record then s.sendChunk x c none
      else match s.nextDoor x c with
        | some k => s.chunkOn x c k
        | none => s

/-- With every chunk acknowledged and every folio eligible the sender sends CLOSE with reason DONE (R492). -/
def State.closeIfDone (s : State) (session : Nat) : State := match s.shipOf session with
  | some x =>
    if x.st = 1 ∧ x.todo = [] ∧ x.chunks.all Chunk.acked then
      let y := { x with st := 2, closes := 1 }
      (s.setShip y).sendShip y none (y.close shDone)
    else s
  | none => s

/-- Chunk numbers that an ACK reports: below CUM, or marked in its bitmap, which version 1.0 does not have (R487). -/
def ackMarks (version cum : Nat) (b : List Byte) (n : Nat) : Bool :=
  decide (n < cum) || (version != 0x0100 && decide (cum < n) && decide (n ≤ cum + 256) && bitOf (beAt b (8 + (n - cum - 1) / 8) 1) ((n - cum - 1) % 8))

/-- ACK (R487, R490, R491). -/
def ack (f : List Byte) (s : State) : State := match s.shipOf (afSession f), ailasOk 4 f with
  | some x, true =>
    if x.st ≠ 1 then s
    else
      let b := afBody f
      let cum := afNumber f
      let fresh := decide (x.cum ≤ cum)
      let new := (x.chunks.filter (fun c => !c.acked && ackMarks x.version cum b c.number)).map Chunk.number
      let cs := x.chunks.map (fun (c : Chunk) =>
        if c.acked ∨ new.contains c.number then { c with acked := true }
        else { c with later := if c.sends = 0 then 0 else c.later + (new.filter (fun n => decide (c.number < n))).length })
      let gone := x.folios (fun c => new.contains c.number)
      let y := { x with chunks := cs, release := x.release ++ gone, cum := max x.cum cum
                        credit := if fresh && x.version == 0x0102 then max x.credit (beAt b 0 4) else x.credit
                        expiries := if x.cum < cum then 0 else x.expiries, rtx := if x.cum < cum then s.obj 0xD100 1 else x.rtx }
      let t := (s.setShip y).count 0xC250 3 gone.length
      let again := (cs.filter (fun c => !c.acked && decide (3 ≤ c.later))).map Chunk.number
      (again.foldl (fun t n => t.resendChunk y.session n) t).closeIfDone y.session
  | _, _ => s

/-- ACK (R490). -/
def execAck (frame : List Byte) (s : State) : Host.Outcome State Fault Refusal := .next (keepHost s (ack frame s))

/-- RETRANSMISSION_TIMEOUT (R491, R492); a session that waits for a door or a next hop only asks for the hop. -/
def retransmissionTimeout (session : Nat) (s : State) : State := match s.shipOf session with
  | none => s
  | some x =>
    let open_ := x.chunks.filter (fun c => c.sends != 0 && !c.acked)
    if x.st = 2 then
      let y := { x with closes := x.closes + 1 }
      let t := (s.setShip y).sendShip y none (y.close shDone)
      if 5 ≤ y.closes then t.endShip ((t.shipOf session).getD y) shDone false none else t
    else if x.st ≠ 1 ∨ open_ = [] then s
    else if !s.canSend x then (s.shipDoors x.record).foldl (fun t k => t.solicitHop x k) s
    else if 8 ≤ x.expiries + 1 then s.endShip x shNoAnswer true none
    else
      let t := s.setShip { x with expiries := x.expiries + 1, rtx := min 8000 (2 * x.rtx) }
      (open_.map Chunk.number).foldl (fun t n => t.resendChunk session n) t

/-- RETRANSMISSION_TIMEOUT (R491). -/
def execRetransmissionTimeout (session : Nat) (s : State) : Host.Outcome State Fault Refusal := .next (keepHost s (retransmissionTimeout session s))

/-- NO_ROUTE (R491): no door is UP, or the next hop is unresolved on every one that is. -/
def noRoute (session : Nat) (s : State) : State := match s.shipOf session with
  | some x =>
    if s.canSend x then s else s.endShip x shNoRoute false none
  | none => s

/-- NO_ROUTE (R491). -/
def execNoRoute (session : Nat) (s : State) : Host.Outcome State Fault Refusal := .next (keepHost s (noRoute session s))

/-- A receive session ends (R495). -/
def State.endRecv (s : State) (x : Recv) (status : Nat) : State :=
  let t := { s with ship := { s.ship with recvs := s.ship.recvs.filter (fun y => y != x) } }
  ((t.publishShips).reportShip x.wing (recShip x.record) x.home status none).startWaiting

/-- A CLOSE_ACK that answers a CLOSE with its body (R484). -/
def closeAckFrame (version : Nat) (f : List Byte) : List Byte := ailasFrame version 6 (afSession f) 0 0 0 (afBody f)

/-- CLOSE (R492, R495): from the receiver it ends the shipment; from the sender it ends the receive session with the sender's reason. -/
def close (f : List Byte) (s : State) : State :=
  if !ailasOk 5 f then s
  else match s.shipOf (afSession f) with
    | some x => (s.sendShip x none (closeAckFrame (if x.version = 0 then 0x0102 else x.version) f)).endShip x shAborted false none
    | none => match s.ship.recvs.find? (fun y => y.session == afSession f) with
      | some y => (s.sendFragments y.source y.wing y.frames (closeAckFrame y.version f)).endRecv y (beAt (afBody f) 0 1)
      | none => s

/-- CLOSE (R492). -/
def execClose (frame : List Byte) (s : State) : Host.Outcome State Fault Refusal := .next (keepHost s (close frame s))

/-- CLOSE_ACK (R492). -/
def closeAck (f : List Byte) (s : State) : State := match s.shipOf (afSession f), ailasOk 6 f with
  | some x, true => if x.st = 2 then s.endShip x shDone false none else s
  | _, _ => s

/-- CLOSE_ACK (R492). -/
def execCloseAck (frame : List Byte) (s : State) : Host.Outcome State Fault Refusal := .next (keepHost s (closeAck frame s))

/-- End a wing's shipments of a SHIP_ID here (R493). -/
def State.cancelShip (s : State) (wing : Option Nat) (ship : Nat) : State :=
  let mine := fun (w : Nat) => match wing with
    | some v => v == w
    | none => true
  let t := ((s.ship.ships.filter (fun x => x.st != 3 && x.ship == ship && mine x.wing)).map Ship.session).foldl (fun t n => match t.shipOf n with
    | some x => t.endShip x shCancelled true none
    | none => t) s
  let gone := fun (e : Nat × List Byte × Nat) => recShip e.2.1 == ship && mine e.1
  let ws := (t.ship.waiting ++ t.ship.receives).filter gone
  let t := { t with ship := { t.ship with waiting := t.ship.waiting.filter (fun e => !gone e), receives := t.ship.receives.filter (fun e => !gone e) } }
  let t := ws.foldl (fun t e => t.reportShip e.1 ship e.2.2 shCancelled none) t
  (t.ship.recvs.filter (fun y => recShip y.record == ship && mine y.wing)).foldl (fun t y => t.endRecv y shCancelled) t

/-- A wing becomes fatal: its shipments end (R493, R567). -/
def State.endWingShips (s : State) (wing : Nat) : State :=
  ((s.ship.ships.filter (fun x => x.st != 3 && x.wing == wing)).map Ship.session).foldl (fun t n => match t.shipOf n with
    | some x => t.endShip x shNotHeld true none
    | none => t) s

/-- A wing's job completes: a FOLLOW shipment with folios not yet eligible ends (R479). -/
def State.endFollow (s : State) (wing : Nat) : State :=
  ((s.ship.ships.filter (fun x => x.st != 3 && x.wing == wing && recFollow x.record && x.todo != [])).map Ship.session).foldl (fun t n => match t.shipOf n with
    | some x => t.endShip x shNotHeld true none
    | none => t) s

/-! ### The seal (R480, R481, R495) -/

/-- Bytes of a folio's entry in a chunk. -/
def entrySize (f : Nat) : Nat := folioBytes f + 256

/-- Chunks of the folios that became eligible at one seal (R481). -/
def formChunks (fs : List Nat) : List (List Nat) :=
  let r := fs.foldl (fun (acc : List (List Nat) × List Nat × Nat) f =>
    if acc.2.1 ≠ [] ∧ 8192 < acc.2.2 + entrySize f then (acc.1 ++ [acc.2.1], [f], entrySize f)
    else (acc.1, acc.2.1 ++ [f], acc.2.2 + entrySize f)) ([], [], 0)
  if r.2.1 = [] then r.1 else r.1 ++ [r.2.1]

/-- What a shipment does at a seal: the folios it takes, the entries not yet eligible, and the failure that ends it. -/
structure ShipAct where
  taken : List ((Nat × Nat × Nat) × Nat) := []
  todo  : List (Nat × Nat × Nat) := []
  fail  : Option (Nat × Nat) := none
deriving DecidableEq, Repr

/-- Where an entry comes in folio order (R479). -/
def entryKey (e : Nat × Nat × Nat) : Nat := (e.1 * 2 ^ 8 + e.2.1) * 2 ^ 24 + e.2.2

/-- An entry of a shipment at a seal (R479, R480): its folio is taken on loan where it is eligible, until one cannot be. -/
def State.shipEntryAtSeal (s : State) (x : Ship) (a : ShipAct) (e : Nat × Nat × Nat) : State × ShipAct :=
  if a.fail.isSome then (s, a)
  else match s.shipFolio x.wing x.record e.1 e.2.1 e.2.2 with
    | none => (s, { a with todo := a.todo ++ [e] })
    | some f =>
      if folioWing f ≠ x.wing ∨ !s.folioExists f then (s, { a with fail := some (shBadFolio, f) })
      else if !sideHolds (s.side f) e.2.2 (recEnd x.record) then (s, { a with todo := a.todo ++ [e] })
      else if (s.side f).loans = 0 then (s, { a with fail := some (shBadFolio, f) })
      else if 65534 ≤ (s.side f).loans then (s, { a with fail := some (shCeiling, f) })
      else (s.addLoan f, { a with taken := a.taken ++ [(e, f)] })

/-- The loan changes of a shipment at a seal, releases and takes together in folio order (R480). -/
def State.shipLoans (s : State) (x : Ship) (entries : List (Nat × Nat × Nat)) : State × ShipAct :=
  let place := fun (f : Nat) => ((x.taken.find? (fun e => e.2 == f)).map (fun e => e.1)).getD (0, 0, 0)
  let items := x.release.map (fun f => (place f, some f)) ++ entries.map (fun e => (e, none))
  (sortBy (fun a b => decide (entryKey a.1 ≤ entryKey b.1)) items).foldl (fun (acc : State × ShipAct) i => match i.2 with
    | some f => (acc.1.releaseLoan f, acc.2)
    | none => acc.1.shipEntryAtSeal x acc.2 i.1) (s, {})

/-- One shipment at a seal: its loans, then its chunks (R480, R481). -/
def State.shipAtSeal (s : State) (x : Ship) : State :=
  let idle := x.st = 3 ∨ s.shipPaused x
  let r := s.shipLoans x (if idle then [] else x.todo)
  let x := { x with release := [] }
  if idle then r.1.setShip x
  else
    let n := x.chunks.length
    let new := ((formChunks (r.2.taken.map Prod.snd)).zipIdx).map (fun c =>
      ({ number := n + c.2, folios := c.1, door := 0, sends := 0, acked := false, later := 0 } : Chunk))
    let y := { x with chunks := x.chunks ++ new, todo := r.2.todo, taken := x.taken ++ r.2.taken }
    let u := r.1.setShip y
    match r.2.fail with
    | some e => u.endShip y e.1 true (some e.2)
    | none =>
      if !recFollow x.record ∧ y.todo ≠ [] then u.endShip y shNotHeld true none else u.closeIfDone y.session

/-- CHUNK_FORMATION (R481): every shipment in ascending SHIP_ID; sessions that ended and hold no loan are forgotten. -/
def State.shipSeal (s : State) : State :=
  let t := (sortBy (fun (a b : Ship) => decide (a.ship ≤ b.ship)) s.ship.ships).foldl State.shipAtSeal s
  { t with ship := { t.ship with ships := t.ship.ships.filter (fun x => x.st != 3 || x.release != []) } }

/-! ### Receiving (R495) -/

/-- An ACCEPT frame (R485). -/
def acceptFrame (session result version credit : Nat) : List Byte :=
  ailasFrame 0x0102 2 session 0 0 0 (beBytes 1 result ++ [0] ++ beBytes 2 version ++ beBytes 2 0x1F7 ++ [0, 0] ++ beBytes 4 credit ++ [0, 0, 0, 0])

/-- An ACK frame at a version (R487). -/
def Recv.ack (x : Recv) : List Byte :=
  let bitmap := (List.range 32).map (fun i => BitVec.ofNat 8 ((List.range 8).foldl (fun a j => if x.marks.contains (x.cum + 1 + 8 * i + j) then a + 2 ^ j else a) 0))
  ailasFrame x.version 4 x.session x.cum 0 0 (if x.version = 0x0100 then List.replicate 40 0
    else (if x.version = 0x0102 then beBytes 4 (x.cum + 64) else [0, 0, 0, 0]) ++ [0, 0, 0, 0] ++ bitmap)

def State.setRecv (s : State) (x : Recv) : State :=
  { s with ship := { s.ship with recvs := updFirst (fun y => y.session == x.session && y.source == x.source) (fun _ => x) s.ship.recvs } }

/-- A package takes an OPEN (R495). -/
def ailasOpen (source wing : Nat) (f : List Byte) (s : State) : State :=
  if !ailasOk 1 f then s
  else
    let b := afBody f
    let session := afSession f
    let v := min (beAt b 0 2) 0x0102
    let answer := fun (t : State) (frame result version : Nat) => t.sendFragments source wing frame (acceptFrame session result version 64)
    match s.ship.recvs.find? (fun y => y.session == session && y.source == source) with
    | some y => if y.wing ≠ wing then s.wingMismatch source wing 0x03 else (answer s y.frames 0 y.version).setRecv { y with frames := y.frames + 1 }
    | none => match s.ship.receives.find? (fun e => e.1 == wing && recDev e.2.1 == source && slice e.2.1 48 8 == slice b 8 8) with
      | none => answer s 0 3 0
      | some e =>
        if v < max 0x0100 (beAt b 2 2) then answer s 0 2 0
        else if 256 ≤ s.liveShips then answer s 0 1 0
        else
          let y : Recv := { session := session, source := source, wing := wing, record := e.2.1, home := e.2.2, version := v, frames := 1 }
          let t := { s with ship := { s.ship with recvs := s.ship.recvs ++ [y], receives := s.ship.receives.filter (· != e) } }
          (answer t 0 0 v).publishShips

/-- OPEN (R495). -/
def execAilasOpen (source wing : Nat) (frame : List Byte) (s : State) : Host.Outcome State Fault Refusal := .next (keepHost s (ailasOpen source wing frame s))

/-- A receiver takes a CHUNK (R495): its folios are taken at the next seal; one already written is acknowledged again. -/
def chunk (source wing : Nat) (f : List Byte) (s : State) : State :=
  if !ailasOk 3 f then s
  else match s.ship.recvs.find? (fun y => y.session == afSession f && y.source == source) with
    | none => s
    | some y =>
      let n := afNumber f
      if y.wing ≠ wing then s.wingMismatch source wing 0x03
      else if beAt f (16 + afLength f) 8 ≠ crc64 (afBody f) then s.count 0xC250 6 1
      else if n < y.cum ∨ y.marks.contains n then (s.sendFragments source wing y.frames y.ack).setRecv { y with frames := y.frames + 1 }
      else if y.cum + 64 ≤ n ∨ y.held.any (fun h => h.1 == n) then s
      else s.setRecv { y with held := y.held ++ [(n, afCount f, afBody f)] }

/-- CHUNK (R495). -/
def execChunk (source wing : Nat) (frame : List Byte) (s : State) : Host.Outcome State Fault Refusal := .next (keepHost s (chunk source wing frame s))

/-- Cut a chunk's body into its COUNT entries, payload and side record (R482). Their sizes follow from the lengths, but for one full-slot and one half-slot folio, where the side record's place tells which comes first. -/
def cutEntries : Nat → List Byte → List (List Byte × List Byte)
  | 0, _ => []
  | n + 1, b =>
    let half := b.length == 2304 * (n + 1) ||
      (b.length != 4352 * (n + 1) && fmtHalf (leAt b 2048 1) && leAt b 2049 1 == 1 && leAt b 2054 2 == 0 && leAt b 2060 4 == 0 && leAt b 2068 4 == 0)
    let size := if half then 2048 else 4096
    (slice b 0 size, slice b size 256) :: cutEntries n (b.drop (size + 256))

/-- Take one entry into a fresh folio and its table entry (R495): the status that ends the session where it cannot. -/
def State.takeEntryFolio (s : State) (x : Recv) (pay side : List Byte) : Except Nat State :=
  let layer := leAt side 3 1
  let table := leAt side 4 1
  let first := leAt side 16 4
  let d := s.recEntry x.record layer
  let a := d.entry (s.shipWindowed x.wing layer) table (first / 16)
  if d.addr = 0 ∨ d.tables ≤ table ∨ d.entries ≤ first / 16 then .error shBadRecord
  else if s.rdNat a 4 ≠ noFolio then .error shOccupied
  else
    let half := fmtHalf (leAt side 0 1)
    let scales := (List.range 128).foldl (fun (m : NMap) i => mset 0 m i (leAt side (32 + i) 1)) []
    let v : Side := { format := leAt side 0 1, layout := leAt side 2 1 / 16 % 4, layer := layer, table := table, keys := leAt side 8 1, values := leAt side 9 1
                      tokens := leAt side 10 1, firstPos := first, scales := scales }
    match s.takeFolio x.wing half v with
    | none => .error shNoSpace
    | some (f, t) => .ok (((t.plainSectors (some x.wing) (t.folioAddr f) pay.length).plainSectors (some x.wing) a 4).outsideWrite 101 (t.folioAddr f) pay |>.outsideWrite 101 a (leBytes 4 f))

/-- The lowest chunk number not yet received (R487), from n on, looking over at most `fuel` numbers. -/
def cumFrom (marks : List Nat) : Nat → Nat → Nat
  | 0, n => n
  | fuel + 1, n => if marks.contains n then cumFrom marks fuel (n + 1) else n

/-- A receive session at a seal: the chunks held are taken, then acknowledged (R495). -/
def State.recvAtSeal (s : State) (x : Recv) : State :=
  if x.held = [] then s
  else
    let r := x.held.foldl (fun (acc : State × List Nat × Option Nat) h =>
      if acc.2.2.isSome then acc
      else
        let z := (cutEntries h.2.1 h.2.2).foldl (fun a e => match a with
          | .error st => .error st
          | .ok t => State.takeEntryFolio t x e.1 e.2) (Except.ok acc.1)
        match z with
        | .ok t => (t, acc.2.1 ++ [h.1], none)
        | .error st => (acc.1, acc.2.1, some st)) (s, [], none)
    let marks := x.marks ++ r.2.1
    let cum := cumFrom marks (marks.length + 1) x.cum
    let y := { x with held := [], cum := cum, marks := marks.filter (fun n => decide (cum ≤ n)), frames := x.frames + 1 }
    let t := (r.1.setRecv y).sendFragments x.source x.wing x.frames y.ack
    match r.2.2 with
    | some st => (t.sendFragments x.source x.wing y.frames (closeFrame x.version x.session st 0 0)).endRecv y st
    | none => t

/-- Every receive session at a seal; the merge entries that its writes made are written out first (R383). -/
def State.recvSeal (s : State) : State := (s.ship.recvs.foldl State.recvAtSeal s).flushOwner (· == 101)

/-- A fragment arrives (R494): it is kept until its frame is whole; the whole frame is then taken by its own command. -/
def ailasFragment (source wing : Nat) (p : List Byte) (s : State) : State :=
  let frame := beAt p 0 4
  let i := beAt p 4 1
  let n := beAt p 5 1
  let mine := fun (e : Nat × Nat × Nat × Nat × List Byte) => e.1 == source && e.2.1 == wing && e.2.2.1 == frame
  let known := s.ship.recvs.any (fun y => y.wing == wing) || s.ship.receives.any (fun e => e.1 == wing) || s.ship.ships.any (fun x => x.wing == wing && x.st != 3)
  if !known then s.wingMismatch source wing 0x03
  else
    let all := s.ship.fragments.filter (fun e => !(mine e && e.2.2.2.1 == i)) ++ [(source, wing, frame, i, p.drop 8)]
    let all := if n ≤ (all.filter mine).length then all.filter (fun e => !mine e) else all
    { s with ship := { s.ship with fragments := all } }

/-- AILAS_FRAGMENT (R494). -/
def execAilasFragment (source wing : Nat) (packet : List Byte) (s : State) : Host.Outcome State Fault Refusal :=
  .next (keepHost s (ailasFragment source wing packet s))

/-! ### Ethernet doors (R472-R476) -/

/-- The Ailas frames a door accepts (R476): ACCEPT, ACK, CLOSE and CLOSE_ACK to a session's port, naming a live session. -/
def State.ailasAccepted (s : State) (p : Ip6) : Bool :=
  let f := p.body.drop 8
  decide (49152 ≤ beAt p.body 2 2) && [2, 4, 5, 6].contains (afKind f) && ailasOk (afKind f) f && (s.shipOf (afSession f)).isSome

/-- A frame at an Ethernet door (R473-R476): accepted or dropped and counted; solicitations and echo requests are answered, advertisements resolve next hops. While a door's probe is out, a packet that shows the address to be another node's leaves it unused; the first request from a node that the door answers ends the probe (R475). -/
def ethernetFrame (door : Nat) (f : List Byte) (fcs : Bool) (s : State) : State :=
  let k := door - 12
  let drop := fun (t : State) => t.count (0xC240 + k) 3 1
  let s := if s.obj (0x8000 + door) 1 = 1 then s.powerCount (8 + door / 2) 6 (ceilDiv f.length 256) else s
  if door < 12 ∨ 15 < door ∨ s.obj (0x8000 + door) 1 ≠ 1 then s
  else if !fcs then drop (s.count (0xC240 + k) 4 1)
  else
    let i := s.doorIface k
    match i.accept f with
    | none => drop s
    | some p =>
      let t := s.count (0xC240 + k) 2 1
      if !p.sumOk || !i.mine p.dst then drop t
      else if p.next = 17 then if t.ailasAccepted p then t else drop t
      else match t.ship.tentative.find? (fun e => e.1 == k && p.claims e.2) with
        | some e => { t with ship := { t.ship with tentative := t.ship.tentative.filter (· != e), duplicates := t.ship.duplicates ++ [e] } }
        | none =>
          let t := match p.learned with
            | some (a, mac) => { t with ship := { t.ship with neighbours := t.ship.neighbours.filter (fun n => !(n.1 == k && n.2.1 == a)) ++ [(k, a, mac)] } }
            | none => t
          match i.icmp true p with
          | some r =>
            let t := { t with ship := { t.ship with tentative := t.ship.tentative.filter (fun e => e.1 != k) } }
            t.putEth k 0 r
          | none => t

/-- ETHERNET_FRAME (R474). -/
def execEthernetFrame (door : Nat) (frame : List Byte) (fcsGood : Bool) (s : State) : Host.Outcome State Fault Refusal :=
  .next (keepHost s (ethernetFrame door frame fcsGood s))

/-- An Ethernet door goes down (R472). -/
def ethDoorDown (door cause : Nat) (s : State) : State :=
  if door < 12 ∨ 15 < door ∨ !s.ethUp (door - 12) then s else s.ethFalls door cause

/-- ETH_DOOR_DOWN (R472). -/
def execEthDoorDown (door cause : Nat) (s : State) : Host.Outcome State Fault Refusal := .next (keepHost s (ethDoorDown door cause s))

/-- An Ethernet door has trained (R472); duplicate address detection probes its addresses (R475). -/
def ethDoorUp (door : Nat) (s : State) : State :=
  if door < 12 ∨ 15 < door ∨ s.obj (0x8000 + door) 1 ≠ 1 then s
  else (s.put (0xD000 + (door - 12)) 8 1).probeDoor (door - 12)

/-- ETH_DOOR_UP (R472). -/
def execEthDoorUp (door : Nat) (s : State) : Host.Outcome State Fault Refusal := .next (keepHost s (ethDoorUp door s))

end Sys2Proof.Machine
end

