-- ==== Sys2Proof/Machine/Job.lean ====
section
/-! DEFINITION. Jobs (07_sequencing.md): the job record and its checks (R221-R224, R320, R643), acceptance and start (R231, R232), completion (R234), the manifest row and segment tables of a job beat (R225-R228), programs and stage groups (R229, R230, R233). -/

namespace Sys2Proof.Machine

open Sys2Proof

/-! ### The job record (R221, R222) -/

/-- The bits of a job record. -/
def jobField (r : List Byte) (hi lo : Nat) : Nat := bits (leNat (r.take 128)) hi lo

/-- The job a record describes, starting at beat `start`. -/
def jobOfRecord (r : List Byte) (record start : Nat) : Job :=
  { image := jobField r 31 0, record := record, sequences := jobField r 47 32, chunks := jobField r 63 48, beatCount := jobField r 95 64
    adapters := jobField r 111 96, layers := jobField r 119 112, manifest := jobField r 175 128, seqTable := jobField r 239 192
    segDir := jobField r 303 256, adapterTable := jobField r 367 320, layerTable := jobField r 431 384, recordArea := jobField r 495 448
    recordCap := jobField r 543 512, start := start, written := 0, step := 0, chunk := 0, lengths := [], rows := 0, opened := false }

/-- The tables a record names: the low bit of the field that names each, its address, its bytes (R222). -/
def Job.tables (j : Job) : List (Nat × Nat × Nat) :=
  [(128, j.manifest, 1088 * j.beatCount), (192, j.seqTable, 32 * j.sequences), (256, j.segDir, 8 * j.chunks),
    (320, j.adapterTable, 16 * j.adapters), (384, j.layerTable, 16 * j.layers), (448, j.recordArea, 32 * j.recordCap)]

/-- The image gives a program to a slot of a hall. -/
def Image.usesHall (i : Image) (hall : Nat) : Bool := (List.range 40).any (i.uses hall)

/-- The field of a job record that fails its check (R222, R231), by its low bit; reserved fields are ignored (R5). -/
def State.jobBad (s : State) (wing : Nat) (j : Job) : Option Nat :=
  let seqs := (List.range j.sequences).any (fun i =>
    let e := s.seqEntry j i
    e.length == 0 || decide (4194304 < e.length) || decide (e.length ≤ e.pre) || !s.inWindow wing e.dir (16 * j.layers))
  match s.image wing j.image with
  | none => some 0
  | some i =>
    if (List.range 8).any (fun h => i.usesHall h && !s.hallAllowed wing h) then some 0
    else if j.sequences = 0 then some 32
    else if j.chunks = 0 then some 48
    else if j.beatCount = 0 then some 64
    else if j.layers = 0 then some 112
    else if j.adapters = 0 ∧ j.adapterTable ≠ 0 then some 320
    else match j.tables.find? (fun t => t.2.2 != 0 && !s.inWindow wing t.2.1 t.2.2) with
      | some t => some t.1
      | none => if seqs then some 192 else none

/-- A directory that the sequence table names breaks R320: sequence and layer. -/
def State.jobDirBad (s : State) (wing : Nat) (j : Job) : Option (Nat × Nat) :=
  ((List.range j.sequences).flatMap (fun q => (List.range j.layers).map (fun n => (q, n)))).find? (fun p =>
    s.dirBad wing (s.dirEntry j p.1 p.2) (s.layerWindow j p.2 != 0))

/-- Read what the check of a job reads, uncorrectable words once more (R643): the address of a word that stays so. -/
def State.jobReads (s : State) (wing : Nat) (xs : List Ext) : State × Option Nat :=
  xs.foldl (fun acc x => match acc.2 with
    | some _ => acc
    | none =>
      let r := acc.1.readTwice wing 3 x.1 x.2
      (r.1, if r.2 then (r.1.mem.firstBad x.1 x.2).map (8 * ·) else none)) (s, none)

/-- Begin a job on this package (R222, R232): remote flags reset (R212), the record checked; a failed check raises its code and the wing halts everywhere (R252). -/
def State.beginJob (s : State) (wing record start : Nat) : State :=
  let t := { s with work := { s.work with remote := s.work.remote.filter (fun e => e.1 / 64 != wing) } }
  let t := ((t.put (0x3100 + wing) 3 (start % 2 ^ 48)).put (0x3100 + wing) 2 0).put (0x3100 + wing) 4 0
  let fault := fun (t : State) (code : Nat) (d : List Byte) => t.raise code unitWing wing (some wing) d
  if !s.inWindow wing record 128 ∨ record % 64 ≠ 0 then fault t 0x3701 (leBytes 2 0)
  else
    let a := t.jobReads wing [(record, 128)]
    match a.2 with
    | some w => fault a.1 fSource (leBytes 8 w)
    | none =>
      let t := a.1
      let r := t.rd record 128
      let j := jobOfRecord r record start
      let xs := (j.tables.filter (fun x => x.1 == 192 || x.1 == 384)).map (fun x => (x.2.1, x.2.2))
      let ok := xs.all (fun x => t.inWindow wing x.1 x.2)
      let b := if ok then t.jobReads wing xs else (t, none)
      match b.2 with
      | some w => fault b.1 fSource (leBytes 8 w)
      | none => match b.1.jobBad wing j with
        | some f => fault b.1 0x3701 (leBytes 2 f)
        | none =>
          let d := b.1.jobReads wing ((List.range j.sequences).map (fun q => ((b.1.seqEntry j q).dir, 16 * j.layers)))
          match d.2 with
          | some w => fault d.1 fSource (leBytes 8 w)
          | none => match d.1.jobDirBad wing j with
            | some p => fault d.1 fBadDirectory (leBytes 2 p.1 ++ leBytes 1 p.2)
            | none => (d.1.setWing wing { d.1.wing wing with job := some j }).publishJob wing

/-! ### Acceptance (R231, R232) -/

/-- The waiting job that the wing's queues serve first (R507). -/
def Wing.nextJob (w : Wing) : Option Pending :=
  (w.waiting.filter (fun p => p.kind == 1)).foldl (fun b p => match b with
    | none => some p
    | some q => if p.order < q.order then some p else some q) none

/-- Images of the jobs that run on other wings. -/
def State.otherImages (s : State) (wing : Nat) : List Image :=
  (List.range 16).filterMap (fun w => if w = wing then none else match (s.wing w).job with
    | some j => s.image w j.image
    | none => none)

/-- The job's slots are free of the programs of other wings' jobs, and the broadcast channels suffice (R166, R231). -/
def State.jobFits (s : State) (wing : Nat) (i : Image) : Bool :=
  let os := s.otherImages wing
  (List.range 8).all (fun h =>
    (List.range 40).all (fun sl => !(i.uses h sl && os.any (fun o => o.uses h sl))) &&
    decide (i.wideGroups h + os.foldl (fun n o => n + o.wideGroups h) 0 ≤ 8))

/-- JOB_ACCEPT (R231, R232) on the anchor: the job runs from beat b + JOB_START_LEAD, and its start goes to every package. A job whose image is not loaded is accepted and fails its check. -/
def jobAccept (wing : Nat) (s : State) : State :=
  let w := s.wing wing
  match w.nextJob with
  | none => s
  | some p =>
    let handle := s.rdNat p.address 4
    let fits := match s.image wing handle with
      | some i => s.jobFits wing i
      | none => true
    if !s.isAnchor || s.wingState wing != 1 || w.job.isSome || w.running.isSome || !fits then s
    else
      let start := (s.beatNo + s.obj 0x6010 1) % 2 ^ 48
      let t := s.setWing wing { w with waiting := w.waiting.filter (· != p), running := some p }
      let t := t.courier none (.jobStart wing start handle p.address)
      (t.beginJob wing p.address start).publishJob wing

/-- JOB_ACCEPT (R231). -/
def execJobAccept (wing : Nat) (s : State) : Host.Outcome State Fault Refusal := .next (keepHost s (jobAccept wing s))

/-- JOB_START (R232): a package takes the anchor's job start. -/
def execJobStart (wing startBeat _image record : Nat) (s : State) : Host.Outcome State Fault Refusal :=
  .next (keepHost s (if s.wingState wing = 1 ∧ (s.wing wing).job = none then s.beginJob wing record startBeat else s))

/-- The job of a wing ends with a status and the code that ended it (R234, R509, R567): its completion on the anchor, JOB_STATE. -/
def State.endJob (s : State) (wing status code device : Nat) : State :=
  let w := s.wing wing
  let t := s.setWing wing { w with job := none, running := none }
  let t := match w.running with
    | some p => t.post wing p status (s.obj (0x3100 + wing) 3) (s.obj (0x3100 + wing) 2) (s.obj (0x3100 + wing) 4) code device
    | none => t
  t.publishJob wing

/-! ### The job beat (R225-R230) -/

/-- The job beat that a beat is, where it is one (R232). -/
def Job.beat (j : Job) (n : Nat) : Option Nat :=
  let d := (n + 2 ^ 48 - j.start) % 2 ^ 48
  if d < j.beatCount then some d else none

/-- The programs of a step in a hall: slot, offset, descriptors, MAX_REF. -/
def Image.programs (i : Image) (step hall : Nat) : List (Nat × Nat × Nat × Nat) :=
  (List.range 40).filterMap (fun sl => let p := i.program step hall sl
    if p.2.1 = 0 then none else some (sl, p.1, p.2.1, p.2.2))

/-- Every program of a step. -/
def Image.allPrograms (i : Image) (step : Nat) : List (Nat × Nat × Nat × Nat) := (List.range 8).flatMap (i.programs step)

/-- The field of a manifest row that fails its check (R228): 0 STEP, 1 CHUNK, 2 ENTRIES. -/
def rowBad (i : Image) (j : Job) (step chunk entries : Nat) : Option Nat :=
  if i.steps ≤ step then some 0
  else if j.chunks ≤ chunk then some 1
  else if (i.allPrograms step).any (fun p => p.2.2.2 != 0xFF && decide (entries ≤ p.2.2.2)) then some 2
  else none

/-- A segment breaks R225, R226 or the order of its global positions (R290), given where it must begin. -/
def State.segBad (s : State) (wing : Nat) (j : Job) (g : Seg) (start : Nat) : Bool :=
  g.first != start || g.rows == 0 || decide (4096 < g.first + g.rows) || decide (j.sequences ≤ g.seq) ||
    decide ((s.seqEntry j g.seq).length < g.pos + g.rows) || decide (64 < g.gcount) ||
    (if g.gcount = 0 then g.globals != 0 else !s.inWindow wing g.globals (4 * g.gcount)) ||
    ((s.globalsOf g).zip ((s.globalsOf g).drop 1)).any (fun p => decide (p.2 ≤ p.1)) ||
    (g.tokens != 0 && (g.tokens % 4 != 0 || !s.inWindow wing g.tokens (4 * g.rows)))

/-- The first bad segment of the chunk in force (R226), a second segment of one sequence among them (R290). -/
def State.firstBadSeg (s : State) (wing : Nat) (j : Job) : Option Nat :=
  let e := s.segDirEntry j j.chunk
  if !s.inWindow wing e.1 (32 * e.2) then some 0
  else
    let r := (s.segs j).foldl (fun (acc : Nat × List Nat × Option Nat) g => match acc.2.2 with
      | some _ => acc
      | none => if acc.2.1.contains g.seq || s.segBad wing j g acc.1 then (acc.1, [], some g.index)
        else (acc.1 + g.rows, g.seq :: acc.2.1, none)) (0, [], none)
    r.2.2

/-- A fault that the scheduler finds at an open (R228, R226, R172, R395): the wing's F3 record, and the beat does not pass. -/
def State.openFaulted (s : State) (wing code : Nat) (detail : List Byte) : State :=
  (s.failCheck (.fault wing code)).raise code unitWing wing (some wing) detail

/-- Latch and check the manifest row of a job beat (R228) and the segment table of its chunk (R226). A row or table with an uncorrectable word is not acted on: the beat's check has failed (R394, R643). -/
def State.latchRow (s : State) (wing : Nat) (j : Job) (i : Image) (n : Nat) : State :=
  let row := j.manifest + 1088 * n
  let entries := s.rdNat (row + 6) 1
  match s.sourceBad row (16 + 4 * entries) with
  | some w => (s.sourceAgain w).openFaulted wing fSource (leBytes 8 (8 * w))
  | none =>
   let t := (s.touch .beat row (16 + 4 * entries)).accessed (stackOf row) (wingOwner wing) [(row, 16 + 4 * entries)]
   if (s.mem.firstBad row (16 + 4 * entries)).isSome then t
   else
    let step := t.rdNat row 4
    let chunk := t.rdNat (row + 4) 2
    match rowBad i j step chunk entries with
    | some f => t.openFaulted wing fBadManifest (leBytes 4 n ++ leBytes 1 f)
    | none =>
      let j := { j with step := step, chunk := chunk, lengths := (List.range entries).map (fun e => t.rdNat (row + 16 + 4 * e) 4) }
      let xs := t.segReads j
      let xs := xs ++ ((t.segs j).filter (fun g => g.gcount != 0 && t.inWindow wing g.globals (4 * g.gcount))).map (fun g => (g.globals, 4 * g.gcount))
      match xs.findSome? (fun x => t.sourceBad x.1 x.2) with
      | some w => (t.sourceAgain w).openFaulted wing fSource (leBytes 8 (8 * w))
      | none =>
        let t := (t.uptoBad xs).foldl (fun t x => (t.touch .beat x.1 x.2).accessed (stackOf x.1) (wingOwner wing) [x]) t
        if xs.any (fun x => (t.mem.firstBad x.1 x.2).isSome) then t else
        match t.firstBadSeg wing j with
        | some k => t.openFaulted wing 0x3703 (leBytes 2 chunk ++ leBytes 2 k)
        | none => t.setWing wing { t.wing wing with job := some { j with rows := (coveredRows (t.segs j)).getD 0, opened := true } }

/-- The stage group of a slot in a step (R230, R165): its number, members, offset, region; a slot in no group is one of its own. -/
def Image.groupOf (i : Image) (step hall slot : Nat) : Nat × List Nat × Nat × Nat × Nat :=
  match (List.range 16).findSome? (fun g => match i.groupRec step hall g with
    | some r => if bitOf r.1 slot then some (g, r) else none
    | none => none) with
  | some (g, r) => (g, setBitsOf 40 r.1, r.2.1, r.2.2.1, r.2.2.2)
  | none => (16, [slot], 0, 0, 0)

/-- The sequencer of a slot at the open of a job beat (R233). -/
def Image.seqOf (i : Image) (wing step hall slot off n : Nat) : Seq :=
  let g := i.groupOf step hall slot
  { wing := wing, program := (List.range n).map (fun k => leAt i.bytes (off + 64 * k) 64), status := .waiting, leader := g.2.1.headD slot
    members := g.2.1, group := g.1, offset := g.2.2.1, region := g.2.2.2.1, regionSize := g.2.2.2.2 }

/-- Clear a physical core's row statistics for a beat: undefined (R162), or +0 at a job's first beat (R614). -/
def State.openCore (s : State) (hall core : Nat) (first : Bool) : State :=
  if first then s.setCore hall core { s.core hall core with rowstat := [], rsDraw := 0 }
  else State.setCore { s with free := s.free + 1 } hall core { s.core hall core with rowstat := [], rsDraw := s.free + 1 }

/-- Give each bound slot its program (R233). At the job's first beat the buffers of all its slots are cleared (R390, R614). An unbound slot's program is never issued, and its wing faults (R172). -/
def State.loadPrograms (s : State) (wing : Nat) (j : Job) (i : Image) (first : Bool) : State :=
  let ps := (List.range 8).flatMap (fun h => (i.programs j.step h).map (fun p => (h, p)))
  match ps.find? (fun p => (s.coreOf p.1 p.2.1).isNone) with
  | some p => s.openFaulted wing 0x3501 (leBytes 1 p.1 ++ leBytes 1 p.2.1)
  | none =>
    let used := if first then (List.range 8).flatMap (fun h => ((List.range 40).filter (i.uses h)).map (fun sl => (h, sl))) else []
    let t := used.foldl (fun t u => match t.coreOf u.1 u.2 with
      | some c => State.openCore { t with mem := t.mem.unwrite (coreAddr u.1 c) (coreAddr u.1 c + coreSize) } u.1 c true
      | none => t) s
    ps.foldl (fun t p =>
      let t := if first then t else t.openCore p.1 ((t.coreOf p.1 p.2.1).getD 63) false
      t.setSeq p.1 p.2.1 (i.seqOf wing j.step p.1 p.2.1 p.2.2.1 p.2.2.2.1)) t

/-- The wing's programs run in the beat: its state is running or stopping, and no fault waits to make it fatal (R68, R559). -/
def State.wingRuns (s : State) (w : Nat) : Bool := (s.wingState w == 1 || s.wingState w == 2) && (s.wing w).fatal.isNone

/-- Open a job's beat on a wing: its row, then its programs. -/
def State.openWing (s : State) (n wing : Nat) : State := match (s.wing wing).job with
  | none => s
  | some j0 =>
    let j0 := { j0 with opened := false }
    let s := s.setWing wing { s.wing wing with job := some j0 }
    match j0.beat n, s.image wing j0.image with
    | some b, some i =>
      if !s.wingRuns wing then s
      else
        let t := s.latchRow wing j0 i b
        match (t.wing wing).job with
        | some j => if j.opened then t.loadPrograms wing j i (b == 0) else t
        | none => t
    | _, _ => s

/-- Reserve folios for the beat's appends in the order of R325 (R328): every chain with K, at rank 0 where it is group-wide. -/
def State.reserveAll (s : State) : State :=
  ((s.work.seqs.flatMap (fun e => (e.2.program.zipIdx).map (fun d => (⟨e.1 / 64, e.1 % 64, e.2.wing, d.2, d.1⟩ : Ctx)))).foldl (fun (acc : State × Bool) c =>
    let q := acc.1.seq c.hall c.slot
    if acc.2 || !appendCode c.desc || q.status == .stopped || (c.group && q.leader != c.slot) then acc
    else match acc.1.reserveChain c with
      | .ok u => (u, false)
      | .error f => (acc.1.descFault c f, true)) (s, false)).1

end Sys2Proof.Machine
end

