-- ==== Sys2Proof/Machine/Power.lean ====
section
/-! DEFINITION. Power and thermal control (17_power_thermal.md): the power figure of a window (R526, R527), calibration and divergence (R528-R532), operating points and PHASE (R533-R537), limits and shares (R538-R543), attribution of energy (R544, R545), temperature and coolant (R548-R552). Divisions round down (log entry 66). -/

namespace Sys2Proof.Machine

open Sys2Proof

/-! ### The power figure (R526, R527) -/

/-- A power domain is on (R17): the eight fabric domains (520 to 527) whenever the package is powered (R12), the others while they are switched on. -/
def State.domainOn (s : State) (k : Nat) : Bool :=
  if 520 ≤ k ∧ k < 528 then s.pins.vddSys else mget 0 s.cur.domains k == 1

/-- The operating point in use of a hall. -/
def State.point (s : State) (hall : Nat) : Nat := s.obj (0x4110 + hall) 1

/-- The coefficient of an event kind in fJ (R527). -/
def State.eventFj (s : State) (kind : Nat) : Nat :=
  let v := s.objUsed 0x4000 (kind + 1)
  if kind < 3 then v else 1000 * v

/-- Events of kinds 0 to 4 are hall events, scaled by the square of the voltage over that of point 11. -/
def scaleV (e point : Nat) : Nat := e * pointMv point * pointMv point / (pointMv 11 * pointMv 11)

/-- Energy of n events of a kind in a unit, in fJ. -/
def State.eventsFj (s : State) (unit kind n point : Nat) : Nat :=
  if unit < 8 ∧ kind < 5 then scaleV (n * s.eventFj kind) point else n * s.eventFj kind

/-- A power in mW over a 10 µs window, in fJ. -/
def mwWindow (mw : Nat) : Nat := mw * 10000000

/-- The static term of a hall: with any core domain on, scaled by the fused leakage curve (R527). -/
def State.hallStatic (s : State) (hall point : Nat) : Nat :=
  if (List.range 42).any (fun c => s.domainOn (64 * hall + c)) then
    mwWindow (s.objUsed 0x4000 8) * (Config.leakage (pointMv point) (sext 16 (s.obj (0x4110 + hall) 4)) % 65536) / 4096
  else 0

/-- The static terms that no point scales. -/
def State.otherStatic (s : State) : Nat :=
  let n := fun (lo k : Nat) => ((List.range k).filter (fun i => s.domainOn (lo + i))).length
  mwWindow (n 520 8 * s.objUsed 0x4000 9 + n 528 8 * s.objUsed 0x4000 0xA + n 536 16 * s.objUsed 0x4000 0xB + s.objUsed 0x4000 0xC)

/-- The raw estimate over some windows: the counts of the units, each hall at a point (R527). -/
def State.estimate (s : State) (counts : NMap) (windows : Nat) (point : Nat → Nat) : Nat :=
  counts.foldl (fun e x => e + s.eventsFj (x.1 / 16) (x.1 % 16) x.2 (point (x.1 / 16))) 0 +
    windows * (((List.range 8).foldl (fun e h => e + s.hallStatic h (point h)) 0) + s.otherStatic)

/-- P of an estimate over some windows (R529-R532). -/
def State.figure (s : State) (e windows : Nat) : Nat :=
  let p := s.power.gain * e / 65536
  let p := if s.power.lost then 11 * p / 10 else p
  if s.obj 0x4140 5 = 0 then p else max p (windows * s.power.measured * 11000000000)

/-- The counts of a window as they would be at other points: a hall's events but flits go at its clock (R539, its example). -/
def State.countsAt (s : State) (counts : NMap) (point : Nat → Nat) : NMap :=
  counts.map (fun x => if x.1 / 16 < 8 ∧ x.1 % 16 < 6 then (x.1, x.2 * pointFreq (point (x.1 / 16)) / max 1 (pointFreq (s.point (x.1 / 16)))) else x)

/-- P that the model predicts for some windows' counts at other points. -/
def State.predict (s : State) (counts : NMap) (windows : Nat) (point : Nat → Nat) : Nat :=
  s.figure (s.estimate (s.countsAt counts point) windows point) windows

/-- The effective limit in W (R538). -/
def State.effectiveLimit (s : State) : Nat := min (s.obj 0x4120 3) (s.obj 0x4120 9)

/-- A power in W over a 10 µs window, in fJ. -/
def wattWindow (w : Nat) : Nat := w * 10000000000

/-! ### Operating points (R533-R537, R540) -/

/-- A slot's sequencer is running its beat program. -/
def Seq.runs_ (q : Seq) : Bool := q.status == .running

/-- The requested point of a hall (R536, R540). -/
def State.requested (s : State) (hall : Nat) : Nat :=
  if s.objUsed 0x4120 1 = 1 then s.objUsed 0x4120 2
  else
    let ps := (List.range 40).filterMap (fun sl => let q := s.seq hall sl
      if q.runs_ then some (s.obj 0x4130 (q.phase + 1)) else none)
    if ps = [] then s.obj 0x4120 5 else ps.foldl max 0

/-- Boosting is stopped for the whole package (R530-R532, R537, R540). -/
def State.noBoost (s : State) : Bool := s.objUsed 0x4120 1 == 1 || s.obj 0x4140 5 != 0 || s.power.lost

/-- A hall may run a boost point: 5 °C below THROTTLE_TEMP, and the model keeps P within the limit (R537). -/
def State.mayBoost (s : State) (hall p : Nat) : Bool :=
  !s.noBoost && decide (sext 16 (s.obj (0x4110 + hall) 4) + 50 ≤ sext 16 (s.obj 0x4200 1)) &&
    decide (s.predict s.power.counts 1 (fun h => if h = hall then p else s.point h) ≤ wattWindow s.effectiveLimit)

/-- The point of R535, with the caps of R543, R551 and the floor that a sparing needs (R560). -/
def State.pointOf (s : State) (hall : Nat) : Nat :=
  let p := min (min (s.requested hall) (s.obj 0x4120 6)) (s.obj (0x4110 + hall) 3)
  let p := if s.obj 0x4140 5 = 2 then min p (s.obj 0x4120 5) else p
  let p := match s.power.cap with
    | some c => min p c
    | none => p
  let p := if 11 < p then (((List.range (p - 11)).reverse.map (· + 12)).find? (s.mayBoost hall)).getD 11 else p
  if s.cur.sparing.any (fun x => x.hall == hall) then max p 3 else p

/-- Change a hall's point (R534): down at once, the voltage after; up with the voltage first. -/
def State.movePoint (s : State) (hall p : Nat) : State :=
  let now := s.point hall
  let t := { s with power := { s.power with target := mset 0 s.power.target hall (if now < p then p + 1 else 0) } }
  if p < now then (t.put (0x4110 + hall) 1 p).send (.vout hall (pointMv p))
  else if now < p then (if mget 0 s.power.target hall = p + 1 then t else t.send (.vout hall (pointMv p)))
  else if mget 0 s.power.target hall = 0 then t else t.send (.vout hall (pointMv p))

/-- Evaluate a hall's point (R535). -/
def State.evaluatePoint (s : State) (hall : Nat) : State :=
  let t := s.put (0x4110 + hall) 2 (s.requested hall)
  let t := t.movePoint hall (t.pointOf hall)
  if t.objUsed 0x4120 1 = 1 ∧ t.point hall < t.objUsed 0x4120 2 then { t with power := { t.power with departed := true } } else t

/-- Evaluate every hall's point. -/
def State.evaluatePoints (s : State) : State := (List.range 8).foldl State.evaluatePoint s

/-- PHASE (R215, R535): the slot's phase, then every hall's operating point. -/
def phase (hall slot : Nat) (s : State) : State :=
  s.onDesc hall slot (fun c => c.op == 0x2C) (fun t c => (t.phaseDesc c).evaluatePoints)

/-- PHASE (R215). -/
def execPhase (hall slot : Nat) (s : State) : Host.Outcome State Fault Refusal := .next (keepCompute s (phase hall slot s))

/-- In fixed-frequency mode some hall runs below FIXED_POINT (R540). -/
def State.departs (s : State) : Bool := s.objUsed 0x4120 1 == 1 && (List.range 8).any (fun h => decide (s.point h < s.objUsed 0x4120 2))

/-- VOLTAGE_SETTLED (R534): within 10 mV of the raised voltage, the clock changes. -/
def voltageSettled (hall mv : Nat) (s : State) : State :=
  let g := mget 0 s.power.target hall
  if g = 0 ∨ mv + 10 < pointMv (g - 1) ∨ pointMv (g - 1) + 10 < mv then s
  else State.put { s with power := { s.power with target := mset 0 s.power.target hall 0, departed := s.power.departed || s.departs } } (0x4110 + hall) 1 (g - 1)

/-- VOLTAGE_SETTLED (R534). -/
def execVoltageSettled (hall millivolts : Nat) (s : State) : Host.Outcome State Fault Refusal := .next (keepPower s (voltageSettled hall millivolts s))

/-! ### Attribution (R544, R545) -/

/-- Add energy to an account of a wing. -/
def addEnergy (m : NMap) (k n : Nat) : NMap := mset 0 m k (mget 0 m k + n)

/-- The unassigned energy's key. -/
def unassignedKey : Nat := 2 ^ 20

/-- The accounts of the descriptors that run in a hall: wing × 65,536 + tag, one for each running slot. -/
def State.runningAccounts (s : State) (hall : Nat) : List Nat :=
  (List.range 40).filterMap (fun sl => let q := s.seq hall sl
    if q.runs_ then (q.program[q.pos]?).map (fun d => q.wing * 65536 + bits d 31 16) else none)

/-- Attribute a window's energy p to those that caused its raw estimate e (R544); a hall's static term goes in equal parts to its running descriptors (log entry 67). -/
def State.attribute (s : State) (e p : Nat) : State :=
  let part := fun (x : Nat) => if e = 0 then 0 else x * p / e
  let m := s.power.attributed.foldl (fun m x =>
    let hall := x.1 / 8 / 65536 / 16
    addEnergy m (x.1 / 8 % 2 ^ 20) (part (s.eventsFj hall (x.1 % 8) x.2 (s.point hall)))) s.power.energy
  let m := (List.range 8).foldl (fun m h =>
    let l := s.runningAccounts h
    l.foldl (fun m k => addEnergy m k (part (s.hallStatic h (s.point h)) / l.length)) m) m
  let given := m.foldl (fun a x => if x.1 = unassignedKey then a else a + x.2) 0 - s.power.energy.foldl (fun a x => if x.1 = unassignedKey then a else a + x.2) 0
  let m := addEnergy m unassignedKey (p - given)
  let t := { s with power := { s.power with energy := m } }
  let t := (List.range 16).foldl (fun (t : State) w =>
    let u := (m.filter (fun x => x.1 / 65536 == w)).foldl (fun a x => a + x.2) 0 / 1000000000
    if u = t.obj (0xC300 + w) 1 then t else t.setObj (0xC300 + w) 1 (u % 2 ^ 64)) t
  t.setObj 0xC310 1 (mget 0 m unassignedKey / 1000000000 % 2 ^ 64)

/-- ACCOUNT_ENERGY of a wing: 65,536 U64 entries in µJ (R545), by byte offset. -/
def State.accountBytes (s : State) (wing off n : Nat) : List Byte :=
  slice (((List.range (n / 8 + 2)).map (· + off / 8)).flatMap (fun tag => leBytes 8 (mget 0 s.power.energy (wing * 65536 + tag % 65536) / 1000000000))) (off % 8) n

/-! ### The window (R535, R538, R539) -/

/-- POWER_WINDOW: the figure, the peak test, attribution and the points. -/
def powerWindow (s : State) : State :=
  let e := s.estimate s.power.counts 1 s.point
  let p := s.figure e 1
  let t := s.attribute e p
  let t := { t with power := { t.power with
    rawSum := t.power.rawSum + e, powSum := t.power.powSum + p, windows := t.power.windows + 1
    msCounts := t.power.counts.foldl (fun (m : NMap) (x : Nat × Nat) => addEnergy m x.1 x.2) t.power.msCounts } }
  let t := t.put 0x4140 1 (min (p / 10000000000) 65535)
  let t := if wattWindow (t.obj 0x4120 4) < p then
      (t.put 0x4120 6 (max (t.obj 0x4120 6 - 2) (min (t.obj 0x4120 6) (t.obj 0x4120 5)))).count 0xC310 6 1
    else t
  let t := t.evaluatePoints
  let t := { t with power := { t.power with counts := [], attributed := [] } }
  t.count 0xC310 4 (10 * ((List.range 8).filter (fun h => decide (11 < t.point h))).length)

/-- POWER_WINDOW (R535). -/
def execPowerWindow (s : State) : Host.Outcome State Fault Refusal := .next (keepPower s (powerWindow s))

/-! ### Calibration (R528-R532, R539) -/

/-- Regulator i is included (R554). -/
def State.included (s : State) (i : Nat) : Bool := bitOf (s.obj 0x4010 (i + 1)) 16

/-- Take the readings of the included regulators (R528, R530). -/
def State.takePout (s : State) (rs : List (Option Nat)) : State :=
  let is := (List.range 24).filter s.included
  let good := fun (i : Nat) => match rs[i]? with
    | some (some _) => true
    | _ => false
  let t := is.foldl (fun (t : State) i => match rs[i]? with
    | some (some v) => { t with power := { t.power with lastPout := mset 0 t.power.lastPout i v, failed := mset 0 t.power.failed i 0 } }
    | _ =>
      let n := mget 0 t.power.failed i + 1
      let u := { t with power := { t.power with failed := mset 0 t.power.failed i n } }
      if n = 50 ∧ u.power.lost = false then
        State.raise { u with power := { u.power with lost := true, goodMs := 0 } } 0x0403 unitPackage 0 none
          (leBytes 1 (bits (u.obj 0x4010 (i + 1)) 7 7) ++ leBytes 1 (bits (u.obj 0x4010 (i + 1)) 6 0))
      else u) s
  let n := if is.all good then t.power.goodMs + 1 else 0
  { t with power := { t.power with measured := is.foldl (fun m i => m + mget 0 t.power.lastPout i) 0, goodMs := n
                                   lost := t.power.lost && decide (n < 50) } }

/-- The gain after a measurement (R529), g in units of 1/65,536, clamped to 0.80-1.20. -/
def newGain (g m e : Nat) : Nat :=
  if e = 0 then g
  else
    let r : Int := (m * 1000000000000 * 65536 / e : Nat)
    min 78643 (max 52429 ((g : Int) + (r - g) / 16).toNat)

/-- The counts of comparisons after one more (R531, R532): beyond 15%, beyond 30%, within 15%. -/
def State.compared (s : State) (e : Nat) : State :=
  let m := s.power.measured * 1000000000000
  let d := if e ≤ m then m - e else e - m
  let a := decide (15 * m < 100 * d)
  let b := decide (30 * m < 100 * d)
  { s with power := { s.power with
    over15 := if a then s.power.over15 + 1 else 0, over30 := if b then s.power.over30 + 1 else 0
    within15 := if a then 0 else s.power.within15 + 1 } }

/-- DIVERGENCE_STATE changes, with its record. -/
def State.diverge (s : State) (e state code : Nat) : State :=
  (s.put 0x4140 5 state).raise code unitPackage 0 none (leBytes 4 (e / 1000000000000) ++ leBytes 4 s.power.measured)

/-- Compare E₁ with M (R531, R532): the warning after 50 comparisons beyond 15%, the fault after 50 beyond 30%, each with its record; the warning clears after 1,000 within 15%. -/
def State.compare (s : State) (e : Nat) : State :=
  if s.power.lost then s
  else
    let t := s.compared e
    let t := if 50 ≤ t.power.over15 ∧ t.obj 0x4140 5 = 0 then t.diverge e 1 0x0401 else t
    if 50 ≤ t.power.over30 ∧ t.obj 0x4140 5 ≠ 2 then t.diverge e 2 0x0402
    else if 1000 ≤ t.power.within15 ∧ t.obj 0x4140 5 = 1 then t.put 0x4140 5 0
    else t

/-- The package ceiling at each millisecond (R539). -/
def State.stepCeiling (s : State) : State :=
  let w := max 1 s.power.windows
  let limit := wattWindow s.effectiveLimit * w
  let c := s.obj 0x4120 6
  let floor := s.obj 0x4120 5
  if limit < s.power.powSum then
    if floor < c then State.put { s with power := { s.power with unreachMs := 0 } } 0x4120 6 (c - 1)
    else
      let n := s.power.unreachMs + 1
      let t := { s with power := { s.power with unreachMs := n } }
      if n % 1000 = 0 then t.raise 0x0406 unitPackage 0 none (leBytes 4 (s.power.powSum / w / 10000000000) ++ leBytes 4 s.effectiveLimit) else t
  else
    let t := { s with power := { s.power with unreachMs := 0 } }
    if c < 15 ∧ t.predict t.power.msCounts w (fun h => if t.point h = c then c + 1 else t.point h) ≤ limit then t.put 0x4120 6 (c + 1) else t

/-- The millisecond's slack and ceilings, kept for the move of shares at the next seal (R542, R543). -/
def State.closeSlack (s : State) : State :=
  let ms := s.beat.slackCount.map (fun x => (x.1, mget 0 s.beat.slackSum x.1 / max 1 x.2 + 1))
  let t := { s with
    power := { s.power with msSlack := ms, msCeiling := s.beat.ceilings.foldl (fun (m : Nat) (x : Nat × Nat) => min m x.2) 15, moveDue := true }
    beat := { s.beat with slackSum := [], slackCount := [], ceilings := [] } }
  t.setObj 0x4120 0xA ((mget 1 ms t.device - 1) % 2 ^ 32)

/-- POWER_CALIBRATION: once every millisecond. -/
def powerCalibration (rs : List (Option Nat)) (s : State) : State :=
  let t := s.takePout rs
  let e := t.power.rawSum
  let t := { t with power := { t.power with gain := newGain t.power.gain t.power.measured e } }
  let t := ((t.put 0x4140 2 (min (e / 1000000000000) 65535)).put 0x4140 3 (min t.power.measured 65535)).put 0x4140 4 (t.power.gain / 16)
  let t := (t.compare e).stepCeiling.closeSlack
  { t with mem := { t.mem with noted := [] }
           power := { t.power with rawSum := 0, powSum := 0, windows := 0, msCounts := [], msTick := t.power.msTick + 1 } }

/-- POWER_CALIBRATION (R529). -/
def execPowerCalibration (readings : List (Option Nat)) (s : State) : Host.Outcome State Fault Refusal :=
  .next (keepPower s (powerCalibration readings s))

/-- DIVERGENCE_CLEAR (R532): the result code of the write, and its effect. -/
def State.divergenceClear (s : State) (v : Nat) : State × Nat :=
  if v ≠ 1 then (s, rcRange)
  else if s.power.within15 < 50 then (s, rcConflict)
  else (s.put 0x4140 5 0, rcOk)

/-! ### Power across packages (R541-R543) -/

/-- A share as a package applies it: clipped to its own POWER_LIMIT; without one, POWER_LIMIT. -/
def State.applyShare (s : State) (w : Option Nat) (cap : Option Nat) : State :=
  let t := { s with power := { s.power with share := w, cap := cap } }
  t.setObj 0x4120 9 (min (w.getD (t.obj 0x4120 3)) (t.obj 0x4120 3))

/-- Shares that name the beat under way apply at its open. -/
def State.applyComing (s : State) (n : Nat) : State := match s.power.coming with
  | some (b, l, cap) =>
    if (n + 2 ^ 48 - b) % 2 ^ 48 < 2 ^ 47 then
      State.applyShare { s with power := { s.power with coming := none } } (l[s.device]?) cap
    else s
  | none => s

/-- SHARE_UPDATE (R542): a package takes the master's shares, by device id; none where GROUP_BUDGET is 0. -/
def execShareUpdate (beat : Nat) (shares : List Nat) (cap : Option Nat) (s : State) : Host.Outcome State Fault Refusal :=
  .next (keepPower s { s with power := { s.power with coming := some (beat, shares, cap) } })

/-- The shares the master gives next (R541-R543), by device id, with the common cap. Moves keep the sum: where it is not the members' equal shares, the budget or the members have changed, and the shares start anew (R541, log entry 106). -/
def State.nextShares (s : State) : List Nat × Option Nat :=
  let budget := s.obj 0x4120 7
  let ms := s.members
  let equal := min (budget / max 1 ms.length) (s.obj 0x4120 3)
  let common := s.obj 0x4120 8 == 1 || ms.any (fun d => mget 0 s.power.msSlack d == 0)
  let cap := if common then some s.power.msCeiling else none
  if budget = 0 then ([], cap)
  else if common then (List.replicate 64 (budget / max 1 ms.length), cap)
  else
    let sum := ms.foldl (fun a d => a + (s.power.sent.1[d]?).getD 0) 0
    let now := if sum = ms.length * equal then s.power.sent.1 else List.replicate 64 equal
    let slack := fun (d : Nat) => mget 1 s.power.msSlack d - 1
    let giver := ms.foldl (fun (b : Nat) d => if slack b < slack d then d else b) (ms.headD 0)
    let taker := ms.foldl (fun (b : Nat) d => if slack d < slack b then d else b) (ms.headD 0)
    let g := (now[giver]?).getD 0
    let k := (now[taker]?).getD 0
    if slack taker + 500 < slack giver ∧ 1225 ≤ g ∧ k + 25 ≤ s.obj 0x4120 3 then ((now.set giver (g - 25)).set taker (k + 25), none) else (now, none)

/-- At the first seal after each millisecond the master moves shares and sends them for the next beat (R542). -/
def State.balance (s : State) : State :=
  if !s.power.moveDue then s
  else
    let t := { s with power := { s.power with moveDue := false } }
    if !t.isMaster then t
    else
      let x := t.nextShares
      if x = t.power.sent then t
      else
        let b := (t.beatNo + 1) % 2 ^ 48
        State.courier { t with power := { t.power with sent := x, coming := some (b, x.1, x.2) } } none (.shares b x.1 x.2)

/-- A report of slack or of none, with the ceiling (R542). -/
def State.takeSlack (s : State) (device slack ceiling : Nat) : State :=
  { s with beat := { s.beat with
    slackSum := addEnergy s.beat.slackSum device slack
    slackCount := addEnergy s.beat.slackCount device 1
    ceilings := mput s.beat.ceilings device (min ceiling (mget 15 s.beat.ceilings device)) } }

/-- FIXED_DEPARTURES at the end of a beat (R540). -/
def State.closeDeparture (s : State) : State :=
  if !(s.power.departed || s.departs) then s
  else
    let t := { s with power := { s.power with departed := false } }
    let t := t.count 0xC310 3 1
    let due := match t.power.departAt with
      | some m => decide (m + 1000 ≤ t.power.msTick)
      | none => true
    if due then
      let low := (List.range 8).foldl (fun a h => if t.point h < t.objUsed 0x4120 2 then a + 2 ^ h else a) 0
      State.raise { t with power := { t.power with departAt := some t.power.msTick } } 0x0405 unitPackage 0 none
        (leBytes 1 low ++ (List.range 8).flatMap (fun h => leBytes 1 (t.point h)))
    else t.withhold 0x0405

/-! ### Temperature (R548-R550) -/

/-- SENSOR_READ (R548): temperatures in 0.1 °C; the hottest of a hall counts its stack. -/
def sensorRead (temps hbmStacks : List Int) (s : State) : State :=
  let t := { s with doms := mset [] s.doms (objKey 0x4200 3) (fitBytes 256 (temps.flatMap (fun x => leBytes 2 (twos 16 x)))) }
  (List.range 8).foldl (fun t h =>
    let xs := (temps.drop (13 * h)).take 13 ++ (hbmStacks.drop h).take 1
    match xs with
    | [] => t
    | x :: rest => t.setObj (0x4110 + h) 4 (twos 16 (rest.foldl max x))) t

/-- Power control and its domain object SENSOR_TEMPS. -/
def keepSensor (s t : State) : State := { keepPower s t with doms := t.doms }

/-- SENSOR_READ (R548). -/
def execSensorRead (temperatures hbmStacks : List Int) (s : State) : Host.Outcome State Fault Refusal :=
  .next (keepSensor s (sensorRead temperatures hbmStacks s))

/-- The hottest sensor of a hall by number; the stack's readout is not numbered (0xFF). -/
def State.hotSensor (s : State) (hall : Nat) : Nat :=
  let bs := mget [] s.doms (objKey 0x4200 3)
  let v := s.obj (0x4110 + hall) 4
  match (List.range 13).find? (fun i => leAt bs (2 * (13 * hall + i)) 2 == v) with
  | some i => 13 * hall + i
  | none => 0xFF

/-- THERMAL_CEILING_STEP (R549): one point down while hot, one up once 3 °C below. -/
def thermalStep (hall : Nat) (s : State) : State :=
  let hot := sext 16 (s.obj (0x4110 + hall) 4)
  let lim := sext 16 (s.obj 0x4200 1)
  let c := s.obj (0x4110 + hall) 3
  if lim ≤ hot then
    if c = 0 then s
    else
      let t := (s.put (0x4110 + hall) 3 (c - 1)).count 0xC310 2 1
      let at_ := mget 0 t.power.throttleAt hall
      if at_ = 0 ∨ at_ - 1 + 1000 ≤ t.power.msTick then
        State.raise { t with power := { t.power with throttleAt := mset 0 t.power.throttleAt hall (t.power.msTick + 1) } } 0x0404 unitHall hall none
          (leBytes 1 hall ++ leBytes 1 (s.hotSensor hall) ++ leBytes 2 (s.obj (0x4110 + hall) 4))
      else t.withhold 0x0404
  else if hot + 30 ≤ lim ∧ c < 15 then s.put (0x4110 + hall) 3 (c + 1)
  else s

/-- THERMAL_CEILING_STEP (R549). -/
def execThermalCeilingStep (hall : Nat) (s : State) : Host.Outcome State Fault Refusal := .next (keepPower s (thermalStep hall s))

/-- THERMAL_TRIP (R550): THERMTRIP_N low, every hall and engine clock and forwarding stop, the F4 record, LAST_TRIP on its way to flash. -/
def thermalTrip (sensor : Nat) (temp : Int) (s : State) : State :=
  if temp < sext 16 (s.obj 0x4200 2) ∨ s.pins.thermtripN = false then s
  else
    let v := sensor % 128 + 128 + twos 16 temp * 65536
    let t := { s with pins := { s.pins with thermtripN := false }, cur := { s.cur with hallsStopped := true }
                      torus := { s.torus with forwarding := false } }
    (((t.send (.pin "THERMTRIP_N" false)).setObj 0x4200 6 v).persist 0x4200 6 v).raise 0x4401 unitPackage 0 none
      (leBytes 1 sensor ++ leBytes 2 (twos 16 temp))

/-- THERMAL_TRIP (R550). -/
def execThermalTrip (sensor : Nat) (temperature : Int) (s : State) : Host.Outcome State Fault Refusal :=
  .next (keepQueue s { thermalTrip sensor temperature s with sec := s.sec })

/-! ### Coolant (R551, R552, R634) -/

/-- The pin alone. -/
def keepPin (s t : State) : State := { s with pins := { s.pins with coolantOk := t.pins.coolantOk, coolantSeen := t.pins.coolantSeen, coolantLow := t.pins.coolantLow } }

/-- COOLANT_OK_FALL (R551): a low counts only once the pin has been high (R634). -/
def execCoolantOkFall (s : State) : Host.Outcome State Fault Refusal :=
  .next (keepPin s { s with pins := { s.pins with coolantOk := false, coolantLow := s.pins.coolantSeen } })

/-- COOLANT_OK_RISE (R634): the stop is armed; a low that ended within 10 µs is forgotten. -/
def execCoolantOkRise (s : State) : Host.Outcome State Fault Refusal :=
  .next (keepPin s { s with pins := { s.pins with coolantOk := true, coolantSeen := true, coolantLow := false } })

/-- COOLANT_STOP (R551): the low is confirmed; every hall clock stops and the beat under way fails its verdict. -/
def coolantStop (s : State) : State :=
  if s.pins.coolantLow = false ∨ s.power.coolStop then s
  else
    let t := { s with cur := { s.cur with hallsStopped := true }, power := { s.power with coolStop := true, coolBeat := s.beatNo } }
    let t := t.failCheck .coolant
    if t.obj 0xA100 3 = 2 then { t with cur := { t.cur with testStatus := 7 } } else t

/-- COOLANT_STOP (R551). -/
def execCoolantStop (s : State) : Host.Outcome State Fault Refusal := .next (keepPower s (coolantStop s))

/-- A wing's job gives a program to some slot of this package. -/
def State.workHere (s : State) (w : Nat) : Bool := match (s.wing w).job with
  | some j => match s.image w j.image with
    | some i => (List.range 8).any (fun h => (List.range 40).any (i.uses h))
    | none => false
  | none => false

/-- HBM_SELF_REFRESH_ENTERED (R551): the stacks keep their contents; COOLANT_STATE, and COOLANT_STOP for each wing with work here. -/
def selfRefreshEntered (s : State) : State :=
  if !s.power.coolStop || s.mem.selfRefresh then s
  else
    let t := State.put { s with mem := { s.mem with selfRefresh := true } } 0x4200 4 1
    ((List.range 16).filter t.workHere).foldl (fun t w => t.raise 0x3401 unitWing w (some w) (leBytes 6 t.power.coolBeat)) t

/-- HBM_SELF_REFRESH_ENTERED (R551). -/
def execHbmSelfRefreshEntered (s : State) : Host.Outcome State Fault Refusal := .next (keepPower s (selfRefreshEntered s))

/-- COOLANT_COMMAND (R552): accepted when COOLANT_OK has been high for 1 s (`highFor` in µs) and every hall sensor is below THROTTLE_TEMP. -/
def State.coolantCommand (s : State) (v highFor : Nat) : State × Nat :=
  if v ≠ 1 then (s, rcRange)
  else if s.pins.coolantOk = false ∨ highFor < 1000000 ∨
      (List.range 8).any (fun h => decide (sext 16 (s.obj 0x4200 1) ≤ sext 16 (s.obj (0x4110 + h) 4))) then (s, rcConflict)
  else
    let t := { s with mem := { s.mem with selfRefresh := false }, power := { s.power with coolStop := false, target := [] }
                      cur := { s.cur with hallsStopped := s.cur.hallsStopped && s.obj 0x5000 8 != 0 } }
    let t := (List.range 8).foldl (fun t h => (t.setObj (0x4110 + h) 1 (t.obj 0x4120 5)).send (.vout h (pointMv (t.obj 0x4120 5)))) t
    (t.put 0x4200 4 0, rcOk)

end Sys2Proof.Machine
end

