-- ==== Sys2Proof/Machine/Beat.lean ====
section
/-! DEFINITION. The beat (03_beat.md): boundaries and the open of a beat (R69-R72, R80, R89, R90), the master, its markers and elections (R73-R79), READY and NOT_READY (R82), the decision, stretches and overruns (R93-R95). The seal is in Seal.lean. -/

namespace Sys2Proof.Machine

open Sys2Proof

/-! ### The open of a beat -/

/-- A ring at the open of an attempt: no producer or consumer yet (R349), and its stall count starts again (R362). -/
def Ring.opened (r : Ring) : Ring :=
  { r with producer := none, consumer := none, touched := false, fresh := false, emptied := 0, stall := 0, waited := false
           slots := r.slots.map (fun x => { x with emptier := none }) }

/-- Work at the open of an attempt: counters, local flags and row-completion counters are 0 (R212, R244, R277), nothing is under way. -/
def Work.opened (w : Work) : Work :=
  { w with seqs := [], engines := [], counters := [], flags := [], rowsDone := [], signals := [], due := [], lightPath := [], sentTo := []
           peerSpent := [], rings := w.rings.map (fun e => (e.1, e.2.opened)) }

/-- The package runs its halls: no F4 record, no removal, no trip and no coolant stop (R550, R551, R571, R584). -/
def State.hallsRun (s : State) : Bool := s.cur.hallsStopped == false && s.obj 0x5000 8 == 0

/-- Open an attempt of the beat under way (R81, R228-R233, R328). -/
def State.openAttempt (s : State) : State :=
  let t := { s with work := s.work.opened, beat := { s.beat with checks := [], finished := false, dead := false }, folio := { s.folio with settled := false } }
  if !t.hallsRun then t else ((List.range 16).foldl (fun t w => t.openWing t.beat.doing w) t).reserveAll.progressAll

/-- A new ADMIT_DEPTH comes into use: a bucket that has been full holds what the old depth let it hold (R365). -/
def State.keepLevels (s : State) : State :=
  { s with mem := { s.mem with bucket := (List.range 8).foldl (fun m h =>
      if mget 0 m h = 0 ∧ s.objUsed (0x7200 + h) 2 ≠ s.obj (0x7200 + h) 2 then mset 0 m h (s.objUsed (0x7200 + h) 2 + 1) else m) s.mem.bucket } }

/-- Open beat n on this package (R28, R383): merge entries that no beat made are written, and latched writes come into use. -/
def State.openBeat (s : State) (n : Nat) : State :=
  let t := (s.flushOwner (fun o => o != 0)).keepLevels
  let t := { t with inUse := [], beat := { t.beat with doing := n, committed := false, attempt := 1, fails := 0, recovering := false
                                                       readySent := false, badWords := [], metBad := [] } }
  (t.applyComing n).openAttempt

/-- Jobs whose last beat every package has committed complete at the open of beat S + BEAT_COUNT + 1 (R234). -/
def State.completeJobs (s : State) (n : Nat) : State :=
  (List.range 16).foldl (fun t w => match (t.wing w).job with
    | some j =>
      let d := (n + 2 ^ 48 - j.start) % 2 ^ 48
      if j.beatCount < d ∧ d < 2 ^ 47 then (t.endJob w csDone 0 0).endFollow w else t
    | none => t) s

/-- The master takes its boundaries from BEAT_IN (R79). -/
def State.beatInUsed (s : State) : Bool := s.isMaster && s.obj 0x6000 3 == 1 && !s.beat.ownTimer

/-- A boundary falls: on a master that takes them from BEAT_IN, only where an edge has started one (R79). -/
def State.boundaryFalls (s : State) : Bool := s.beat.synced && (!s.beatInUsed || s.beat.beatInDue)

/-- A not-ready member is in recovery: on the master as the NOT_READY messages say, elsewhere the package itself (R94, R95, log entry 103). -/
def State.lateRecovers (s : State) : Bool :=
  if s.isMaster then s.beat.notReady.any (fun x => x.2) else s.beat.recovering || s.beat.doing != s.beatNo

/-- What every boundary does, an advance or a stretch (R69, R70, R80, R97): the period is counted and in use, rings' stall counts pass a period, BEAT_OUT pulses. After a boundary that no marker announced the package is not ready until it knows the beat number in force (R77). -/
def State.placeBoundary (s : State) : State :=
  let period := if s.beat.action.isSome then s.beat.nextPeriod else s.obj 0x6000 2
  let t := ((s.count 0x6000 9 1).setObj 0x6000 2 period).stallTick
  let t := (t.send (.pin "BEAT_OUT" true)).send (.pin "BEAT_OUT" false)
  { t with beat := { t.beat with action := none, beatInDue := false, notReady := [], readySent := t.beat.readySent && t.beat.missed == 0 } }

/-- A stretch (R93, R95, R96): it is counted, and nothing else; no input, output or order of work changes. -/
def State.countStretch (s : State) : State :=
  State.count { s with beat := { s.beat with overrun := if s.lateRecovers then 0 else s.beat.overrun + 1 } } 0x6000 0xA 1

/-- The beat number in force changes (R72, R93): what is counted in beats advances, and jobs whose last beat is committed complete. -/
def State.advanceBeat (s : State) (n : Nat) : State :=
  let t := ({ s with beat := { s.beat with ready := [], readySent := false, overrun := 0 } }.setObj 0x6000 8 n).waitTick.closeDeparture
  t.completeJobs n

/-- BEAT_BOUNDARY (R69, R77, R80, R89, R90): the boundary, a stretch or an advance, and the open of a beat that this package has not done. -/
def beatBoundary (s : State) : State :=
  if !s.boundaryFalls then s
  else
    let new := if s.beat.action.isSome then s.beat.nextBeat % 2 ^ 48 else s.beatNo
    let s1 := if s.beat.action = some true then s else s.countStretch
    let t := s1.placeBoundary
    let t := if new = t.beatNo then t else t.advanceBeat new
    if t.beat.committed ∧ t.beat.doing ≠ t.beatNo ∧ t.beat.doing ≠ (t.beatNo + 1) % 2 ^ 48 then t.openBeat t.beatNo else t

/-- BEAT_BOUNDARY (R69). -/
def execBeatBoundary (s : State) : Host.Outcome State Fault Refusal := .next (keepBeat s (beatBoundary s))

/-! ### Master and markers (R73-R79) -/

/-- The package has joined the beat: START_STATE 4 (R591). -/
def State.joinBeat (s : State) : State :=
  let t := { s with beat := { s.beat with synced := true } }
  if t.obj 0xA000 1 = 3 then (t.setObj 0xA000 5 (t.power.msTick % 2 ^ 32)).put 0xA000 1 4 else t

/-- BEAT_MARKER (R75-R77): what the next boundary will be. Of the two copies of a marker the later one says nothing new, and one that comes after its boundary is past. -/
def beatMarker (beat : Nat) (advance : Bool) (period master skew : Nat) (s : State) : State :=
  if s.obj 0xA000 1 < 3 ∨ s.obj 0xA000 1 = 0x0F ∨ s.obj 0x5000 8 ≠ 0 ∨ (s.beat.synced ∧ advance ∧ beat = s.beatNo) then s
  else
    let t := (s.setObj 0x6000 4 master).setObj 0x6000 7 (max (s.obj 0x6000 7) skew % 65536)
    State.joinBeat { t with beat := { t.beat with action := some advance, nextBeat := beat, nextPeriod := period, missed := 0 } }

/-- BEAT_MARKER (R76). -/
def execBeatMarker (beat : Nat) (advance : Bool) (period master skew : Nat) (s : State) : Host.Outcome State Fault Refusal :=
  .next (keepBeat s (beatMarker beat advance period master skew s))

/-- MARKER_MISSED (R77): the boundary will be a stretch. -/
def execMarkerMissed (s : State) : Host.Outcome State Fault Refusal :=
  .next (keepBeat s (if s.beat.synced && !s.isMaster then
    { s with beat := { s.beat with missed := s.beat.missed + 1, action := some false, nextBeat := s.beatNo, nextPeriod := s.obj 0x6000 2 } } else s))

/-- The package of the group whose ANCHOR_ENABLE is in force (R64, R73): this one as its own setting says, another as the election's exchange says. -/
def State.anchorNow (s : State) : Option Nat :=
  if s.isAnchor then some s.device else s.beat.anchor.filter (fun a => a != s.device && s.present a)

/-- The master of R73 among the packages present: the anchor, or the lowest device id. -/
def State.elected (s : State) : Nat := s.anchorNow.getD ((s.members.head?).getD s.device)

/-- Measure latency again: the courier latencies are forgotten, and 16 timing frames go out (R74). -/
def State.remeasure (s : State) : State :=
  (List.range 16).foldl (fun t _ => t.courier none .timing) { s with beat := { s.beat with latencies := [], trips := [], latency := 0 } }

/-- The last beat that this package has committed. -/
def State.lastCommitted (s : State) : Nat := if s.beat.committed then s.beat.doing else (s.beat.doing + 2 ^ 48 - 1) % 2 ^ 48

/-- The last beat that every member has committed (R72, R78): of the members' last commits that this package has heard of, the furthest back from its own. -/
def State.groupCommitted (s : State) : Nat :=
  let behind := ((s.beat.commits.filter (fun x => s.present x.1)).map (fun x => (s.lastCommitted + 2 ^ 48 - (x.2 - 1)) % 2 ^ 48)).filter (fun d => decide (d < 2 ^ 47))
  (s.lastCommitted + 2 ^ 48 - behind.foldl max 0) % 2 ^ 48

/-- MARKER_LOSS_ELECTION (R78). -/
def markerLossElection (s : State) : State :=
  if !s.beat.synced || decide (s.beat.missed < 2) then s
  else
    let m := s.elected
    let last := s.groupCommitted
    let t := { s with beat := { s.beat with missed := 0, action := none, ready := [], notReady := [], readySent := false } }
    (((t.setObj 0x6000 4 m).setObj 0x6000 8 last).count 0x6000 0xE 1).remeasure

/-- MARKER_LOSS_ELECTION (R78). -/
def execMarkerLossElection (s : State) : Host.Outcome State Fault Refusal := .next (keepBeat s (markerLossElection s))

/-- MASTER_ELECTION (R73): when the courier lane first comes up on every door of the torus. -/
def masterElection (anchor : Option Nat) (s : State) : State :=
  if s.obj 0xA000 1 ≠ 3 ∨ s.obj 0x5000 8 ≠ 0 then s
  else
    let t := { s with beat := { s.beat with anchor := anchor } }
    let t := (t.setObj 0x6000 4 t.elected).remeasure
    if t.isMaster then t.joinBeat else t

/-- MASTER_ELECTION (R73). -/
def execMasterElection (anchor : Option Nat) (s : State) : Host.Outcome State Fault Refusal := .next (keepBeat s (masterElection anchor s))

/-- Half the mean round trip of 16 timing frames; DESIGN CHOICE (log entry 187): rounded down. -/
def halfTrip (trips : List Nat) : Nat := trips.sum / 32

/-- A MARKER_LEAD in force, and the cutoff it leaves this package (R82): P - L - d lies L + d before the boundary. -/
def State.setLead (s : State) (lead : Nat) : State := (s.setObj 0x6000 5 (lead % 65536)).setObj 0x6000 6 ((lead + s.beat.latency) % 65536)

/-- The largest one-way latency in the group plus the guard of 100 ns, rounded up to 10 ns (R74). -/
def leadOf (latencies : NMap) : Nat := ceilDiv (latencies.foldl (fun m x => max m x.2) 0 + 100) 10 * 10

/-- TIMING_FRAME (R74): the sixteenth of a device's frames settles its latency. The master sets MARKER_LEAD from all of them; a member takes its own latency and the group's MARKER_LEAD from the frames of the master, which bear it. -/
def timingFrame (device : Nat) (roundTrip : Timing) (s : State) : State :=
  let xs := mget [] s.beat.trips device ++ [roundTrip.trip]
  let whole := xs.length == 16
  let ls := if whole then mset 0 s.beat.latencies device (halfTrip xs) else s.beat.latencies
  let own := mget 0 ls (s.obj 0x6000 4 % 64)
  let t := { s with beat := { s.beat with trips := mset [] s.beat.trips device (if whole then [] else xs), latencies := ls, latency := if s.isMaster then 0 else own } }
  if s.isMaster then (if whole then t.setLead (leadOf ls) else t)
  else if device = s.obj 0x6000 4 % 64 then t.setLead roundTrip.lead
  else t

/-- TIMING_FRAME (R74). -/
def execTimingFrame (device : Nat) (roundTrip : Timing) (s : State) : Host.Outcome State Fault Refusal := .next (keepBeat s (timingFrame device roundTrip s))

/-- The master returns to its own timer, with the record BEAT_IN_LOST (R79, R640): the last edge's departure in ns, or all ones when no edge came. -/
def State.loseBeatIn (s : State) (departure : Option Int) : State :=
  State.raise { s with beat := { s.beat with ownTimer := true } } 0x0602 unitPackage 0 none
    (match departure with
      | some d => leBytes 8 (twos 64 d)
      | none => List.replicate 8 0xFF)

/-- An edge more than 1% of the period in use from the time predicted (R79). -/
def State.edgeOff (s : State) (departure : Int) : Bool := decide (s.obj 0x6000 2 * 250 < 100 * departure.natAbs)

/-- BEAT_IN_EDGE (R79): an edge starts a boundary; one that comes more than 1% off also ends the use of BEAT_IN. -/
def beatInEdge (departure : Int) (s : State) : State :=
  if !s.beatInUsed then s
  else
    let t := { s with beat := { s.beat with beatInDue := true } }
    if s.edgeOff departure then t.loseBeatIn (some departure) else t

/-- BEAT_IN_EDGE (R79). -/
def execBeatInEdge (departure : Int) (s : State) : Host.Outcome State Fault Refusal := .next (keepBeat s (beatInEdge departure s))

/-- BEAT_IN_LOST (R79, R640): an edge too far off, or two periods without one. -/
def beatInLost (departure : Option Int) (s : State) : State :=
  let lost := match departure with
    | some d => s.edgeOff d
    | none => !s.beat.beatInDue
  if s.beatInUsed && lost then s.loseBeatIn departure else s

/-- BEAT_IN_LOST (R79). -/
def execBeatInLost (departure : Option Int) (s : State) : Host.Outcome State Fault Refusal := .next (keepBeat s (beatInLost departure s))

/-! ### READY and NOT_READY (R82) -/

/-- Every stage group has finished its work for the beat, folio operations checked (R82, R205). -/
def State.workDone (s : State) : Bool := s.programsDone && s.folio.ops.isEmpty

/-- The curator is away (R573). -/
def State.curatorAway (s : State) : Bool := s.cur.down

/-- The package may send READY for the beat in force (R82); after a boundary without a marker it does not know which that is (R77). -/
def State.canReady (s : State) : Bool :=
  s.beat.synced && s.obj 0x5000 8 == 0 && !s.curatorAway && s.beat.missed == 0 &&
    (if s.beat.doing = s.beatNo then (s.beat.committed || s.beat.finished) && !s.beat.dead && (s.beat.checks.isEmpty || s.beat.committed)
     else s.beat.doing == (s.beatNo + 1) % 2 ^ 48)

/-- A device has committed a beat; an older report changes nothing (R72). -/
def State.heardCommit (s : State) (device beat : Nat) : State :=
  let old := mget 0 s.beat.commits device
  if old ≠ 0 ∧ 2 ^ 47 ≤ (beat + 2 ^ 48 - (old - 1)) % 2 ^ 48 then s
  else { s with beat := { s.beat with commits := mset 0 s.beat.commits device (beat % 2 ^ 48 + 1) } }

/-- The master notes a READY (R82, R542): its sender has committed every beat before. -/
def State.noteReady (s0 : State) (device beat slack ceiling : Nat) : State :=
  let s := s0.heardCommit device ((beat + 2 ^ 48 - 1) % 2 ^ 48)
  if !s.isMaster || beat != s.beatNo || s.beat.ready.contains device then s
  else State.takeSlack { s with beat := { s.beat with ready := s.beat.ready ++ [device] } } device slack ceiling

/-- Send READY (R82): the slack is counted here as well, for SLACK_MEAN (R554). -/
def State.sendReady (s : State) (slack : Nat) : State :=
  let t := { s with beat := { s.beat with readySent := true } }
  if t.isMaster then t.noteReady t.device t.beatNo slack (t.obj 0x4120 6)
  else (t.takeSlack t.device slack (t.obj 0x4120 6)).courier (some (t.obj 0x6000 4 % 64)) (.ready t.beatNo slack (t.obj 0x4120 6) (t.obj 0x4140 1))

/-- READY (R82) at the master. -/
def execReady (device beat slack ceiling _power : Nat) (s : State) : Host.Outcome State Fault Refusal :=
  .next (keepBeat s (s.noteReady device beat slack ceiling))

/-- The master notes a NOT_READY (R82, R542). -/
def State.noteNotReady (s : State) (device beat : Nat) (recovering : Bool) (ceiling : Nat) : State :=
  if !s.isMaster || beat != s.beatNo then s
  else State.takeSlack { s with beat := { s.beat with notReady := s.beat.notReady.filter (fun x => x.1 != device) ++ [(device, recovering)] } } device 0 ceiling

/-- NOT_READY (R82) at the master. -/
def execNotReady (device beat : Nat) (recovering : Bool) (ceiling _power : Nat) (s : State) : Host.Outcome State Fault Refusal :=
  .next (keepBeat s (s.noteNotReady device beat recovering ceiling))

/-- WORK_FINISHED (R82): the beat's work is done; its merge entries are written (R383), and READY goes out when it may. -/
def workFinished (slack : Nat) (s : State) : State :=
  if !s.beat.synced || s.beat.committed || !s.workDone || !s.beat.checks.isEmpty then s
  else
    let t := s.flushOwner (· == 0)
    let t := { t with beat := { t.beat with finished := t.beat.checks.isEmpty } }
    if t.canReady && !t.beat.readySent then t.sendReady slack else t

/-- WORK_FINISHED (R82). -/
def execWorkFinished (slack : Nat) (s : State) : Host.Outcome State Fault Refusal := .next (keepBeat s (workFinished slack s))

/-- READY_CUTOFF (R82): a package that has not sent READY and cannot sends NOT_READY, which says whether it recovers. -/
def readyCutoff (s : State) : State :=
  if !s.beat.synced || s.obj 0x5000 8 != 0 || s.beat.readySent then s
  else if s.canReady then s.sendReady 0
  else
    let rec_ := s.beat.recovering || !s.beat.checks.isEmpty || s.beat.doing != s.beatNo || s.curatorAway
    if s.isMaster then s.noteNotReady s.device s.beatNo rec_ (s.obj 0x4120 6)
    else (s.takeSlack s.device 0 (s.obj 0x4120 6)).courier (some (s.obj 0x6000 4 % 64)) (.notReady s.beatNo rec_ (s.obj 0x4120 6) (s.obj 0x4140 1))

/-- READY_CUTOFF (R82). -/
def execReadyCutoff (s : State) : Host.Outcome State Fault Refusal := .next (keepBeat s (readyCutoff s))

/-! ### The decision (R93-R95) -/

/-- A set of devices as 64 bits. -/
def deviceMask (ds : List Nat) : Nat := ds.foldl (fun a d => a + 2 ^ d) 0

/-- The master's marker for the next boundary (R75), to every member on two routes: X then Y, and Y then X. -/
def State.sendMarker (s : State) (n : Nat) (advance : Bool) : State :=
  (s.courier none (.marker n advance (s.obj 0x6000 1) s.device false)).courier none (.marker n advance (s.obj 0x6000 1) s.device true)

/-- A stretch that the master decides (R93, R94): three in a row with a not-ready member outside recovery are a persistent overrun. -/
def State.decideStretch (s : State) (late : List Nat) : State :=
  let n := s.beatNo
  let known := late.all (fun d => s.beat.notReady.any (fun x => x.1 == d && x.2))
  let runs := if known then s.beat.stretches else s.beat.stretches + 1
  let t := { s with beat := { s.beat with action := some false, nextBeat := n, nextPeriod := s.obj 0x6000 1, stretches := if runs = 3 then 0 else runs } }
  let t := t.setObj 0x6000 0xF (deviceMask late)
  let t := if runs = 3 ∧ known = false then
      (t.put 0x6000 0xC ((t.obj 0x6000 0xC + 1) % 2 ^ 32)).raise 0x0601 unitPackage 0 none (leBytes 6 n ++ leBytes 8 (deviceMask late))
    else t
  t.sendMarker n false

/-- MASTER_DECISION (R75, R93). -/
def masterDecision (s : State) : State :=
  if !s.beat.synced || !s.isMaster || s.obj 0x5000 8 != 0 || s.beat.action.isSome then s
  else
    let late := s.members.filter (fun d => !s.beat.ready.contains d)
    let n := (s.beatNo + 1) % 2 ^ 48
    if late = [] then
      State.sendMarker { s with beat := { s.beat with action := some true, nextBeat := n, nextPeriod := s.obj 0x6000 1, stretches := 0 } } n true
    else s.decideStretch late

/-- MASTER_DECISION (R93). -/
def execMasterDecision (s : State) : Host.Outcome State Fault Refusal := .next (keepBeat s (masterDecision s))

/-- The wing has a stage group that has not finished (R82, R205): a program not sealed, arrays with work, a fill with lines to land, folio operations not checked. -/
def State.wingUnfinished (s : State) (w : Nat) : Bool :=
  s.work.seqs.any (fun e => e.2.wing == w && (e.2.status == .running || e.2.status == .waiting || !(mget {} s.work.engines e.1).empty)) ||
    s.work.fills.any (fun f => let r := s.ring f.hall f.ring; r.isOpen && r.gen == f.tag && !f.dropped && r.wing == w) ||
    s.folio.ops.any (fun o => o.wing == w)

/-- OVERRUN_LIMIT (R95): an F3 record for each wing with unfinished work. -/
def overrunLimit (s : State) : State :=
  if s.beat.overrun < s.obj 0x6000 0xD then s
  else ((List.range 16).filter (fun w => s.wingUnfinished w && (s.wing w).fatal.isNone)).foldl (fun t w =>
    t.raise 0x3502 unitWing w (some w) (leBytes 4 s.beat.overrun)) s

/-- OVERRUN_LIMIT (R95). -/
def execOverrunLimit (s : State) : Host.Outcome State Fault Refusal := .next (keepBeat s (overrunLimit s))

end Sys2Proof.Machine
end

