-- ==== Sys2Proof/Machine/Doors.lean ====
section
/-! DEFINITION. Optical doors and lasers (13_torus_links.md): modes and directions (R400-R404), lasers (R405-R408), training (R409-R412), flits (R413-R415), replay, lanes and lost doors (R417-R421), credits (R426). -/

namespace Sys2Proof.Machine

open Sys2Proof

/-! ### Doors and directions (R400-R402) -/

abbrev doorAcc (d : Nat) : Nat := 0x8000 + d

/-- STATE of a door (R409): 0 DOWN, 1 DETECT, 2 SIGNAL, 3 ALIGN, 4 NEGOTIATE, 5 CREDIT, 6 UP, 7 MISWIRED. -/
def State.doorState (s : State) (d : Nat) : Nat := s.obj (doorAcc d) 2

/-- The doors of a direction in bundle order (R401): 0 +X, 1 -X, 2 +Y, 3 -Y. -/
def doorsOf (dir : Nat) : List Nat := (([[9, 10, 11, 12], [0, 1, 2, 13], [6, 7, 8, 14], [3, 4, 5, 15]] : List (List Nat))[dir]?).getD []

/-- The direction a door serves. -/
def dirOf (door : Nat) : Nat := ((List.range 4).find? (fun k => (doorsOf k).contains door)).getD 0

/-- The opposite direction. -/
def opposite (dir : Nat) : Nat := if dir % 2 = 0 then dir + 1 else dir - 1

/-- The door at the far end of a fibre (R402). -/
def pairedDoor (door : Nat) : Nat :=
  ((doorsOf (opposite (dirOf door)))[((doorsOf (dirOf door)).findIdx (· == door))]?).getD 0

/-- The bundle of a direction: its doors in torus mode (R401). -/
def State.bundle (s : State) (dir : Nat) : List Nat := (doorsOf dir).filter (fun d => s.obj (doorAcc d) 1 == 0)

def State.door (s : State) (d : Nat) : Door := mget {} s.torus.doors d

def State.setDoor (s : State) (d : Nat) (x : Door) : State := { s with torus := { s.torus with doors := mset {} s.torus.doors d x } }

/-- Doors are held DOWN (R571, R595): nothing trains. -/
def State.doorsHeld (s : State) : Bool := !s.torus.forwarding

/-! ### Flits (R414, R415) -/

/-- The body of a data flit: packet bytes in order, round the sectors that hold courier frames (R415). -/
def Flit.body (f : Flit) : List Byte := match f.frames with
  | [] => f.bytes
  | [a] => fitBytes 56 (f.bytes.take 56) ++ fitBytes 64 a ++ f.bytes.drop 56
  | a :: b :: _ => fitBytes 56 (f.bytes.take 56) ++ fitBytes 64 a ++ fitBytes 64 b ++ f.bytes.drop 56

/-- How many courier frames a data flit has free sectors for (R415). -/
def Flit.sectors (f : Flit) : Nat := if f.bytes.length ≤ 116 then 2 else if f.bytes.length ≤ 180 then 1 else 0

/-- The bytes of a flit; a courier flit carries its frame in bytes 64-127. -/
def Flit.encode (f : Flit) (seq ack : Nat) (nak : Bool) (creditVc credits : Nat) : List Byte :=
  let courier := if f.kind = 3 then 1 else 2 ^ min 2 f.frames.length - 1
  let n := if f.kind = 1 then f.bytes.length else 0
  let w := seq % 256 + ack % 256 * 2 ^ 8 + b2n nak * 2 ^ 16 + f.kind % 4 * 2 ^ 17 + f.vc % 8 * 2 ^ 19 + b2n f.head * 2 ^ 22 + b2n f.tail * 2 ^ 23 +
    courier * 2 ^ 24 + creditVc % 8 * 2 ^ 26 + credits % 64 * 2 ^ 29 + f.packet % 4096 * 2 ^ 35 + f.index % 16 * 2 ^ 47 + n % 256 * 2 ^ 51
  let body := if f.kind = 3 then List.replicate 56 0 ++ f.bytes else f.body
  let b := leBytes 8 w ++ fitBytes 244 body
  b ++ leBytes 4 (crc32c b)

/-- A flit's header field. -/
def flitBits (b : List Byte) (hi lo : Nat) : Nat := bits (leAt b 0 8) hi lo

/-- 256 bytes with a correct CRC. -/
def flitGood (b : List Byte) : Bool := b.length == 256 && leAt b 252 4 == crc32c (b.take 252)

/-- Packet bytes of a data flit: the body without the sectors that COURIER marks (R415). -/
def flitData (b : List Byte) : List Byte :=
  (slice b 8 56 ++ (if flitBits b 24 24 = 1 then [] else slice b 64 64) ++ (if flitBits b 25 25 = 1 then [] else slice b 128 64) ++ slice b 192 60).take
    (flitBits b 58 51)

/-- Courier frames a flit carries (R415). -/
def flitFrames (b : List Byte) : List (List Byte) :=
  (if flitBits b 24 24 = 1 then [slice b 64 64] else []) ++ (if flitBits b 25 25 = 1 then [slice b 128 64] else [])

/-- A courier frame as the router holds it, on channel 0. -/
def frameFlit (f : List Byte) : Flit := { kind := 3, vc := 0, head := true, tail := true, packet := 0, index := 0, bytes := f }

/-! ### Sending (R417, R426) -/

/-- The channel whose credits the next flit returns, and how many. -/
def Door.nextReturn (x : Door) : Nat × Nat := match (List.range 5).find? (fun k => decide (0 < (x.returns[k]?).getD 0)) with
  | some k => (k, min 63 ((x.returns[k]?).getD 0))
  | none => (0, 0)

/-- Add to one place of a list of counts. -/
def bump (l : List Nat) (k n : Nat) : List Nat := l.set k ((l[k]?).getD 0 + n)

/-- Take from one place of a list of counts. -/
def drop_ (l : List Nat) (k n : Nat) : List Nat := l.set k ((l[k]?).getD 0 - n)

/-- Put a flit on a door with the acknowledgement and credits it owes. -/
def State.putFlit (s : State) (d : Nat) (f : Flit) (seq : Nat) : State :=
  let x := s.door d
  let r := x.nextReturn
  let t := s.setDoor d { x with returns := drop_ x.returns r.1 r.2 }
  ((t.send (.flit d (f.encode seq ((x.expect + 255) % 256) x.nak r.1 r.2))).count (0xC200 + d) 1 1).powerOwned (8 + d / 2) 6 1 f.owner

/-- An idle flit: it carries acknowledgement, NAK and credits, is not numbered and is not kept (log entry 70). -/
def idleFlit : Flit := { kind := 0, vc := 0, head := false, tail := false, packet := 0, index := 0, bytes := [] }

/-- Answer the far end at once (R417). -/
def State.answer (s : State) (d : Nat) : State := s.putFlit d idleFlit ((s.door d).seq + 255)

/-- Room to send on a channel: a credit, and fewer than 192 flits outstanding (R417, R426). -/
def Door.room (x : Door) (vc : Nat) : Bool := decide (0 < (x.credits[vc]?).getD 0) && decide (x.window.length < 192)

/-- Send a numbered flit. -/
def State.sendNumbered (s : State) (d : Nat) (f : Flit) : State :=
  let x := s.door d
  let credits := drop_ (drop_ x.credits f.vc 1) 0 f.frames.length
  let t := s.setDoor d { x with seq := (x.seq + 1) % 256, window := x.window ++ [(x.seq, f, 0)], credits := credits }
  t.putFlit d f x.seq

/-- Send what waits on a door while it has room (R420). -/
def State.drainDoor (s : State) (d : Nat) : State :=
  ((s.door d).queue).foldl (fun (acc : State × Bool) f =>
    if acc.2 || !(acc.1.door d).room f.vc then (acc.1, true)
    else (State.sendNumbered (acc.1.setDoor d { acc.1.door d with queue := (acc.1.door d).queue.drop 1 }) d f, false)) (s, false) |>.1

/-- Resend every unacknowledged flit in order (R417). -/
def State.resendWindow (s : State) (d : Nat) : State :=
  let w := (s.door d).window
  let t := s.setDoor d { s.door d with window := w.map (fun e => (e.1, e.2.1, e.2.2 + 1)) }
  w.foldl (fun t e => (t.putFlit d e.2.1 e.1).count (0xC200 + d) 4 1) t

/-- RESEND_TIMEOUT (R417). -/
def execResendTimeout (door : Nat) (s : State) : Host.Outcome State Fault Refusal :=
  .next (keepLink s (if s.doorState door = 6 ∧ (s.door door).window ≠ [] then s.resendWindow door else s))

/-! ### Doors up and down (R409, R418-R420, R431) -/

/-- Begin training (R409): DETECT, with nothing of the link left but the packets that wait. -/
def State.startTraining (s : State) (d : Nat) : State :=
  let x := s.door d
  let t := s.setDoor d { x with locked := 0, seq := 0, window := [], expect := 0, nak := false, credits := [0, 0, 0, 0, 0], returns := [0, 0, 0, 0, 0]
                                spare := false, spareTx := false }
  let t := (((t.setObj (doorAcc d) 6 0).setObj (doorAcc d) 7 0).setObj (doorAcc d) 5 0).setObj (doorAcc d) 4 0xFF
  (t.put (doorAcc d) 2 1).count (0xC200 + d) 7 1

/-- A door may train: torus mode, powered, forwarding not stopped (R400, R409, R571). -/
def State.mayTrain (s : State) (d : Nat) : Bool :=
  s.obj (doorAcc d) 1 == 0 && mget 0 s.cur.domains (536 + d) == 1 && !s.doorsHeld && !bitOf s.cur.unusable.doors d

/-- Set or clear a device in PRESENT, a link in CUT_LINKS (R431). -/
def State.setPresent (s : State) (dev : Nat) (v : Bool) : State :=
  if bitOf (s.obj 0x8100 1) dev = v then s else s.setObj 0x8100 1 (if v then s.obj 0x8100 1 + 2 ^ dev else s.obj 0x8100 1 - 2 ^ dev)

def State.setCut (s : State) (dev : Nat) (yLink v : Bool) : State :=
  if s.linkBit dev yLink = v then s
  else
    let k := 2 ^ (2 * dev + b2n yLink)
    s.setObj 0x8100 2 (if v then s.obj 0x8100 2 + k else s.obj 0x8100 2 - k)

/-- The ring link that a direction's bundle is: the device from which it goes in +, and whether it is in Y. -/
def State.linkOf (s : State) (dir : Nat) : Nat × Bool :=
  (if dir % 2 = 0 then s.device else s.neighbourOf s.device dir, decide (2 ≤ dir))

/-- A link is cut (R431, R469): the map, and the groups whose chains use it. -/
def State.applyCut (s : State) (dev : Nat) (yLink : Bool) : State :=
  (s.setCut dev yLink true).breakGroups (fun g => g.usesLink dev yLink) (dev + 256 * (1 + b2n yLink))

/-- When every door of a bundle is down, LINK_CUT goes out (R431). -/
def State.noteBundle (s : State) (dir : Nat) : State :=
  if (s.bundle dir).any (fun d => s.doorState d == 6) then s
  else
    let l := s.linkOf dir
    if s.linkBit l.1 l.2 then s else (s.courier none (.linkCut l.1 l.2)).applyCut l.1 l.2

/-- Move what a door has not had acknowledged to another door of its bundle, with PKT_ID and INDEX unchanged (R420), and the packets that hold it. -/
def State.moveFlits (s : State) (d other : Nat) : State :=
  let x := s.door d
  let fs := x.window.map (fun e => e.2.1) ++ x.queue
  let t := s.setDoor d { x with window := [], queue := [] }
  let t := t.setDoor other { t.door other with queue := (t.door other).queue ++ fs }
  let holds := t.torus.holds.map (fun (e : Nat × Nat) => if 0 < e.2 ∧ e.2 < 2 ^ 30 ∧ (e.2 - 1) % 256 / 8 = d then (e.1, e.2 - 8 * d + 8 * other) else e)
  State.drainDoor { t with torus := { t.torus with holds := holds } } other

/-- The lowest-numbered door of a bundle that is UP. -/
def State.upDoor (s : State) (dir : Nat) : Option Nat := ((s.bundle dir).filter (fun d => s.doorState d == 6)).foldl (fun b d => match b with
  | some c => some (min c d)
  | none => some d) none

/-- A door goes down (R420): its record, its packets to another door, training again. -/
def State.doorFalls (s : State) (d cause : Nat) : State :=
  let dir := dirOf d
  let t := (s.put (doorAcc d) 2 0).raise 0x2D03 unitDoor (16 * d + 15) none (leBytes 1 d ++ leBytes 1 cause)
  let t := t.setDoor d { t.door d with dark := decide (cause = 3) }
  let t := match t.upDoor dir with
    | some other => t.moveFlits d other
    | none => t.setDoor d { t.door d with queue := (t.door d).window.map (fun (e : Nat × Flit × Nat) => e.2.1) ++ (t.door d).queue }
  let t := t.noteBundle dir
  if t.mayTrain d then t.startTraining d else t

/-- DOOR_DOWN (R420): causes 0 no acknowledged flit for 2 µs, 1 a flit resent 8 times, 2 lanes, 3 light. -/
def doorDown (d cause : Nat) (s : State) : State :=
  let w := (s.door d).window
  let ok := match cause with
    | 0 => !w.isEmpty
    | 1 => w.any (fun (e : Nat × Flit × Nat) => decide (8 ≤ e.2.2))
    | _ => true
  if s.doorState d = 6 ∧ ok = true then s.doorFalls d cause else s

/-- DOOR_DOWN (R420). -/
def execDoorDown (door cause : Nat) (s : State) : Host.Outcome State Fault Refusal := .next (keepLink s (doorDown door cause s))

/-! ### Training (R409-R411) -/

/-- Lanes that may be used: not named unusable by a test (R598). -/
def State.goodLanes (s : State) (d lanes : Nat) : Nat :=
  (List.range 9).foldl (fun a n => if bitOf lanes n && !bitOf ((s.cur.unusable.lanes[d]?).getD 0) n then a + 2 ^ n else a) 0

/-- A training step that needs at least 7 lanes. -/
def State.trainStep (s : State) (d from_ lanes : Nat) : State :=
  let l := s.goodLanes d lanes
  if s.doorState d = from_ ∧ 7 ≤ popcount 9 l ∧ s.mayTrain d then (s.setDoor d { s.door d with locked := l }).put (doorAcc d) 2 (from_ + 1) else s

/-- DOOR_DETECT_DONE (R409). -/
def execDoorDetectDone (door lanes : Nat) (s : State) : Host.Outcome State Fault Refusal := .next (keepLink s (s.trainStep door 1 lanes))

/-- DOOR_SIGNAL_LOCKED (R409). -/
def execDoorSignalLocked (door lanes : Nat) (s : State) : Host.Outcome State Fault Refusal := .next (keepLink s (s.trainStep door 2 lanes))

/-- A link-control flit with a body (R410). -/
def controlFlit (body : List Byte) : Flit := { kind := 2, vc := 0, head := false, tail := false, packet := 0, index := 0, bytes := body }

/-- What this end sends in NEGOTIATE (R410). -/
def State.negotiation (s : State) (d : Nat) : List Byte :=
  leBytes 2 (s.obj 0x1010 1) ++ leBytes 2 (s.obj 0x1011 1) ++ leBytes 1 (s.obj 0x1000 7) ++ leBytes 1 (s.torusX % 16 + 16 * (s.torusY % 16)) ++
    leBytes 1 d ++ leBytes 1 (popcount 9 (s.door d).locked)

/-- DOOR_ALIGN_DONE (R409, R410): the negotiation flit goes out. -/
def doorAlignDone (d lanes : Nat) (s : State) : State :=
  let t := s.trainStep d 3 lanes
  if s.doorState d = 3 ∧ t.doorState d = 4 then t.putFlit d (controlFlit (t.negotiation d)) 0 else t

/-- DOOR_ALIGN_DONE (R409). -/
def execDoorAlignDone (door lanes : Nat) (s : State) : Host.Outcome State Fault Refusal := .next (keepLink s (doorAlignDone door lanes s))

/-- The version two ends settle on (R410): the higher CURRENT where both accept it, else the lower. -/
def settleVersion (cur1 old1 cur2 old2 : Nat) : Option Nat :=
  let ok := fun (v : Nat) => decide (v ≤ cur1) && decide (old1 ≤ v) && decide (v ≤ cur2) && decide (old2 ≤ v)
  if ok (max cur1 cur2) then some (max cur1 cur2) else if ok (min cur1 cur2) then some (min cur1 cur2) else none

/-- Grant the buffers of R424 to the far end: one flit carries up to 63 credits of one channel. -/
def State.grantCredits (s : State) (d : Nat) : State :=
  let t := s.setDoor d { s.door d with returns := [32, 48, 48, 32, 64], credits := [32, 48, 48, 32, 64] }
  (List.range 6).foldl (fun t _ => t.answer d) t

/-- The exchange of NEGOTIATE (R410-R412). -/
def State.negotiate (s : State) (d : Nat) (b : List Byte) : State :=
  let dev := leAt b 12 1
  let shape := leAt b 13 1
  let far := leAt b 14 1
  match settleVersion (s.obj 0x1010 1) (s.obj 0x1011 1) (leAt b 8 2) (leAt b 10 2),
      shape != s.torusX % 16 + 16 * (s.torusY % 16) || dev != s.neighbourOf s.device (dirOf d) || far != pairedDoor d with
  | some v, false =>
    let t := ((s.setObj (doorAcc d) 5 v).setObj (doorAcc d) 4 dev).put (doorAcc d) 2 5
    let t := if v = 0x0100 then t.raise 0x0D03 unitDoor (16 * d + 15) none (leBytes 1 d ++ leBytes 2 v) else t
    t.grantCredits d
  | _, _ => (s.put (doorAcc d) 2 7).raise 0x0D02 unitDoor (16 * d + 15) none (leBytes 1 d ++ leBytes 1 dev ++ leBytes 1 far ++ leBytes 1 shape)

/-- The far end names a lane it no longer receives (R418, R412): the first body byte; the manual gives the message no layout. -/
def State.farLane (s : State) (d lane : Nat) : State :=
  let a := s.obj (doorAcc d) 6
  if bitOf a lane then s.setObj (doorAcc d) 6 (a - 2 ^ lane)
  else if lane = 8 then s.setDoor d { s.door d with spareTx := false }
  else s

/-- LINK_CONTROL_FLIT (R410, R418). -/
def linkControlFlit (d : Nat) (b : List Byte) (s : State) : State :=
  if !flitGood b || flitBits b 18 17 != 2 then s
  else if s.doorState d = 4 then s.negotiate d b
  else if s.doorState d = 6 ∧ s.obj (doorAcc d) 5 ≠ 0x0100 ∧ leAt b 8 1 < 9 then s.farLane d (leAt b 8 1)
  else s

/-- LINK_CONTROL_FLIT (R410). -/
def execLinkControlFlit (door : Nat) (flit : List Byte) (s : State) : Host.Outcome State Fault Refusal := .next (keepLink s (linkControlFlit door flit s))

/-- The bundle has a door UP again (R431): link and neighbour are restored to the maps, and a broadcast says so. -/
def State.restoreLink (s : State) (dir : Nat) : State :=
  let l := s.linkOf dir
  let n := s.neighbourOf s.device dir
  let t := if s.linkBit l.1 l.2 then (s.courier none (.restored l.1 (some l.2))).setCut l.1 l.2 false else s
  if t.present n then t else (t.courier none (.restored n none)).setPresent n true

/-- DOOR_CREDIT_RECEIVED (R409, R419): UP with L0-L7 when all nine lanes locked, else with those that did; packets of the bundle's doors that are down go on here. -/
def doorCreditReceived (d : Nat) (s : State) : State :=
  if s.doorState d ≠ 5 then s
  else
    let l := (s.door d).locked
    let all := l == 511
    let t := s.setDoor d { s.door d with spare := all, spareTx := all, dark := false }
    let t := (t.setObj (doorAcc d) 6 (if all then 255 else l)).setObj (doorAcc d) 7 (511 - l)
    let t := (t.put (doorAcc d) 2 6).restoreLink (dirOf d)
    ((t.bundle (dirOf d)).filter (fun e => e != d && t.doorState e != 6 && !(t.door e).queue.isEmpty)).foldl (fun t e => t.moveFlits e d) (t.drainDoor d)

/-- DOOR_CREDIT_RECEIVED (R409). -/
def execDoorCreditReceived (door : Nat) (s : State) : Host.Outcome State Fault Refusal := .next (keepLink s (doorCreditReceived door s))

/-- DOOR_TRAINING_FAILED (R409). -/
def doorTrainingFailed (d : Nat) (s : State) : State :=
  let st := s.doorState d
  if st = 0 ∨ 5 < st then s
  else (s.put (doorAcc d) 2 0).raise 0x0D01 unitDoor (16 * d + 15) none (leBytes 1 d ++ leBytes 1 st)

/-- DOOR_TRAINING_FAILED (R409). -/
def execDoorTrainingFailed (door : Nat) (s : State) : Host.Outcome State Fault Refusal := .next (keepLink s (doorTrainingFailed door s))

/-- DOOR_RETRAIN (R409). -/
def execDoorRetrain (door : Nat) (s : State) : Host.Outcome State Fault Refusal :=
  .next (keepLink s (if s.doorState door = 0 ∧ s.mayTrain door then s.startTraining door else s))

/-- A write to MODE (R400): the domain follows, a torus door starts training, and an Ethernet door's link is gone. -/
def State.setMode (s0 : State) (d v : Nat) : State :=
  let old := s0.obj (doorAcc d) 1
  let s := if old = 1 then s0.ethFalls d 4 else s0
  let t := { s with cur := { s.cur with domains := mset 0 s.cur.domains (536 + d) (if v = 2 || bitOf s.cur.unusable.doors d then 0 else 1) } }
  let t := (t.setObj (doorAcc d) 1 v).setObj (doorAcc d) 3 (if v = 0 then dirOf d else 0xFF)
  let t := t.put (doorAcc d) 2 0
  let t := if old = 0 then match t.upDoor (dirOf d) with
      | some other => t.moveFlits d other
      | none => t
    else t
  let t := (t.setObj (doorAcc d) 4 0xFF).setDoor d { t.door d with joins := [] }
  let t := if v = 0 ∧ t.mayTrain d then t.startTraining d else t
  if old = 0 then t.noteBundle (dirOf d) else t

/-! ### Lanes (R418, R419) -/

/-- LANE_FAILURE (R418, R419, R412): a receiving lane is out of use until the door next trains. -/
def laneFailure (d lane : Nat) (cause : LaneCause) (s : State) : State :=
  if s.doorState d ≠ 6 ∨ bitOf (s.obj (doorAcc d) 7) lane ∨ cause.fails (s.obj (doorAcc d) 15) = false then s
  else
    let t := s.setObj (doorAcc d) 7 (s.obj (doorAcc d) 7 + 2 ^ lane)
    if t.obj (doorAcc d) 5 = 0x0100 then t.doorFalls d 2
    else if 9 - popcount 9 (t.obj (doorAcc d) 7) < 7 then t.doorFalls d 2
    else
      let t := t.putFlit d (controlFlit [BitVec.ofNat 8 lane]) ((t.door d).seq + 255)
      if (s.door d).spare then (if lane = 8 then t.setDoor d { t.door d with spare := false } else t)
      else t.raise 0x2D02 unitDoor (16 * d + lane) none (leBytes 1 d ++ leBytes 1 lane)

/-- LANE_FAILURE (R418). -/
def execLaneFailure (door lane : Nat) (cause : LaneCause) (s : State) : Host.Outcome State Fault Refusal := .next (keepLink s (laneFailure door lane cause s))

/-- LANE_SPARED (R418): L8 takes the lane's place, on the side where it is free. -/
def laneSpared (d lane cause : Nat) (s : State) : State :=
  let x := s.door d
  let rx := x.spare && bitOf (s.obj (doorAcc d) 7) lane && lane != 8
  let tx := x.spareTx && !bitOf (s.obj (doorAcc d) 6) lane && lane != 8
  if s.doorState d ≠ 6 || !(rx || tx) then s
  else
    let t := s.setDoor d { x with spare := x.spare && !rx, spareTx := x.spareTx && !tx }
    let t := if tx then t.setObj (doorAcc d) 6 (t.obj (doorAcc d) 6 + 2 ^ 8) else t
    t.raise 0x2D01 unitDoor (16 * d + lane) none (leBytes 1 d ++ leBytes 1 lane ++ leBytes 1 cause)

/-- LANE_SPARED (R418). -/
def execLaneSpared (door lane cause : Nat) (s : State) : Host.Outcome State Fault Refusal := .next (keepLink s (laneSpared door lane cause s))

/-! ### Lasers (R405-R408) -/

abbrev laserAcc (m : Nat) : Nat := 0x8200 + m
def State.laserState (s : State) (m : Nat) : Nat := s.obj (laserAcc m) 1
def State.laser (s : State) (m : Nat) : Laser := mget {} s.torus.lasers m
def State.setLaser (s : State) (m : Nat) (x : Laser) : State := { s with torus := { s.torus with lasers := mset {} s.torus.lasers m x } }

/-- The other module of a pair. -/
def partner (m : Nat) : Nat := if m % 2 = 0 then m + 1 else m - 1

/-- The doors of the engines that a module's pair feeds (R16, R405). -/
def litDoors (m : Nat) : List Nat := (List.range 8).map (· + 8 * (m / 2))

/-- The partner gives light alone from now on. -/
def State.partnerAlone (s : State) (m : Nat) : State := if s.laserState (partner m) = 2 then s.put (laserAcc (partner m)) 1 3 else s

/-- Enable a module's output (R407). -/
def State.startLaser (s : State) (m : Nat) : State :=
  ((s.setLaser m { s.laser m with enabled := true }).send (.laser m true)).put (laserAcc m) 1 1

/-- A door without light goes down (R408): one that is UP or trains falls as R420 gives; an Ethernet door's link goes down (R472). -/
def State.darken (s : State) (d : Nat) : State :=
  let st := s.doorState d
  if s.obj (doorAcc d) 1 = 1 then s.ethFalls d 3
  else if 1 ≤ st ∧ st ≤ 6 then s.doorFalls d 3 else s

/-- LASER_FEED_LOST (R406, R408): a failed or removed module; with both modules lost the doors they lit go down. -/
def laserFeedLost (m : Nat) (removed : Bool) (s : State) : State :=
  let st := s.laserState m
  let gone := fun (t : State) => if removed then (t.setLaser m {}).put (laserAcc m) 1 0 else (t.setLaser m { t.laser m with enabled := false }).put (laserAcc m) 1 4
  if (s.laser m).present = false then s
  else if st = 2 ∨ st = 3 then
    let t := ((gone s).partnerAlone m).setObj (laserAcc m) 3 0
    let t := t.raise 0x2D04 unitLaser m none (leBytes 1 m ++ leBytes 2 (s.obj (laserAcc m) 3))
    if t.laserState (partner m) = 2 ∨ t.laserState (partner m) = 3 then t
    else (litDoors m).foldl (fun t d => t.darken d) t
  else gone s

/-- LASER_FEED_LOST (R406). -/
def execLaserFeedLost (module : Nat) (removed : Bool) (s : State) : Host.Outcome State Fault Refusal := .next (keepLink s (laserFeedLost module removed s))

/-- LASER_PRESENT (R407): a module is inserted into an empty place. -/
def execLaserPresent (module : Nat) (s : State) : Host.Outcome State Fault Refusal :=
  .next (keepLink s (if (s.laser module).present then s else (s.setLaser module { present := true, enabled := false }).put (laserAcc module) 1 1))

/-- LASER_ENABLE (R407): 1 s later its output is enabled. -/
def execLaserEnable (module : Nat) (s : State) : Host.Outcome State Fault Refusal :=
  .next (keepLink s (if (s.laser module).present && !(s.laser module).enabled && s.laserState module == 1 then s.startLaser module else s))

/-- LASER_OUTPUT_IN_RANGE (R407): SHARING with its partner, or alone (R406). -/
def laserInRange (m power temp : Nat) (s : State) : State :=
  if !(s.laser m).enabled then s
  else
    let p := s.laserState (partner m)
    let t := (s.setObj (laserAcc m) 3 (power % 65536)).setObj (laserAcc m) 4 (temp % 65536)
    if p = 2 ∨ p = 3 then (t.put (laserAcc m) 1 2).put (laserAcc (partner m)) 1 2 else t.put (laserAcc m) 1 3

/-- LASER_OUTPUT_IN_RANGE (R407). -/
def execLaserOutputInRange (module power temperature : Nat) (s : State) : Host.Outcome State Fault Refusal :=
  .next (keepLink s (laserInRange module power temperature s))

/-- A write to COMMAND of a module (R407): 1 prepares it for removal, 2 returns it to service. -/
def State.laserCommand (s : State) (m v : Nat) : State × Nat :=
  if v = 1 then
    if s.laserState (partner m) ≠ 2 ∨ (litDoors m).any (fun d => (s.door d).dark) then (s, rcConflict)
    else (((((s.setLaser m { s.laser m with enabled := false }).send (.laser m false)).put (laserAcc m) 1 5).partnerAlone m).setObj (laserAcc m) 3 0, rcOk)
  else if v = 2 then
    if s.laserState m = 5 ∧ (s.laser m).present then (s.startLaser m, rcOk) else (s, rcConflict)
  else (s, rcRange)

end Sys2Proof.Machine
end

