-- ==== Sys2Proof/Machine/Seal.lean ====
section
/-! DEFINITION. The seal (03_beat.md): the verdict (R83), commit and its tokens (R84, R85), what a failed verdict restores (R331, R357), replay and sparing (R88-R91, R171, R560-R563), wings that halt or become fatal at a seal (R68, R567), exchanges of rotation (R565). -/

namespace Sys2Proof.Machine

open Sys2Proof

/-! ### Completion records, signals, jobs (R212, R218, R223, R251) -/

/-- A wing's records of the beat in ascending hall, slot and program position (R218). -/
def State.wingRecords (s : State) (w : Nat) : List (Nat × Nat × CRec) :=
  (s.work.seqs.filter (fun e => e.2.wing == w)).flatMap (fun e =>
    (sortBy (fun (a b : CRec) => decide (a.pos ≤ b.pos)) (e.2.records.filter (fun r => bitOf r.desc 48))).map (fun r => (e.1 / 64, e.1 % 64, r)))

/-- Post a wing's completion records; of 32 bytes, they gather in merge entries (R382). Those beyond RECORD_CAPACITY are counted (R223). -/
def State.postRecords (s : State) (w : Nat) : State := match (s.wing w).job with
  | none => s
  | some j =>
    let rs := s.wingRecords w
    let room := min rs.length (j.recordCap - j.written)
    let t := ((rs.take room).zipIdx).foldl (fun (t : State) e =>
      (t.plainSectors (some w) (j.recordArea + 32 * (j.written + e.2)) 32).outsideWrite 103 (j.recordArea + 32 * (j.written + e.2)) (e.1.2.2.bytes e.1.1 e.1.2.1 s.beat.doing (decide (1 < s.beat.attempt)))) s
    (t.setWing w { t.wing w with job := some { j with written := j.written + room } }).count (0x3100 + w) 4 (rs.length - room)

/-- JOB_BEAT: the job beats committed (R251). -/
def State.countJobBeat (s : State) (w : Nat) : State := match (s.wing w).job with
  | none => s
  | some j => match j.beat s.beat.doing with
    | some b => if j.opened then s.put (0x3100 + w) 2 (b + 1) else s
    | none => s

/-- The body of a remote-flag packet after its route word (R212): the flag and the addend; the manual gives it no layout. -/
def flagPacket (flag add : Nat) : List Byte := leBytes 4 flag ++ leBytes 4 add

/-- Remote signals of the beat (R212). -/
def State.sendSignals (s : State) : State :=
  let l := s.work.signals
  let t := { s with work := { s.work with signals := [] } }
  l.foldl (fun t x => if x.1 = t.device then t.remoteAdd x.2.1 x.2.2.1 x.2.2.2.1
    else t.sendPacket (tagOwner x.2.1 x.2.2.2.2) x.1 x.2.1 0x06 1 (flagPacket x.2.2.1 x.2.2.2.1)) t

/-- Counters that the committed work advances (R141). -/
def State.landDue (s : State) : State :=
  let l := s.work.due
  let t := { s with work := { s.work with due := [] } }
  l.foldl (fun t x => t.count (x.1 % 2 ^ 24 / 256) (x.1 % 256) x.2) t

/-! ### Rings at a committing seal (R341, R346, R347, R355, R359) -/

/-- A slot at a committing seal: draining becomes empty (R347), and what the beat emptied is gone. -/
def RSlot.sealed (x : RSlot) : RSlot :=
  if x.st = 3 ∨ x.st = 0 then { x with st := 0, folios := [], landed := false, ok := false, piece := none, emptier := none } else { x with emptier := none }

/-- One ring at a committing seal: closed (R341, R346), announced (R355), its credits returned. -/
def State.sealRing (s : State) (key : Nat) : State :=
  let hall := key / 256
  let id := key % 256
  let r := s.ring hall id
  if !r.isOpen then s
  else
    let peer := r.source == 1
    let gone := (r.slots.filter (fun x => x.st == 3)).length + r.emptied
    if r.closing || !r.inHall then
      (if peer && !r.fresh then s.courier (some r.peer) (.credits hall id 0 true) else s).setRing hall id {}
    else
      let t := if peer && r.fresh then s.courier (some r.peer) (.announce r.wing hall id r.slots.length r.peer r.slotSize) else s
      let t := if peer && decide (0 < gone) then t.courier (some r.peer) (.credits hall id gone false) else t
      t.setRing hall id { r with slots := r.slots.map RSlot.sealed, emptied := 0, fresh := false, touched := false
                                 credit := if !peer then 0 else if r.fresh then r.slots.length else r.credit + gone }

/-- RINGS_OPEN and SLOTS_RESERVED as at the seal (R367). -/
def State.publishRings (s : State) : State :=
  (List.range 8).foldl (fun t h =>
    let n := t.ringsHeld h
    (t.setObj (0x7200 + h) 4 n.1).setObj (0x7200 + h) 5 n.2) s

/-- Every ring. -/
def State.sealRings (s : State) : State := ((s.work.rings.map Prod.fst).foldl State.sealRing s).publishRings

/-! ### Collectives at a seal (R445, R460) -/

/-- A run along the chains is active here: a relay's too (R441, R460). -/
def State.runActive (s : State) (r : CollRun) : Bool := match s.group r.group with
  | some g => r.aborted.isNone && r.frames.any (fun f => chained (idCop f.2.1)) && !s.runOver g r
  | none => false

/-- The packages that hear of this package's commit or withdrawal: those it sent data to (R84), and those on the path of groups with a launch active (R460). -/
def State.tokenDevices (s : State) : List Nat :=
  let groups := s.coll.launches.map Launch.group ++ (s.coll.runs.filter s.runActive).map CollRun.group
  let paths := groups.eraseDups.flatMap (fun h => ((s.group h).map Group.path).getD [])
  ((s.work.sentTo ++ paths).filter (· != s.device)).eraseDups

/-- Launches at a committing seal: those of the beat are committed, those waited for are gone (R444, R445). -/
def State.sealLaunches (s : State) : State :=
  let fresh := (s.coll.launches.filter (fun l => !l.committed)).length
  let ls := (s.coll.launches.filter (fun l => !l.waited)).map (fun l => { l with committed := true })
  (State.count { s with coll := { s.coll with launches := ls } } 0xC230 1 fresh)

/-! ### The enabled-core map (R63, R171, R560, R565) -/

/-- CORE_STATE of a physical core (R173). -/
def State.setCoreState (s : State) (hall core v : Nat) : State := if core < 42 then s.put (0x2010 + hall) (core + 1) v else s

/-- Change a subindex of the map. -/
def State.bind (s : State) (hall sub core : Nat) : State := s.put (0x2000 + hall) sub core

/-- A sparing takes effect (R171): the reserve is bound, the failed core is suspect, the rotation reserve becomes spare-ready. -/
def State.landSpare (s : State) (x : Spare) : State :=
  let h := x.hall
  let ready := s.obj (0x2000 + h) 41
  let rot := s.obj (0x2000 + h) 42
  let t := (s.bind h (x.slot + 1) x.reserve).setCoreState h x.failed 3
  let t := t.setCoreState h x.reserve 0
  if x.reserve = 0xFF then t
  else if x.reserve = ready then
    ((t.bind h 41 rot).bind h 42 0xFF).setCoreState h rot 1
  else if x.reserve = rot then t.bind h 42 0xFF
  else t

/-- Every sparing of the beat takes effect at the seal that commits the replay; an exchange of the hall is cancelled (R565). -/
def State.landSpares (s : State) : State :=
  let l := s.cur.sparing
  let t := l.foldl State.landSpare s
  let halls := l.map Spare.hall
  { t with cur := { t.cur with sparing := [], exchange := t.cur.exchange.filter (fun e => !halls.contains e.1)
                               tested := t.cur.tested.filter (fun k => !halls.contains (k / 64)) } }

/-- The HBM address that a whole word of a core buffer came from. -/
def Mem.origin (m : Mem) (w : Nat) : Option Nat :=
  (m.loaded.find? (fun l => decide (l.dst ≤ 8 * w) && decide (8 * w + 8 ≤ l.dst + l.len))).map (fun l => l.src + (8 * w - l.dst))

/-- Fetch a word of a core buffer again, as it was at word `old`: from the HBM bytes it came from; a word that came from elsewhere is copied, or a free value where the copy is uncorrectable (R88, R394, log entry 188). -/
def State.reloadWord (s : State) (old w : Nat) : State :=
  let put := fun (t : State) (bs : List Byte) => State.forget { t with mem := t.mem.write (8 * w) bs } (8 * w) 8
  match s.mem.origin old with
  | some a => let t := s.touch (.outside 4) a 8
    put t (t.mem.deliverRange a 8)
  | none =>
    if s.mem.bad old then
      let r := s.draw
      put r.2 (leBytes 8 r.1)
    else put s (leBytes 8 (s.mem.read old).data)

/-- Load a core's buffer with a slot's resident tiles: the rest is the unwritten pattern (R88, R390, R560). -/
def State.loadResident (s : State) (hall slot source core : Nat) : State :=
  let a := coreAddr hall core
  let b := coreAddr hall source
  let words := (s.mem.cells.filter (fun e => decide (b ≤ e.1) && decide (e.1 < b + coreSize))).map (fun e => (e.1 - b) / 8)
  let words := (words.eraseDups).filter (Config.resident (slotKey hall slot))
  let moved := (s.mem.loaded.filter (fun l => decide (b ≤ l.dst) && decide (l.dst < b + coreSize))).map (fun l => { l with dst := a + (l.dst - b) })
  let t := { s with mem := s.mem.unwrite a (a + coreSize) }
  let t := words.foldl (fun (t : State) w => t.reloadWord (b / 8 + w) (a / 8 + w)) t
  { t with mem := { t.mem with loaded := t.mem.loaded ++ moved } }

/-- The exchange of a tested rotation reserve with the due core at a seal (R565). -/
def State.exchangeOne (s : State) (h due : Nat) : State :=
  let ready := s.obj (0x2000 + h) 41
  let rot := s.obj (0x2000 + h) 42
  let drop := fun (t : State) => { t with cur := { t.cur with exchange := t.cur.exchange.filter (fun e => e.1 != h), tested := t.cur.tested.filter (fun k => k != slotKey h rot) } }
  if ready = 0xFF ∨ rot = 0xFF ∨ !s.cur.tested.contains (slotKey h rot) ∨ s.cur.sparing.any (fun x => x.hall == h) then s
  else if due = ready then (((drop s).bind h 41 rot).bind h 42 due |>.setCoreState h rot 1).setCoreState h due 2
  else match (List.range 40).find? (fun sl => s.obj (0x2000 + h) (sl + 1) == due) with
    | none => drop s
    | some sl =>
      let t := (drop s).loadResident h sl due ready
      let t := ((t.bind h (sl + 1) ready).bind h 42 due).bind h 41 rot
      let t := ((t.setCoreState h ready 0).setCoreState h due 2).setCoreState h rot 1
      (t.setCore h ready (t.core h due)).setCore h due {}

/-- The exchanges that are due (R565): a committed seal, and none while recovery is under way. -/
def State.exchanges (s : State) : State := s.cur.exchange.foldl (fun t e => t.exchangeOne e.1 e.2) s

/-- A core that has passed its test becomes spare-ready where the hall has no spare-ready reserve, else the rotation reserve; one that has failed leaves the map and its domain is switched off (R171, R561). -/
def State.changeMap (s : State) (id : Nat) (passed : Bool) : State :=
  let h := id / 64
  let c := id % 64
  if passed then
    if s.obj (0x2000 + h) 41 = 0xFF then (s.bind h 41 c).setCoreState h c 1
    else if s.obj (0x2000 + h) 42 = 0xFF then
      State.setCoreState { s with cur := { s.cur with suspended := s.cur.suspended.filter (· != h) } } h c 2 |>.bind h 42 c
    else s
  else
    let t := if s.obj (0x2000 + h) 42 = c then s.bind h 42 0xFF else s
    let t := (t.setCoreState h c 4).setObj 0x2008 (h + 1) (t.obj 0x2008 (h + 1) ||| 2 ^ c)
    { t with cur := { t.cur with domains := mset 0 t.cur.domains id 0 } }

/-- The changes of the map that wait for a seal (R63). -/
def State.changeMaps (s : State) : State :=
  (s.cur.mapDue).foldl (fun t e => t.changeMap e.1 e.2) { s with cur := { s.cur with mapDue := [] } }

/-! ### Commit (R84) -/

/-- The committed state that a failed verdict restores. -/
def State.snapshot (s : State) : State :=
  { s with work := { s.work with ringsSeal := s.work.rings }
           folio := { s.folio with sealed := s.folio.now }
           coll := { s.coll with launchesSeal := s.coll.launches
                                 seqsSeal := s.coll.groups.foldl (fun m e => match e.2 with
                                   | some g => mset [] m e.1 g.seqs
                                   | none => m) [] } }

/-- Commit the beat under way: every output together (R84). -/
def State.commitBeat (s : State) : State :=
  let n := s.beat.doing
  let devs := s.tokenDevices
  let t := (s.flushOwner (· == 0)).commitWrites s.beat.attempt
  let t := t.settleLoans.landAppends
  let t := t.sealRings.landEdits.storeSides
  let t := (List.range 16).foldl (fun t w => (t.postRecords w).countJobBeat w) t
  let t := t.landDue.sendSignals.sealLaunches
  let t := devs.foldl (fun t d => t.courier (some d) (.commit n)) t
  let t := (t.commitPieces t.device n).landSpares
  { t.snapshot with beat := { t.beat with committed := true, finished := true, recovering := false, fails := 0 } }

/-! ### Withhold (R84, R331, R357) -/

/-- A slot's data of another package is kept, whatever the attempt did with it (R357): full when committed, filling while pending. -/
def keepSlot (now : RSlot) : RSlot :=
  if now.landed then { now with st := if now.ok then 2 else 1, emptier := none } else { now with st := 0, emptier := none }

/-- Restore a ring to its committed state (R357). The slots of a SOURCE 1 or 2 ring that hold data are consecutive from the head; the sender keeps the credits it has spent since. -/
def restoreRing (old now : Ring) : Ring :=
  if old.source = 0 then { old with gen := if now.touched then (now.gen + 1) % 256 else now.gen, moved := true }
  else
    let slots := now.slots.map keepSlot
    { old with slots := slots, tail := (old.head + (slots.filter (fun x => x.st != 0)).length) % slots.length, gen := now.gen, credit := now.credit
               moved := true }

/-- Restore every ring; rings that the attempt opened are closed, and what still fills them is stale. -/
def State.restoreRings (s : State) : State :=
  let now := s.work.rings
  let gone := (now.map Prod.fst).filter (fun k => !(mget {} s.work.ringsSeal k).isOpen)
  { s with work := { s.work with
    rings := s.work.ringsSeal.map (fun e => (e.1, restoreRing e.2 (mget {} now e.1)))
    fills := s.work.fills.map (fun f => if gone.contains (f.hall * 256 + f.ring) then { f with tag := 256 } else f) } }

/-- Restore launches and sequence numbers. -/
def State.restoreLaunches (s : State) : State :=
  { s with coll := { s.coll with
    launches := s.coll.launchesSeal
    groups := s.coll.groups.map (fun e => (e.1, e.2.map (fun g => { g with seqs := mget [] s.coll.seqsSeal e.1 }))) } }

/-- Give back the credits that the attempt spent (R355). -/
def State.restoreCredits (s : State) : State :=
  s.work.peerSpent.foldl (fun (t : State) x =>
    let p := mget {} t.work.peers x.1
    if p.granted then { t with work := { t.work with peers := mset {} t.work.peers x.1 { p with credits := p.credits + x.2 } } } else t) s

/-- The slot whose buffer an SRAM word lies in, when the word is one of its resident tiles (R394). -/
def State.residentWord (s : State) (w : Nat) : Bool :=
  let a := 8 * w
  if physBase ≤ a ∧ a < physBase + 512 * coreSize then
    let h := (a - physBase) / coreSize / 64
    let c := (a - physBase) / coreSize % 64
    (List.range 40).any (fun sl => s.coreOf h sl == some c && Config.resident (slotKey h sl) ((a - physBase) % coreSize / 8))
  else false

/-- Reload the resident words that a read found uncorrectable (R394). -/
def State.reloadBad (s : State) (ws : List Nat) : State :=
  ws.foldl (fun (t : State) w => if t.residentWord w then t.reloadWord w w else t) s

/-- The code of a check in REPEATED_VERDICT_FAILURE's detail (R91): kind and place; the manual gives no layout. -/
def Check.bytes : Check → List Byte
  | .column => [0]
  | .duplicate => [1]
  | .lockstep => [2]
  | .residue => [3]
  | .hbm a => 4 :: leBytes 8 a
  | .sram a => 5 :: leBytes 8 a
  | .fabric => [6]
  | .inbound => [7]
  | .fault w c => 8 :: (leBytes 1 w ++ leBytes 2 c)
  | .coolant => [9]

/-- The replay waits for no sparing, and the curator is there to start it (R88, R573, R582). -/
def State.mayReplay (s : State) : Bool := s.cur.sparing.isEmpty && !s.curatorAway && s.obj 0x5000 8 == 0 && s.obj 0x5300 2 != 1

/-- Replay the beat from its committed inputs (R88, R91, R244). -/
def State.replay (s : State) : State :=
  let t := { s with beat := { s.beat with attempt := s.beat.attempt + 1 } }
  (t.count 0x6000 0xB 1).openAttempt

/-- Withhold the beat (R84, R88, R91): nothing of it takes effect, its withdraw tokens go out, and the package is in recovery. -/
def State.withholdBeat (s0 : State) : State :=
  let s := s0.openWaits (s0.work.seqs.map (fun e => (e.1 / 64, e.1 % 64)))
  let n := s.beat.doing
  let last := s.beat.checks.getLast?
  let devs := s.tokenDevices
  let t := (s.flushOwner (· == 0)).restoreRings.restoreCredits
  let t := t.restoreLaunches
  let t := { t with folio := { t.folio with now := t.folio.sealed, appends := [], ops := [], edits := [], changes := [], settled := false } }
  let t := devs.foldl (fun t d => t.courier (some d) (.withdraw n)) (t.withdrawPieces t.device n)
  let t := t.reloadBad t.beat.metBad
  let t : State := { t with
    work := { t.work with engines := [], signals := [], due := [], sentTo := [], peerSpent := []
                          seqs := t.work.seqs.map (fun e => (e.1, { e.2 with status := .stopped, hold := .none })) }
    beat := { t.beat with badWords := (t.beat.badWords ++ t.beat.metBad).eraseDups, metBad := [], fails := t.beat.fails + 1, recovering := true, dead := true, finished := false } }
  if t.beat.fails = 4 then t.raise 0x4501 unitPackage 0 none ((last.map Check.bytes).getD []) else t

/-! ### Wings at a seal (R68, R567) -/

/-- Drop what a wing has under way in a beat that has not passed: programs, arrays, writes in its window, signals, launches, counts (R141); its writes of earlier, failed attempts count as superseded (R247). -/
def State.dropWing (s0 : State) (w : Nat) : State :=
  let s := s0.countSuperseded (s0.mem.writes.filter (fun x =>
    x.attempt != s0.beat.attempt && decide (s0.obj (0x3000 + w) 1 ≤ x.address) && decide (x.address < s0.obj (0x3000 + w) 2)))
  let mine := (s.work.seqs.filter (fun e => e.2.wing == w)).map Prod.fst
  let lo := s.obj (0x3000 + w) 1
  let hi := s.obj (0x3000 + w) 2
  let inWin := fun (a : Nat) => decide (lo ≤ a) && decide (a < hi)
  let sides := s.folio.now.sides.filter (fun e => folioWing e.1 != w)
  let old := s.folio.sealed.sides.filter (fun e => folioWing e.1 == w)
  let now := { s.folio.now with
    sides := old.foldl (fun m e => mput m e.1 e.2) sides
    full := mset {} s.folio.now.full w (mget {} s.folio.sealed.full w), half := mset {} s.folio.now.half w (mget {} s.folio.sealed.half w) }
  let keys := (s.work.rings.map Prod.fst).filter (fun k => (mget {} s.work.rings k).wing == w)
  let rings := keys.foldl (fun m k =>
    let o := mget {} s.work.ringsSeal k
    mset {} m k (if o.isOpen then restoreRing o (mget {} s.work.rings k) else {})) s.work.rings
  let gone := keys.filter (fun k => !(mget {} s.work.ringsSeal k).isOpen)
  { s with
    work := { s.work with
      seqs := s.work.seqs.filter (fun e => e.2.wing != w), engines := s.work.engines.filter (fun e => !mine.contains e.1), rings := rings
      fills := s.work.fills.map (fun f => if gone.contains (f.hall * 256 + f.ring) then { f with tag := 256 } else f)
      signals := s.work.signals.filter (fun x => x.2.1 != w), due := s.work.due.filter (fun e => e.1 / 2 ^ 24 != w) }
    mem := { s.mem with writes := s.mem.writes.filter (fun x => !inWin x.address), merges := s.mem.merges.filter (fun e => !(e.owner == 0 && inWin (64 * e.sector))) }
    coll := { s.coll with launches := s.coll.launches.filter (fun l => l.wing != w) ++ s.coll.launchesSeal.filter (fun l => l.wing == w)
                          groups := s.coll.groups.map (fun e => (e.1, e.2.map (fun g => if g.wing = w then { g with seqs := mget [] s.coll.seqsSeal e.1 } else g))) }
    folio := { s.folio with
      now := now, ops := s.folio.ops.filter (fun o => o.wing != w), appends := s.folio.appends.filter (fun a => a.wing != w)
      edits := s.folio.edits.filter (fun e => !inWin e.address), changes := s.folio.changes.filter (fun x => folioWing x.folio != w) }
    wings := mset {} s.wings w { s.wing w with job := (s.wing w).job.map (fun j => { j with opened := false }) } }

/-- A wing halts or becomes fatal at this seal. -/
def State.wingEnds (s : State) (w : Nat) : Bool := s.wingState w == 2 || ((s.wing w).fatal.isSome && s.wingState w != 3)

/-- STATE of a wing at a seal (R68, R509, R567). -/
def State.sealWing (s : State) (w : Nat) : State :=
  if !s.wingEnds w then s
  else
    let t := match (s.wing w).fatal with
      | some f => ((s.put (0x3000 + w) 3 3).endJob w csHalted f.1 f.2).endWingShips w
      | none => (s.put (0x3000 + w) 3 0).endJob w csHalted 0 0
    if (t.wing w).dropImages then (t.dropImages w).setWing w { t.wing w with dropImages := false } else t

/-- Every wing. -/
def State.sealWings (s : State) : State := (List.range 16).foldl State.sealWing s

/-- In a stretched beat whose work is not finished, the work of wings that end at this seal is dropped. -/
def State.dropEnding (s : State) : State := ((List.range 16).filter s.wingEnds).foldl State.dropWing s

/-! ### SEAL_BEGIN -/

/-- The final-state compare of the lockstep sequencers found cores that disagree (R163). -/
def State.lockstepFail (s : State) (id : Nat) : State :=
  match s.slotOf (id / 64) (id % 64) with
  | none => s
  | some sl => s.sequencersDiffer (id / 64) sl

/-- IN_USE and FREE of every pool, as they stand at the seal (R338). -/
def State.publishPools (s : State) : State := (List.range 16).foldl (fun t w => if (t.wing w).poolStale then t else t.publishPool w) s

/-- Verdict and what follows for the beat under way (R83, R84). -/
def State.verdict (s : State) : State :=
  if s.beat.committed || s.beat.dead || s.obj 0x5000 8 != 0 then s
  else
  let s := if s.workDone then (s.flushOwner (· == 0)).settleLoans else s
  if !s.beat.checks.isEmpty then s.withholdBeat
  else if s.beat.finished || s.workDone then s.commitBeat
  else s.dropEnding

/-- Cycles pass in every core: by how many is a free value for each (R164, log entry 16). -/
def State.passCycles (s : State) : State := { s with free := s.free + 1, cur := { s.cur with cycles := s.cur.cycles ++ [s.free] } }

/-- What a later snapshot shows of the state as it stands at this seal (R40). -/
def State.sealView (s : State) : SealView :=
  { server := s.server, sec := s.sec, doms := s.doms, passedMs := s.cur.passedMs, records := s.cur.records, report := s.cur.report
    cycles := s.cur.cycles, msTick := s.power.msTick, slotA := s.flash.slotA, slotB := s.flash.slotB, groups := s.coll.groups, remap := s.mem.remap }

/-- SEAL_BEGIN (R83): checks are sampled; the beat commits, is withheld, or goes on in its stretch; wings change state; shares move (R542); chunks form and received folios are taken (R481, R495). -/
def sealBegin (lockstep : List Nat) (s : State) : State :=
  if !s.beat.synced then s
  else
    let open_ := !s.beat.committed && !s.beat.dead
    let t := if open_ then lockstep.foldl State.lockstepFail s else s
    let t := t.verdict.sealWings
    let t := (if t.beat.committed then t.exchanges else t).changeMaps
    let t := t.balance
    let t := if t.beat.committed then
        let u := t.shipSeal.recvSeal.storeSides
        State.publishPools { u with folio := { u.folio with sealed := u.folio.now } }
      else t
    let t := t.passCycles
    let t := { t with catSeal := t.cat, cur := { t.cur with seen := t.sealView } }
    if t.beat.dead && t.mayReplay then t.replay else t

/-- SEAL_BEGIN (R83). -/
def execSealBegin (lockstep : List Nat) (s : State) : Host.Outcome State Fault Refusal := .next (keepBeat s (sealBegin lockstep s))

/-! ### Tokens (R85, R347, R460, R461) -/

/-- A slot whose data is committed now: a filling one becomes full, unless its ring is closing (R346, R347). -/
def RSlot.commit (x : RSlot) (closing : Bool) : RSlot := { x with ok := true, st := if x.st = 1 ∧ !closing then 2 else x.st }

/-- A slot holds a sender's pending data of a beat (R85). -/
def RSlot.pends (x : RSlot) (device beat : Nat) : Bool := x.landed && !x.ok && x.sender == device && x.beat == beat

/-- A sender's data of a beat becomes committed in a ring's slots. -/
def commitSlots (r : Ring) (device beat : Nat) : Ring :=
  if r.source = 1 then { r with slots := r.slots.map (fun x => if x.pends device beat then x.commit r.closing else x) } else r

/-- A sender's pending data of a beat is discarded: the slots are empty, the tail returns to the first of them, and the sender has its credits back (R347, R355). -/
def withdrawSlots (r : Ring) (device beat : Nat) : Ring :=
  if r.source ≠ 1 then r
  else
    let hits := r.slots.filter (fun x => x.pends device beat)
    let n := (hits.filter (fun x => x.st == 1)).length
    if hits = [] then r
    else { r with slots := r.slots.map (fun x => if x.pends device beat then { x with st := 0, landed := false } else x)
                  tail := (r.tail + r.slots.length - n) % r.slots.length, credit := r.credit + n, moved := true }

/-- Change every ring. -/
def State.mapRings (s : State) (f : Ring → Ring) : State :=
  { s with work := { s.work with rings := s.work.rings.map (fun e => (e.1, f e.2)) } }

/-- COMMIT_TOKEN (R85). -/
def commitToken (device beat : Nat) (s0 : State) : State :=
  let s := s0.heardCommit device beat
  let t := s.work.rings.foldl (fun (t : State) e =>
    t.count (0xC1C0 + e.1 / 256) 1 (((commitSlots e.2 device beat).slots.filter (fun x => x.st == 2)).length - (e.2.slots.filter (fun x => x.st == 2)).length)) s
  ((t.mapRings (fun r => let q := commitSlots r device beat; if q = r then r else { q with moved := true })).commitPieces device beat).progressAll.deliverAll

/-- COMMIT_TOKEN (R85). -/
def execCommitToken (device beat : Nat) (s : State) : Host.Outcome State Fault Refusal := .next (keepBeat s (commitToken device beat s))

/-- A withdraw token discards, and what is discarded is done again (R85, R461). -/
def withdrawToken (device beat : Nat) (s : State) : State :=
  let t := (s.mapRings (fun r => withdrawSlots r device beat)).withdrawPieces device beat
  let t := { t with coll := { t.coll with redo := t.coll.redo.filter (· != (device, beat)) ++ [(device, beat)] } }
  t.progressAll.deliverAll

/-- WITHDRAW_TOKEN (R85, R461). -/
def execWithdrawToken (device beat : Nat) (s : State) : Host.Outcome State Fault Refusal := .next (keepBeat s (withdrawToken device beat s))

/-! ### SPARING_COMPLETE (R88, R560) -/

/-- Every reserve that a sparing took is cleared and loaded (R390, R560). -/
def State.loadSpares (s : State) : State :=
  s.cur.sparing.foldl (fun t x => if x.reserve = 0xFF then t else
    let u := t.loadResident x.hall x.slot x.failed x.reserve
    u.setCore x.hall x.reserve { u.core x.hall x.reserve with stopped := false }) s

/-- SPARING_COMPLETE (R88): the replay begins as soon as the sparing is complete, at any time within a period. -/
def sparingComplete (s : State) : State :=
  if s.cur.sparing.isEmpty || s.beat.committed || s.curatorAway || s.obj 0x5300 2 == 1 || s.obj 0x5000 8 != 0 then s
  else
    let t := if s.beat.dead then s else s.withholdBeat
    if t.obj 0x5000 8 != 0 then t else t.loadSpares.replay

/-- SPARING_COMPLETE (R88). -/
def execSparingComplete (s : State) : Host.Outcome State Fault Refusal := .next (keepBeat s (sparingComplete s))

end Sys2Proof.Machine
end

