-- ==== Sys2Proof/Machine/Faults.lean ====
section
/-! DEFINITION. The curator's tests and rotation (R561-R566), package fatal (R570, R571), and the curator's own watchdog (R573). -/

namespace Sys2Proof.Machine

open Sys2Proof

/-- A core passes its test. -/
def State.markPassed (s : State) (hall core : Nat) : State :=
  { s with cur := { s.cur with
    passCount := s.cur.passCount + 1
    passed := mset 0 s.cur.passed (slotKey hall core) (s.cur.passCount + 1)
    passedMs := mset 0 s.cur.passedMs (slotKey hall core) (s.power.msTick + 1) } }

/-- A change of the map is due at the next seal (R63). -/
def State.mapChange (s : State) (hall core : Nat) (passed : Bool) : State :=
  { s with cur := { s.cur with mapDue := s.cur.mapDue ++ [(slotKey hall core, passed)] } }

/-- The curator is at work: not restarting (R573), its firmware not paused (R582), the package not fatal (R571). -/
def State.curatorWorks (s : State) : Bool := !s.curatorAway && s.obj 0x5300 2 != 1 && s.obj 0x5000 8 != 1

/-- CORE_STATE of a physical core (R173). -/
def State.coreState (s : State) (hall core : Nat) : Nat := s.obj (0x2010 + hall) (core + 1)

/-- CORE_TEST_COMPLETE (R171, R561): a suspect core becomes a reserve at the next seal, or is retired. -/
def coreTestComplete (hall core : Nat) (passed : Bool) (failedStep : Nat) (s : State) : State :=
  if !s.curatorWorks || s.coreState hall core != 3 || s.cur.mapDue.any (fun e => e.1 == slotKey hall core) then s
  else if passed then (s.markPassed hall core).mapChange hall core true
  else (s.raise 0x2504 unitCore (coreId hall core) none (leBytes 1 failedStep)).changeMap (slotKey hall core) false

/-- CORE_TEST_COMPLETE (R561). -/
def execCoreTestComplete (hall core : Nat) (passed : Bool) (failedStep : Nat) (s : State) : Host.Outcome State Fault Refusal :=
  .next (keepBeat s (coreTestComplete hall core passed failedStep s))

/-- The core of a hall that is due for its test (R565): usable, not the rotation reserve, its last passed test the oldest, the lowest number among equals. -/
def State.dueCore (s : State) (hall : Nat) : Option Nat :=
  let age := fun c => mget 0 s.cur.passed (slotKey hall c)
  ((List.range 42).filter (fun c => s.coreState hall c ≤ 1)).foldl (fun b c => match b with
    | some d => if age c < age d then some c else some d
    | none => some c) none

/-- ROTATION_STEP (R565, R566): the due core is chosen; a hall without a rotation reserve has its suspension noted once. -/
def rotationStep (hall : Nat) (s : State) : State :=
  if !s.curatorWorks || s.obj 0x5010 1 == 0 || decide (s.obj 0xA000 1 < 3) || s.obj 0xA000 1 == 0x0F then s
  else if s.obj (0x2000 + hall) 42 = 0xFF then
    if s.cur.suspended.contains hall then s
    else State.raise { s with cur := { s.cur with suspended := s.cur.suspended ++ [hall] } } 0x0501 unitHall hall none
      (leBytes 1 hall ++ leBytes 1 ((List.range 42).filter (fun c => decide (s.coreState hall c < 3))).length)
  else match s.dueCore hall with
    | some c => { s with cur := { s.cur with exchange := s.cur.exchange.filter (fun e => e.1 != hall) ++ [(hall, c)] } }
    | none => s

/-- ROTATION_STEP (R565). -/
def execRotationStep (hall : Nat) (s : State) : Host.Outcome State Fault Refusal := .next (keepBeat s (rotationStep hall s))

/-- ROTATION_TEST_COMPLETE (R564): the reserve on rotation has passed and may be exchanged, or is retired as a suspect core is. -/
def rotationTestComplete (hall : Nat) (passed : Bool) (failedStep : Nat) (s : State) : State :=
  let c := s.obj (0x2000 + hall) 42
  if !s.curatorWorks || c == 0xFF || s.cur.sparing.any (fun x => x.hall == hall) || s.cur.mapDue.any (fun e => e.1 == slotKey hall c) then s
  else if passed then
    let t := s.markPassed hall c
    { t with cur := { t.cur with tested := t.cur.tested.filter (· != slotKey hall c) ++ [slotKey hall c] } }
  else (s.raise 0x2504 unitCore (coreId hall c) none (leBytes 1 failedStep)).mapChange hall c false

/-- ROTATION_TEST_COMPLETE (R564). -/
def execRotationTestComplete (hall : Nat) (passed : Bool) (failedStep : Nat) (s : State) : Host.Outcome State Fault Refusal :=
  .next (keepBeat s (rotationTestComplete hall passed failedStep s))

/-- PACKAGE_FATAL (R570, R571): a fault of class F4. -/
def execPackageFatal (code unit index : Nat) (detail : List Byte) (s : State) : Host.Outcome State Fault Refusal :=
  .next (keepBeat s (if classOf code = 4 then s.raise code unit index none detail else s))

/-- Every SPDM connection begins again (R610). -/
def State.resetSpdm (s : State) : State :=
  { s with server := { s.server with sessions := s.server.sessions.map (fun x => { x with spdm := {} }) }, host := { s.host with doe := {} } }

/-- CURATOR_WATCHDOG (R573): the curator restarts; a second expiry within 600 s (`sinceLast`, in seconds) is package fatal. A restart ends a self-test (R596). -/
def curatorWatchdog (sinceLast : Nat) (s : State) : State :=
  let n := s.cur.restarts + 1
  let t := State.resetSpdm { s with cur := { s.cur with restarts := n, down := true } }
  let t := if t.obj 0xA100 3 = 2 then { t with cur := { t.cur with testStatus := 6 } } else t
  if 0 < s.cur.restarts ∧ sinceLast ≤ 600 then t.raise 0x4503 unitSystem 0 none [] else t.raise 0x0502 unitSystem 0 none (leBytes 4 n)

/-- CURATOR_WATCHDOG (R573). -/
def execCuratorWatchdog (sinceLast : Nat) (s : State) : Host.Outcome State Fault Refusal := .next (keepBeat s (curatorWatchdog sinceLast s))

/-- CURATOR_RETURN (R573): recovery resumes; a return later than 1 s (`elapsed`, in milliseconds) is package fatal. -/
def curatorReturn (elapsed : Nat) (s : State) : State :=
  if !s.cur.down then s
  else if 1000 < elapsed then s.raise 0x4503 unitSystem 0 none []
  else
    let t := { s with cur := { s.cur with down := false } }
    if t.beat.dead && t.mayReplay then t.replay else t

/-- CURATOR_RETURN (R573). -/
def execCuratorReturn (elapsed : Nat) (s : State) : Host.Outcome State Fault Refusal := .next (keepBeat s (curatorReturn elapsed s))

end Sys2Proof.Machine
end

