-- ==== Sys2Proof/Machine/MemoryEvents.lean ====
section
/-! DEFINITION. What the memory controllers do on their own: HBM admission (R365, R366), merge entries (R383), the conservator of the stacks and of the hall stores (R385-R388). -/

namespace Sys2Proof.Machine

open Sys2Proof

/-! ### Admission (R365, R366) -/

/-- The bytes in a hall's bucket after some ns of refill, never above ADMIT_DEPTH; full at reset (R365, log entry 18). -/
def State.level (s : State) (hall elapsed : Nat) : Nat :=
  let depth := s.objUsed (0x7200 + hall) 2
  let v := mget 0 s.mem.bucket hall
  if v = 0 then depth else min depth (v - 1 + s.objUsed (0x7200 + hall) 1 * elapsed)

/-- The requesters of a hall whose requests wait. -/
def State.asking (s : State) (hall : Nat) : List Nat := ((s.mem.waiting.filter (fun x => x.hall == hall)).map HbmReq.index).eraseDups

/-- Who asked: a shipment at index 40, else the beat (R366). -/
def HbmReq.reader (r : HbmReq) : Reader := if r.index = 40 then .outside 2 else .beat

/-- The access of an admitted request: the memory's parity retries, one that fails again being an uncorrectable word (R368, R398), and the words on the fabric between the stack's hall and the one that asked (R11, R376). -/
def State.access (s : State) (r : HbmReq) (x : Admission) : State :=
  let near := stackOf r.address
  let t := (s.upset x.parity.upsets).parityRetries r.address x.parity
  let t := if x.parity.failed then t.hbmBad r.reader (r.address / 8) true else t
  let ends := if r.write then (r.hall, near) else (near, r.hall)
  t.crossFabric r.reader ends.1 ends.2 x.channel (fun i => (s.mem.see (r.address / 8 + i)).data) (ceilDiv r.bytes 8) x.slips

/-- HBM_REQUEST_ADMITTED: the requester's oldest request, when the bucket holds its bytes and the requester is first by R248 and R249 with N = 42 (R366). -/
def hbmRequestAdmitted (hall index waited : Nat) (x : Admission) (s : State) : State :=
  match s.mem.waiting.find? (fun r => r.hall == hall && r.index == index) with
  | none => s
  | some r =>
    let level := s.level hall x.ns
    let asking := s.asking hall
    let lost := fun j => mget 0 s.mem.losses (hall * 64 + j)
    if level < r.bytes || !arbFirst s.beatNo 42 lost asking index || s.mem.selfRefresh then s
    else
      let t := { s with mem := { s.mem with waiting := s.mem.waiting.erase r, bucket := mset 0 s.mem.bucket hall (level - r.bytes + 1)
                                            losses := arbLost (hall * 64) s.mem.losses asking index } }
      let t := ((t.count (0x7200 + hall) 3 waited).count (0xC190 + hall) 6 (asking.length - 1)).count (0xC190 + hall) 7 (b2n (decide (64 ≤ lost index)))
      t.access r x

/-- HBM_REQUEST_ADMITTED (R365). -/
def execHbmRequestAdmitted (hall index waited : Nat) (elapsed : Admission) (s : State) : Host.Outcome State Fault Refusal :=
  .next (keepMemory s (hbmRequestAdmitted hall index waited elapsed s))

/-! ### Merge entries (R383) -/

/-- Memory events that also count energy (R526). -/
def keepScrub (s t : State) : State := { keepMemory s t with power := t.power }

/-- A sector's entry may be written: it covers its sector, it is the oldest of a full buffer, or the beat that made it has ended its work. -/
def State.mergeDue (s : State) (done : Bool) (sector : Nat) : Bool :=
  let ps := s.mem.parts sector
  let mine := s.mem.entriesOf (channelOf sector)
  coversSector ps || (done && ps.any (fun e => e.owner == 0)) || (decide (64 ≤ mine.length) && mine.head? == some sector)

/-- MERGE_ENTRY_WRITE: the sector's entry, when it may be written. -/
def mergeEntryWrite (stack sector : Nat) (s : State) : State :=
  if stackOf (64 * sector) = stack ∧ s.mergeDue (s.allStill && s.work.engines.all (fun e => e.2.empty)) sector then s.flushSector sector else s

/-- MERGE_ENTRY_WRITE (R383). -/
def execMergeEntryWrite (stack sector : Nat) (s : State) : Host.Outcome State Fault Refusal :=
  .next { keepScrub s (mergeEntryWrite stack sector s) with work := (mergeEntryWrite stack sector s).work }

/-! ### The conservator (R385-R388) -/

/-- Sectors of a stack. -/
def stackSectors : Nat := stackBytes / 64

/-- The next written sector of a stack at or after a position (R385, R391). -/
def Mem.nextWritten (m : Mem) (stack pos : Nat) : Option Nat :=
  (m.valid.find? (fun e => decide (stack * stackSectors ≤ 64 * e.1) && decide (64 * e.1 < (stack + 1) * stackSectors) && decide (pos < 64 * e.1 + 64))).map
    (fun e => max pos (64 * e.1))

/-- The lap of a stack ends (R386). -/
def State.endLap (s : State) (stack : Nat) : State :=
  let t := ((s.count (0x7300 + stack) 3 1).setObj (0x7300 + stack) 4 (mget 0 s.mem.lapTime stack % 2 ^ 32)).setObj (0x7300 + stack) 5 0
  { t with mem := { t.mem with scrubPos := mset 0 t.mem.scrubPos stack 0, lapTime := mset 0 t.mem.lapTime stack 0
                               lapNoted := t.mem.lapNoted.filter (· != stack) } }

/-- An uncorrectable sector found by the conservator is left as it is (R388). -/
def State.scrubBad (s : State) (sector : Nat) : State :=
  let n := stackOf (64 * sector)
  ((s.count (0xC1D0 + n) 6 1).lastBad sector).raise 0x0C05 unitStack (n * 32 + pseudoOf (64 * sector)) none (leBytes 8 (64 * sector))

/-- The conservator reads one sector: corrections act on the log, a clean one frees its entry (R378, R385). -/
def State.scrubSector (s : State) (sector : Nat) (failed : Bool) : State :=
  let n := stackOf (64 * sector)
  let key := n * 32 + pseudoOf (64 * sector)
  let cs := s.mem.correctedIn sector
  let bs := s.mem.badIn sector
  let t := match cs with
    | [] => s
    | c :: _ => (s.count (0xC1D0 + n) 5 cs.length).hbmCorrected sector cs.length c.1 c.2
  let t := if bs ≠ [] || failed then t.scrubBad sector else t
  if cs = [] ∧ bs = [] ∧ !failed then { t with mem := { t.mem with logs := mset [] t.mem.logs key ((mget [] t.mem.logs key).filter (fun e => e.sector != sector)) } } else t

/-- SCRUB_READ: `elapsed` ms have passed since the conservator's last read of the stack. -/
def scrubRead (stack elapsed : Nat) (p : Parity) (s : State) : State :=
  if s.obj (0x7300 + stack) 1 = 0 || s.mem.selfRefresh then s
  else
    let t := s.upset p.upsets
    let t := { t with mem := { t.mem with lapTime := mset 0 t.mem.lapTime stack (mget 0 t.mem.lapTime stack + elapsed) } }
    match t.mem.nextWritten stack (max (mget 0 t.mem.scrubPos stack) (stack * stackSectors)) with
    | none => t.endLap stack
    | some x =>
      let t := ((t.parityRetries (64 * x) p).scrubSector x p.failed).powerCount stack 5 1
      let t := { t with mem := { t.mem with scrubPos := mset 0 t.mem.scrubPos stack (x + 1) } }
      t.setObj (0x7300 + stack) 5 ((x + 1 - stack * stackSectors) * 1000 / stackSectors)

/-- SCRUB_READ (R385). -/
def execScrubRead (stack elapsed : Nat) (parity : Parity) (s : State) : Host.Outcome State Fault Refusal :=
  .next (keepScrub s (scrubRead stack elapsed parity s))

/-- LAP_OVERDUE (R386): one record for a lap that runs longer than LAP_LIMIT. -/
def lapOverdue (stack seconds : Nat) (s : State) : State :=
  if seconds ≤ s.obj (0x7300 + stack) 6 ∨ s.mem.lapNoted.contains stack then s
  else State.raise { s with mem := { s.mem with lapNoted := s.mem.lapNoted ++ [stack] } } 0x0C07 unitStack (stack * 32) none
    (leBytes 1 stack ++ leBytes 4 seconds)

/-- LAP_OVERDUE (R386). -/
def execLapOverdue (stack seconds : Nat) (s : State) : Host.Outcome State Fault Refusal := .next (keepMemory s (lapOverdue stack seconds s))

/-- HALL_STORE_SCRUB_READ (R387): the next word of a hall store; a corrected word is written back at once. -/
def hallStoreScrubRead (hall : Nat) (p : Parity) (s : State) : State :=
  let t := s.upset p.upsets
  let pos := mget 0 t.mem.storePos hall
  let w := hallAddr hall / 8 + pos
  let t := { t with mem := { t.mem with storePos := mset 0 t.mem.storePos hall ((pos + 1) % (hallSize / 8)) } }
  let t := t.powerCount hall 3 1
  if t.mem.unwritten w then t
  else match t.mem.read w with
    | .corrected d _ =>
      let u := { t with mem := (t.mem.putBytes (8 * w) (leBytes 8 d)).putCheck w (BitVec.ofNat 8 (secded d)) }
      (u.count (0xC1E0 + hall) 1 1).raise 0x0C03 unitHall hall none (u.sramDetail (8 * w))
    | _ => t

/-- HALL_STORE_SCRUB_READ (R387). -/
def execHallStoreScrubRead (hall : Nat) (parity : Parity) (s : State) : Host.Outcome State Fault Refusal :=
  .next (keepScrub s (hallStoreScrubRead hall parity s))

end Sys2Proof.Machine
end

