-- ==== Sys2Proof/Machine/Router.lean ====
section
/-! DEFINITION. The router (13_torus_links.md): flits received (R417, R421), routing (R428-R433), forwarding (R423), and the broadcasts that change its maps (R431, R572, R577). -/

namespace Sys2Proof.Machine

open Sys2Proof

/-! ### Flits received (R417, R421) -/

/-- An acknowledgement frees the flits up to it. -/
def State.ackFlits (s : State) (d ack : Nat) : State := match (s.door d).window.findIdx? (fun e => e.1 == ack) with
  | some i => s.setDoor d { s.door d with window := (s.door d).window.drop (i + 1) }
  | none => s

/-- Put a flit into an input buffer. -/
def State.queueFlit (s : State) (port channel : Nat) (f : Flit) : State :=
  { s with torus := { s.torus with inputs := mset [] s.torus.inputs (port * 8 + channel) (mget [] s.torus.inputs (port * 8 + channel) ++ [f]) } }

/-- A door holds part of a packet. -/
def State.hasJoin (s : State) (d packet : Nat) : Bool := (s.door d).joins.any (fun j => j.packet == packet)

/-- The door whose packet a flit belongs to: its own, or the door of the bundle it was resumed from (R421); none for a flit of no packet known, all of which has come before. -/
def State.packetDoor (s : State) (d packet : Nat) (head : Bool) : Option Nat :=
  let other := (s.bundle (dirOf d)).find? (fun e => e != d && s.hasJoin e packet && (s.doorState e != 6 || !head))
  if s.hasJoin d packet && !head then some d
  else match other with
    | some e => some e
    | none => if head then some d else none

/-- Take a data flit into its packet, or drop it as a duplicate (R421); numbers of the last 192 packets are kept. -/
def State.joinFlit (s : State) (d : Nat) (f : Flit) : State := match s.packetDoor d f.packet f.head with
  | none => s.count (0xC200 + d) 8 1
  | some e =>
    let js := (s.door e).joins
    match js.find? (fun j => j.packet == f.packet && !(e == d && f.head)) with
    | some j =>
      if j.have_.contains f.index then s.count (0xC200 + d) 8 1
      else State.queueFlit (s.setDoor e { s.door e with joins := updFirst (fun (x : Join) => x.packet == f.packet) (fun x => { x with have_ := x.have_ ++ [f.index] }) js }) e f.vc f
    | none =>
      let rest := js.filter (fun j => j.packet != f.packet)
      State.queueFlit (s.setDoor e { s.door e with joins := rest.drop (rest.length - 191) ++ [{ packet := f.packet, have_ := [f.index] }] }) e f.vc f

/-- The flit that 256 bytes hold. -/
def flitOf (b : List Byte) : Flit :=
  { kind := 1, vc := flitBits b 21 19, head := flitBits b 22 22 = 1, tail := flitBits b 23 23 = 1, packet := flitBits b 46 35, index := flitBits b 50 47, bytes := flitData b }

/-- Take an accepted flit (R415, R417), a codeword of which may have been lost (R413). -/
def State.acceptFlit (s : State) (d : Nat) (b : List Byte) (lost : Bool) : State :=
  let t := s.setDoor d { s.door d with expect := ((s.door d).expect + 1) % 256, nak := false }
  let t := t.count (0xC200 + d) 2 1
  let t := if flitBits b 18 17 = 1 then t.joinFlit d { flitOf b with lost := lost } else t
  (flitFrames b).foldl (fun t f => t.queueFlit d 0 (frameFlit f)) t

/-- FLIT_RECEIVED (R417). -/
def flitReceived (d : Nat) (b : List Byte) (fixed lost : Nat) (s : State) : State :=
  let s := (s.count (0xC200 + d) 5 fixed).count (0xC200 + d) 6 lost
  let kind := flitBits b 18 17
  if s.doorState d ≠ 6 then s
  else if !flitGood b then State.answer ((s.count (0xC200 + d) 3 1).setDoor d { s.door d with nak := true }) d
  else if kind = 2 then s
  else
    let t := s.ackFlits d (flitBits b 15 8)
    let x := t.door d
    let t := t.setDoor d { x with credits := bump x.credits (flitBits b 28 26) (flitBits b 34 29) }
    let t := if flitBits b 16 16 = 1 then t.resendWindow d else t
    let t := if kind = 0 then t
      else if flitBits b 7 0 = (t.door d).expect then (t.acceptFlit d b (decide (0 < lost))).answer d
      else State.answer (t.setDoor d { t.door d with nak := true }) d
    (t.drainDoor d).powerCount (8 + d / 2) 6 1

/-- FLIT_RECEIVED (R417). -/
def execFlitReceived (door : Nat) (flit : List Byte) (fecCorrected fecUncorrectable : Nat) (s : State) : Host.Outcome State Fault Refusal :=
  .next (keepLink s (flitReceived door flit fecCorrected fecUncorrectable s))

/-! ### Routes (R428-R432) -/

/-- A hop crosses the dateline of its ring (R429). -/
def State.crossesDateline (s : State) (dev dir : Nat) : Bool := match dir with
  | 0 => devX dev + 1 == s.torusX
  | 1 => devX dev == 0
  | 2 => devY dev + 1 == s.torusY
  | _ => devY dev == 0

/-- Where a packet goes from here. -/
inductive Route where
  | deliver
  | discard
  | hop (dir vc : Nat) (detour : Bool)
deriving DecidableEq, Repr

/-- The next hop of a packet or frame (R428-R432): `from_` the door it came through, `cls` its channel or class, `ship` an outbound shipment, `low` the first channel of a dimension, `yFirst` ROUTE_YX. -/
def State.routeFrom (s : State) (from_ : Option Nat) (dest cls low : Nat) (ship yFirst : Bool) : Route :=
  let me := s.device
  if !s.torusIds.contains dest || !s.present dest then .discard
  else if dest = me then .deliver
  else
    let y := if yFirst then devY dest != devY me else devX dest == devX me
    let q := ringPos dest y
    let going := match from_ with
      | some d => if decide (2 ≤ dirOf d) == y then some (opposite (dirOf d)) else none
      | none => none
    let enter := match s.enterRing me q y ship with
      | none => Route.discard
      | some (dir, det) =>
        let vc := if cls = 3 then 3 else if ship then (if det then 1 else 4) else low
        .hop dir (if s.crossesDateline me dir && vc == low && vc != 3 then low + 1 else vc) det
    match going with
    | some dir =>
      if s.cutFrom me dir || !s.present (s.neighbourOf me dir) then enter
      else .hop dir (if s.crossesDateline me dir && cls == low then low + 1 else cls) false
    | none => enter

/-! ### Forwarding (R422, R423, R433) -/

/-- Take the flit at the head of an input buffer; a door's far end gets its credit back (R426). -/
def State.popInput (s : State) (port channel : Nat) : State :=
  let k := port * 8 + channel
  let t := { s with torus := { s.torus with inputs := mset [] s.torus.inputs k ((mget [] s.torus.inputs k).drop 1) } }
  if 16 ≤ port then t
  else
    let d := if t.doorState port = 6 then some port else t.upDoor (dirOf port)
    match d with
    | some d => State.answer (t.setDoor d { t.door d with returns := bump (t.door d).returns channel 1 }) d
    | none => t

/-- The door of a direction's bundle that is UP with the fewest flits waiting, the lowest among equals (R428). -/
def State.outDoor (s : State) (dir : Nat) : Option Nat :=
  let waits := fun d => (s.door d).queue.length + (s.door d).window.length
  (s.bundle dir).foldl (fun b d =>
    if s.doorState d ≠ 6 then b
    else match b with
      | some c => if waits d < waits c || (waits d == waits c && decide (d < c)) then some d else some c
      | none => some d) none

/-- A door can take a flit now. -/
def State.doorTakes (s : State) (d vc : Nat) : Bool := (s.door d).queue.isEmpty && (s.door d).room vc

/-- An undeliverable packet: counted, with its record (R432). -/
def State.undeliverable (s : State) (source dest vc type : Nat) : State :=
  (s.count 0xC210 2 1).raise 0x0D05 unitRouter 0 none (leBytes 1 source ++ leBytes 1 dest ++ leBytes 1 vc ++ leBytes 1 type)

/-- Set or clear what the packet at an input holds. -/
def State.setHold (s : State) (port channel v : Nat) : State :=
  { s with torus := { s.torus with holds := mset 0 s.torus.holds (port * 8 + channel) v } }

/-- Directions in which a broadcast frame that came through a door goes on (R433): along the X ring, and along each Y ring from the source's row; each device is served by the way routing takes from the source. -/
def State.broadcastOn (s : State) (from_ : Nat) (source : Nat) : List Nat :=
  let me := s.device
  let dir := opposite (dirOf from_)
  let y := decide (2 ≤ dir)
  let n := s.ringSize y
  let p := ringPos me y
  let start := if y then devAt (devX me) (devY source) else source
  let serves := fun (q : Nat) => match s.enterRing start q y false with
    | some r => r.1 == dir
    | none => false
  let plus := dir % 2 == 0
  let far := hopsTo n (ringPos start y) p plus
  let further := (List.range n).any (fun q => decide (far < hopsTo n (ringPos start y) q plus) && serves q)
  let onward := if further then [dir] else []
  let column := [2, 3].filter (fun yd => (List.range s.torusY).any (fun q => q != devY me && (match s.enterRing me q true false with
    | some r => r.1 == yd
    | none => false)))
  if y then onward else if serves p then onward ++ column else onward

/-- The outputs that the courier frame at an input takes (R433): direction, class and door of each; nothing where a bundle it needs has no door UP, or where it goes no further. -/
def State.frameOuts (s : State) (port : Nat) (f : Flit) : List (Nat × Nat × Nat) :=
  let w := leAt f.bytes 0 8
  if bits w 14 14 = 1 then
    if 16 ≤ port then []
    else
      let dirs := s.broadcastOn port (bits w 11 6)
      let outs := dirs.filterMap (fun dir => (s.outDoor dir).map (fun d => (dir, if decide (2 ≤ dir) == decide (2 ≤ dirOf port) then bits w 12 12 else 0, d)))
      if outs.length = dirs.length then outs else []
  else match s.routeFrom (if port < 16 then some port else none) (bits w 5 0) (bits w 12 12) 0 false (bits w 13 13 == 1) with
    | .hop dir cls _ => ((s.outDoor dir).map (fun d => (dir, cls, d))).toList
    | _ => []

/-- The route of the data flit at an input whose packet holds no output yet: its head flit's. -/
def State.headRoute (s : State) (port : Nat) (f : Flit) : Route :=
  let w := leAt f.bytes 0 4
  s.routeFrom (if port < 16 then some port else none) (bits w 5 0) f.vc 1 (bits w 23 16 == 3) false

/-- The output doors and channels that the flit or frame at an input asks for (R423). -/
def State.wants (s : State) (port channel : Nat) (f : Flit) : List (Nat × Nat) :=
  let held := mget 0 s.torus.holds (port * 8 + channel)
  if f.kind = 3 then (s.frameOuts port f).map (fun o => (o.2.2, 0))
  else if 2 ^ 30 ≤ held then []
  else if 0 < held then [((held - 1) % 256 / 8, (held - 1) % 8)]
  else match s.headRoute port f with
    | .hop dir vc _ => ((s.outDoor dir).map (fun d => (d, vc))).toList
    | _ => []

/-- An output channel can take a flit of the input now: the door has room, and no other packet holds the channel (R423, R426). -/
def State.outputFree (s : State) (k : Nat) (o : Nat × Nat) : Bool :=
  s.doorState o.1 == 6 && s.doorTakes o.1 o.2 &&
    !s.torus.holds.any (fun e => e.1 != k && decide (e.2 < 2 ^ 30) && (e.2 - 1) % 256 == o.1 * 8 + o.2)

/-- The inputs that could move now, by port and channel, with the outputs they ask for. -/
def State.askers (s : State) : List ((Nat × Nat) × List (Nat × Nat)) :=
  s.torus.inputs.filterMap (fun e => match e.2 with
    | [] => none
    | f :: _ =>
      let ws := s.wants (e.1 / 8) (e.1 % 8) f
      if ws ≠ [] ∧ ws.all (s.outputFree e.1) then some ((e.1 / 8, e.1 % 8), ws) else none)

/-- Channels VC1-VC4 asked for at a door, by index, and the ports that ask for a channel of it (R425). -/
def channelsAt (asks : List ((Nat × Nat) × List (Nat × Nat))) (d : Nat) : List Nat :=
  ((asks.flatMap (fun a => (a.2.filter (fun o => o.1 == d && o.2 != 0)).map (fun o => o.2 - 1)))).eraseDups
def portsAt (asks : List ((Nat × Nat) × List (Nat × Nat))) (o : Nat × Nat) : List Nat := ((asks.filter (fun a => a.2.contains o)).map (fun a => a.1.1)).eraseDups

/-- Where the losses of an output channel's inputs are kept. -/
def inputBase (o : Nat × Nat) : Nat := 1024 + (o.1 * 8 + o.2) * 32

/-- Courier frames that wait for a door and that a data flit for it has marked sectors for, at corridor 1.1 (R415, R425): input port, frame. Those that go to more doors than this travel alone. -/
def State.riders (s : State) (d : Nat) (f : Flit) : List (Nat × Flit) :=
  if s.obj (doorAcc d) 5 = 0x0100 then []
  else
    let ps := (s.askers.filter (fun a => a.2 == [(d, 0)])).map (fun a => a.1.1)
    let ps := sortBy (fun a b => decide (arbKey s.beatNo 25 a ≤ arbKey s.beatNo 25 b)) ps
    (ps.take (min f.sectors (((s.door d).credits[0]?).getD 0))).filterMap (fun p => ((mget [] s.torus.inputs (p * 8)).head?).map (fun x => (p, x)))

/-- An input is granted an output (R425): VC0 before the rest, which wait for it unless its frames ride along; the other channels by R248 with N = 4; the inputs of one channel by R248 with N = 25; R249 over both. -/
def State.granted (s : State) (port : Nat) (f : Flit) (o : Nat × Nat) : Bool :=
  let asks := s.askers
  arbFirst s.beatNo 25 (fun j => mget 0 s.torus.losses (inputBase o + j)) (portsAt asks o) port &&
    (o.2 == 0 || ((portsAt asks (o.1, 0) == [] || s.riders o.1 f != []) &&
      arbFirst s.beatNo 4 (fun j => mget 0 s.torus.losses (o.1 * 8 + j)) (channelsAt asks o.1) (o.2 - 1)))

/-- The flit or frame at an input may move: it wins every output it asks for. -/
def State.mayMove (s : State) (port channel : Nat) (f : Flit) : Bool :=
  let ws := s.wants port channel f
  ws.all (s.outputFree (port * 8 + channel)) && ws.all (s.granted port f)

/-- Count a grant at an output: who has lost, and for hall ports the counters of R251. -/
def State.noteGrant (s : State) (port : Nat) (asks : List ((Nat × Nat) × List (Nat × Nat))) (o : Nat × Nat) : State :=
  let ps := portsAt asks o
  let m := arbLost (inputBase o) s.torus.losses ps port
  let m := if o.2 = 0 then m else arbLost (o.1 * 8) m (channelsAt asks o.1) (o.2 - 1)
  let halls := ps.filter (fun p => p != port && decide (16 ≤ p) && decide (p < 24))
  let t := halls.foldl (fun (t : State) p => t.count (0xC190 + (p - 16)) 6 1) { s with torus := { s.torus with losses := m } }
  if 16 ≤ port ∧ port < 24 ∧ 64 ≤ mget 0 s.torus.losses (inputBase o + port) then t.count (0xC190 + (port - 16)) 7 1 else t

/-- A frame as it leaves in a direction: CLASS changes at a dateline (R429, R433). -/
def State.frameOn (s : State) (f : Flit) (dir cls : Nat) : List Byte :=
  leBytes 8 (setBits (leAt f.bytes 0 8) 12 12 (if s.crossesDateline s.device dir then 1 else cls)) ++ f.bytes.drop 8

/-- Send a data flit on a door under a packet number of that door, with the courier frames that ride in it. -/
def State.sendOn (s : State) (port channel d vc packet : Nat) (f : Flit) : State :=
  let rs := s.riders d f
  let frames := rs.flatMap (fun r => (s.frameOuts r.1 r.2).map (fun o => s.frameOn r.2 o.1 o.2.1))
  let t := rs.foldl (fun (t : State) r => (t.popInput r.1 0).noteGrant r.1 s.askers (d, 0)) s
  let t := (t.popInput port channel).sendNumbered d { f with vc := vc, packet := packet, frames := frames, lost := false }
  (if port < 16 then t.count 0xC210 3 1 else t).noteGrant port s.askers (d, vc)

/-- A flit of the beat's inbound data has come whose codeword was lost (R83, log entry 207). -/
def State.inbound (s : State) (f : Flit) : State :=
  if f.lost && !s.beat.committed && !s.beat.dead then s.failCheck .inbound else s

/-- Forward the data flit at the head of an input (R423): a head flit chooses the output, which its packet holds until the tail has left. -/
def State.forwardData (s : State) (port channel : Nat) (f : Flit) : State :=
  let held := mget 0 s.torus.holds (port * 8 + channel)
  let after := fun (t : State) (v : Nat) => t.setHold port channel (if f.tail then 0 else v)
  if held = 2 ^ 30 then after (s.popInput port channel) held
  else if held = 2 ^ 31 then after ((s.popInput port channel).inbound f) held
  else if s.mayMove port channel f = false then s
  else if 0 < held then after (s.sendOn port channel ((held - 1) % 256 / 8) ((held - 1) % 8) ((held - 1) / 256) f) held
  else
    let w := leAt f.bytes 0 4
    let type := bits w 23 16
    match s.headRoute port f with
    | .deliver => if [1, 2, 6].contains type then after ((s.popInput port channel).inbound f) (2 ^ 31) else after (s.popInput port channel) (2 ^ 30)
    | .discard => after ((s.popInput port channel).undeliverable (bits w 11 6) (bits w 5 0) f.vc type) (2 ^ 30)
    | .hop dir vc detour => match s.outDoor dir with
      | none => s
      | some d =>
        let id := (s.door d).pktId
        let t := s.sendOn port channel d vc id f
        let t := t.setDoor d { t.door d with pktId := (id + 1) % 4096 }
        after (if detour then t.count 0xC210 1 1 else t) (1 + d * 8 + vc + 256 * id)

/-- Forward the courier frame at the head of an input (R433), to every output it takes at once. -/
def State.forwardFrame (s : State) (port : Nat) (f : Flit) : State :=
  let w := leAt f.bytes 0 8
  let outs := s.frameOuts port f
  let go := fun (t : State) => outs.foldl (fun t o =>
    (t.sendNumbered o.2.2 { f with vc := 0, bytes := t.frameOn f o.1 o.2.1 }).noteGrant port s.askers (o.2.2, 0)) (t.popInput port 0)
  if bits w 14 14 = 1 then
    if 16 ≤ port ∨ ((s.broadcastOn port (bits w 11 6)) ≠ [] ∧ outs = []) ∨ s.mayMove port 0 f = false then s else go s
  else match s.routeFrom (if port < 16 then some port else none) (bits w 5 0) (bits w 12 12) 0 false (bits w 13 13 == 1) with
    | .deliver => s.popInput port 0
    | .discard => (s.popInput port 0).undeliverable (bits w 11 6) (bits w 5 0) 0 (bits w 23 16)
    | .hop _ _ detour => if outs = [] ∨ s.mayMove port 0 f = false then s else go (if detour then s.count 0xC210 1 1 else s)

/-- The flits of a packet of this package (R416). -/
def packetFlits (route : Nat) (channel : Nat) (payload : List Byte) : List Flit :=
  let cs := chunksOf 244 (leBytes 4 route ++ payload)
  (cs.zipIdx).map (fun c => { kind := 1, vc := channel, head := c.2 == 0, tail := c.2 + 1 == cs.length, packet := 0, index := c.2, bytes := c.1 })

/-- Bring the package's next packet to an input port, when it is on the channel. -/
def State.loadPacket (s : State) (port channel : Nat) : State :=
  match findIdxVal (fun o => match o with | Out.packet .. => true | _ => false) (s.out.drop s.torus.taken) with
  | some (i, .packet dest wing type ch payload) =>
    if ch = channel then
      { s with torus := { s.torus with taken := s.torus.taken + i + 1
                                       inputs := mset [] s.torus.inputs (port * 8 + channel)
                                         ((packetFlits (dest % 64 + s.device * 2 ^ 6 + wing % 16 * 2 ^ 12 + type % 256 * 2 ^ 16) ch payload).map
                                           (fun f => { f with owner := mget 0 s.power.owners (s.torus.taken + i) })) } }
    else s
  | _ => s

/-- ROUTER_FORWARD (R423): the flit or frame at the head of an input moves on, if its output can take it. -/
def routerForward (port channel : Nat) (s : State) : State :=
  if !s.torus.forwarding then s
  else
    let k := port * 8 + channel
    let t := if 16 ≤ port ∧ mget [] s.torus.inputs k = [] then s.loadPacket port channel else s
    match mget [] t.torus.inputs k with
    | [] => t
    | f :: _ => if f.kind = 3 then t.forwardFrame port f else t.forwardData port channel f

/-- ROUTER_FORWARD (R423). -/
def execRouterForward (port channel : Nat) (s : State) : Host.Outcome State Fault Refusal := .next (keepLink s (routerForward port channel s))

/-! ### The maps (R431, R572) -/

/-- LINK_CUT (R431). -/
def execLinkCut (device : Nat) (yLink : Bool) (s : State) : Host.Outcome State Fault Refusal := .next (keepBeat s (s.applyCut device yLink))

/-- A wing's running job gives a program to a slot of a device (R572). -/
def State.jobOn (s : State) (w device : Nat) : Bool := match (s.wing w).job with
  | some j => match s.image w j.image with
    | some i => Config.runsOn i.bytes device
    | none => false
  | none => false

/-- Take a device out of the map (R431, R469, R572): groups through it break, and the wings whose jobs use it get PACKAGE_LOST. -/
def State.loseDevice (s : State) (device : Nat) : State :=
  if device = s.device || !s.present device then s
  else
    let t := (s.setPresent device false).breakGroups (fun g => g.path.contains device) device
    ((List.range 16).filter (fun w => s.jobOn w device)).foldl (fun t w => t.raise 0x3503 unitWing w (some w) (leBytes 1 device)) t

/-- DEVICE_MISSING (R431). -/
def execDeviceMissing (device : Nat) (s : State) : Host.Outcome State Fault Refusal := .next (keepBeat s (s.loseDevice device))

/-- NEIGHBOUR_SILENT (R431). -/
def neighbourSilent (dir : Nat) (s : State) : State :=
  let n := s.neighbourOf s.device dir
  if n = s.device || !s.present n then s
  else ((s.courier none (.deviceMissing n)).raise 0x0D04 unitPackage 0 none (leBytes 1 n)).loseDevice n

/-- NEIGHBOUR_SILENT (R431). -/
def execNeighbourSilent (direction : Nat) (s : State) : Host.Outcome State Fault Refusal := .next (keepBeat s (neighbourSilent direction s))

/-- LINK_RESTORED (R431): a device, or one of its links. -/
def linkRestored (device : Nat) (link : Option Bool) (s : State) : State := match link with
  | some y => s.setCut device y false
  | none => s.setPresent device true

/-- LINK_RESTORED (R431). -/
def execLinkRestored (device : Nat) (link : Option Bool) (s : State) : Host.Outcome State Fault Refusal :=
  .next (keepBeat s (linkRestored device link s))

/-- ERROR_RECORD_ANNOUNCEMENT (R577): written here as it is, with this ring's own NUMBER; its wing becomes fatal here too (R567). A paused curator's records are held (R582). -/
def errorAnnouncement (record : List Byte) (s : State) : State :=
  let r := ErrRec.ofBytes record
  let t := if s.obj 0x5300 2 = 1 then { s with cur := { s.cur with heldRecords := s.cur.heldRecords ++ [r] } } else s.placeRecord r
  match classOf r.code, r.wing with
  | 3, some w => t.wingFatal w r.code r.device
  | _, _ => t

/-- ERROR_RECORD_ANNOUNCEMENT (R577). -/
def execErrorRecordAnnouncement (record : List Byte) (s : State) : Host.Outcome State Fault Refusal :=
  .next (keepBeat s (errorAnnouncement record s))

end Sys2Proof.Machine
end

