-- ==== Sys2Proof/Machine/Start.lean ====
section
/-! DEFINITION. Start, resets, the orderly stop and its self-test, the condition report (19_startup_selftest.md), identity at start (R602-R605), the torus left behind (R571, R595), loss of the reference clock (R632), the PCIe link (R498). -/

namespace Sys2Proof.Machine

open Sys2Proof

/-! ### Sets of blocks -/

/-- Bits of x that are not in y. -/
def bitsLess (x y : Nat) : Nat := x ^^^ (x &&& y)

/-- Two lists of bit sets, place by place, over n places. -/
def zipBits (n : Nat) (f : Nat → Nat → Nat) (a b : List Nat) : List Nat := (List.range n).map (fun i => f ((a[i]?).getD 0) ((b[i]?).getD 0))

/-- Combine two sets of blocks. -/
def Blocks.zip (f : Nat → Nat → Nat) (a b : Blocks) : Blocks :=
  { cores := zipBits 8 f a.cores b.cores, stores := f a.stores b.stores, hbmStacks := f a.hbmStacks b.hbmStacks, routers := f a.routers b.routers
    fabrics := f a.fabrics b.fabrics, doors := f a.doors b.doors, lanes := zipBits 16 f a.lanes b.lanes }

/-- No block. -/
def Blocks.none : Blocks := { cores := [], stores := 0, hbmStacks := 0, routers := 0, fabrics := 0, doors := 0, lanes := [] }

/-- How many blocks a set holds. -/
def Blocks.size (b : Blocks) : Nat :=
  (b.cores.map (popcount 42)).sum + popcount 8 b.stores + popcount 8 b.hbmStacks + popcount 8 b.routers + popcount 8 b.fabrics + popcount 16 b.doors +
    (b.lanes.map (popcount 9)).sum

/-! ### The condition report (R600) -/

/-- Bytes 0-447 of a report; `sectors` are failed sectors by stack. -/
def State.reportBody (s : State) (kind status time : Nat) (failed unusable : Blocks) (sectors : List Nat) : List Byte :=
  leBytes 4 0x434F4E44 ++ leBytes 2 0x0200 ++ leBytes 2 512 ++ leBytes 16 (s.obj 0x1000 5) ++ leBytes 4 (s.obj 0xA000 4) ++ leBytes 4 (s.obj 0x1000 9) ++
    leBytes 1 kind ++ leBytes 1 status ++ leBytes 2 (s.cur.sample % 8) ++ leBytes 4 time ++ leBytes 8 s.cur.stopBeat ++
    (List.range 8).flatMap (fun h => leBytes 8 ((failed.cores[h]?).getD 0)) ++ (List.range 8).flatMap (fun h => leBytes 8 ((unusable.cores[h]?).getD 0)) ++
    leBytes 1 unusable.stores ++ leBytes 1 unusable.hbmStacks ++ leBytes 1 unusable.routers ++ leBytes 1 unusable.fabrics ++ leBytes 2 unusable.doors ++
    leBytes 2 0 ++ (List.range 16).flatMap (fun d => leBytes 2 ((unusable.lanes[d]?).getD 0)) ++
    (List.range 8).flatMap (fun n => leBytes 4 ((sectors[n]?).getD 0)) ++ (List.range 8).flatMap (fun n => leBytes 2 (s.obj (0x7300 + n) 7)) ++
    List.replicate 184 0

/-- The unusable sets that a report holds. -/
def Blocks.ofReport (r : List Byte) : Blocks :=
  { cores := (List.range 8).map (fun h => leAt r (112 + 8 * h) 8), stores := leAt r 176 1, hbmStacks := leAt r 177 1, routers := leAt r 178 1
    fabrics := leAt r 179 1, doors := leAt r 180 2, lanes := (List.range 16).map (fun d => leAt r (184 + 2 * d) 2) }

/-- A report passes every check of R590 but that of START_COUNT. -/
def State.reportGood (s : State) (r : List Byte) : Bool :=
  r.length == 512 && leAt r 4 2 == 0x0200 && leAt r 8 16 == s.obj 0x1000 5 && ecdsaVerify (publicKey s.sec.deviceKey) (r.take 448) (r.drop 448)

/-- START_COUNT of a report, plus one; 0 for an area that holds none. -/
def reportCount (r : List Byte) : Nat := if r.length = 512 then leAt r 24 4 + 1 else 0

/-- The newest of some reports, by START_COUNT. -/
def newestReport (l : List (List Byte)) : Option (List Byte) := l.foldl (fun b r => match b with
  | some x => if reportCount x < reportCount r then some r else some x
  | none => some r) none

/-- The unusable sets that this stop leaves (R598): failed now, retired or failed in service, and those of before unless a tested stop returns them. -/
def State.unusableAfter (s : State) (tested : Bool) (failed : Blocks) : Blocks :=
  let prev := s.cur.unusable
  let service : Blocks := { Blocks.none with
    cores := (List.range 8).map (fun h => bitsLess (s.obj 0x2008 (h + 1)) ((prev.cores[h]?).getD 0))
    lanes := (List.range 16).map (fun d => bitsLess (s.obj (doorAcc d) 7) ((prev.lanes[d]?).getD 0)) }
  let kept := if tested && s.obj 0xA000 8 == 1 then Blocks.none else prev
  Blocks.zip (· ||| ·) (Blocks.zip (· ||| ·) failed service) kept

/-- The report is formed and signed (R599, R600). -/
def State.formReport (s : State) (status time : Nat) (failed : Blocks) (sectors : List Nat) : State :=
  let b := s.reportBody s.cur.stopKind status time failed (s.unusableAfter (status == 0) failed) sectors
  let r := Config.freeRandom s.free
  { s with free := s.free + 1, cur := { s.cur with newReport := b ++ ecdsaSign s.sec.deviceKey r b } }

/-! ### Identity (R602-R605, R620) -/

/-- CDI of the first layer: the fused seed, or zeros under the seed lock (R619). -/
def State.cdi0 (s : State) : List Byte :=
  hmac (if s.sec.seedLock then List.replicate 32 0 else beBytes 32 Config.deviceSeed) (beBytes 32 Config.romDigest)

/-- The ROM derives the DeviceID key (R603). -/
def State.deriveDevice (s : State) : State := { s with sec := { s.sec with deviceKey := keyOfCdi s.cdi0 "rijor-devid" } }

/-- The Alias key of the running image (R603). -/
def State.deriveAlias (s : State) (digest : Nat) : State :=
  let cdi1 := hmac s.cdi0 (beBytes 32 digest)
  { s with sec := { s.sec with digest := digest, cdi1 := cdi1, aliasKey := keyOfCdi cdi1 "rijor-alias" } }

/-! ### Firmware slots at boot (R588) -/

/-- A firmware slot: 0 is A, 1 is B. -/
def State.slot (s : State) (k : Nat) : FwSlot := if k = 0 then s.flash.slotA else s.flash.slotB
def State.setSlot (s : State) (k : Nat) (x : FwSlot) : State :=
  { s with flash := if k = 0 then { s.flash with slotA := x } else { s.flash with slotB := x } }

/-- The signature and the rollback counter allow a slot's image (R607). -/
def State.slotPasses (s : State) (k : Nat) : Bool :=
  (s.slot k).status == 1 && decide (s.sec.rollback ≤ (s.slot k).svn) && !bitOf s.sec.revoked (s.slot k).key

/-- The slot the ROM boots: the last confirmed one, else the other; never one in trial (R588). -/
def State.bootChoice (s : State) : Option Nat :=
  (if s.flash.slotB.confirmed then [1, 0] else [0, 1]).find? (fun k => s.slotPasses k && !(s.slot k).trial)

/-- The image of a slot runs. -/
def State.runSlot (s : State) (k : Nat) : State :=
  (((s.setObj 0x1000 0xA k).setObj 0x1000 9 (s.slot k).version)).deriveAlias (s.slot k).digest

/-! ### The start sequence (R587-R593) -/

/-- FAULT_N is low while PACKAGE_STATE is 1, REMOVE_OK high while it is 3 (R633): a reset that ends the state releases the pin. -/
def State.releasePins (s : State) : State := match s.obj 0x5000 8 with
  | 1 => s.send (.pin "FAULT_N" true)
  | 3 => s.send (.pin "REMOVE_OK" false)
  | _ => s

/-- Everything a reset clears is at its reset value; the queue, the model's own counters, the flash, the fuses, and what stands outside the package are kept (R594). A reset that is no cold start keeps the seed lock and debug state. -/
def State.cleared (s : State) (cold : Bool) : State :=
  { pending := s.pending, free := s.free, out := s.releasePins.out
    flash := { s.flash with queue := [] }
    sec := { rollback := s.sec.rollback, revoked := s.sec.revoked, seedLock := s.sec.seedLock && !cold, debug := s.sec.debug && !cold }
    pins := { s.pins with coolantSeen := s.pins.coolantOk, coolantLow := false }
    torus := { lasers := s.torus.lasers.map (fun e => (e.1, { e.2 with enabled := false })) } }

/-- Restore the persistent objects and the remap tables, or rewrite a store of another layout (R31); the torus settings come into force (R64). -/
def State.restorePersistent (s : State) : State :=
  let t := if s.flash.layout = 4 then s else { s with flash := { s.flash with store := [], domains := [], remap := [], layout := 4, badCopies := [] } }
  let good := t.flash.store.filter (fun e => !t.flash.badCopies.contains e.1)
  let t := good.foldl (fun t e => t.setObj (e.1 / 256) (e.1 % 256) (e.2 - 1)) t
  let t := { t with mem := { t.mem with remap := t.flash.remap }, torus := { t.torus with shapeX := t.obj 0x2100 1, shapeY := t.obj 0x2100 2 } }
  (t.setObj 0x1000 7 (t.obj 0x2100 3)).setObj 0x1000 8 (t.obj 0x2100 4)

/-- A value in the flash store: a good copy, whatever the one before it was (R31). -/
def State.storeNow (s : State) (key v : Nat) : State :=
  { s with flash := { s.flash with store := mset 0 s.flash.store key (v + 1), badCopies := s.flash.badCopies.filter (· != key) } }

/-- START_COUNT counts this start (R587). -/
def State.countStart (s : State) : State :=
  let n := (s.obj 0xA000 4 + 1) % 2 ^ 32
  (s.setObj 0xA000 4 n).storeNow (objKey 0xA000 4) n

/-- Bind the usable cores in ascending order: slots, the spare-ready reserve, the rotation reserve (R170, R172). -/
def State.bindHall (s : State) (h : Nat) : State :=
  let bad := s.obj 0x2008 (h + 1)
  let l := (List.range 42).filter (fun c => !bitOf bad c)
  let t := (List.range 42).foldl (fun t i => t.put (0x2000 + h) (i + 1) ((l[i]?).getD 0xFF)) s
  (List.range 42).foldl (fun t c =>
    let i := l.findIdx (· == c)
    t.setCoreState h c (if bitOf bad c then 4 else if i < 40 then 0 else if i = 40 then 1 else 2)) t

/-- The six domains of the system die, whose ROM runs first (R17, R588). -/
def systemDie : NMap := (List.range 6).map (fun i => (560 + i, 1))

/-- Power domains that a start switches on: those that hold no unusable block (R17, R591); the fabrics need no switching (R12). -/
def State.domainsAtStart (s : State) : NMap :=
  let u := s.cur.unusable
  let cores := (List.range 8).flatMap (fun h => ((List.range 42).filter (fun c => !bitOf (s.obj 0x2008 (h + 1)) c)).map (fun c => slotKey h c))
  let halls := (List.range 8).flatMap (fun k =>
    (if bitOf u.stores k then [] else [512 + k]) ++ (if bitOf u.hbmStacks k then [] else [528 + k]) ++
      (if bitOf u.routers k then [] else [552 + k]))
  let doors := ((List.range 16).filter (fun d => s.obj (doorAcc d) 1 != 2 && !bitOf u.doors d)).map (536 + ·)
  (cores ++ halls ++ doors ++ (List.range 6).map (560 + ·)).foldl (fun m k => mset 0 m k 1) []

/-- Cores unusable at this start: their own, and all of a hall whose store is unusable (R593). -/
def State.markUnusable (s : State) : State :=
  (List.range 8).foldl (fun t h =>
    t.setObj 0x2008 (h + 1) (if bitOf s.cur.unusable.stores h then 2 ^ 42 - 1 else ((s.cur.unusable.cores[h]?).getD 0) % 2 ^ 42)) s

/-- Lasers that are seated are enabled (R591). -/
def State.enableLasers (s : State) : State := (List.range 4).foldl (fun t m => if (t.laser m).present then t.startLaser m else t) s

/-- Doors take their directions, and those in torus mode begin to train (R401, R409, R591). -/
def State.startDoors (s : State) : State :=
  (List.range 16).foldl (fun t d =>
    let t := t.setObj (doorAcc d) 3 (if t.obj (doorAcc d) 1 = 0 then dirOf d else 0xFF)
    if t.mayTrain d then t.startTraining d else t) { s with torus := { s.torus with forwarding := true } }

/-- Without coolant the package starts with compute stopped (R634). -/
def State.coolantAtStart (s : State) : State :=
  if s.pins.coolantOk then s
  else State.put { s with power := { s.power with coolStop := true }, cur := { s.cur with hallsStopped := true } } 0x4200 4 1

/-- The hardware is initialised (R591): domains, memories (R390, R391), pools (R315), cores (R170), lasers, doors. A package with a part of its fabric, router or address map unusable is fatal instead and joins no torus (R593). -/
def State.initialise (s : State) : State :=
  let t := s.markUnusable
  let u := t.cur.unusable
  let t := { t with cur := { t.cur with domains := t.domainsAtStart } }
  let t := (List.range 16).foldl (fun t w => State.setWing ((t.rebuildPool w).publishPool w) w { t.wing w with poolStale := false }) t
  let t := (List.range 8).foldl State.bindHall t
  let t := t.enableLasers
  if u.fabrics ≠ 0 ∨ u.routers ≠ 0 ∨ u.hbmStacks ≠ 0 then (if t.obj 0xA000 1 = 2 then t.put 0xA000 1 1 else t).packageFatal
  else (t.startDoors.coolantAtStart).put 0xA000 1 3

/-- The firmware runs (R590, R591): the last stop is judged by the newest report, unusable sets are taken, and the hardware is initialised, after a quick test where the last stop was unclean. -/
def State.firmwareStart (s : State) : State :=
  let t := s.put 0xA000 1 1
  let t := t.flash.badCopies.foldl (fun t k => t.raise (Config.restoreCode % 4096) unitSystem 0 none (leBytes 2 (k / 256))) t
  let good := [t.flash.report0, t.flash.report1].filter t.reportGood
  let from_ := newestReport good
  let valid := good.find? (fun r => (leAt r 24 4 + 1) % 2 ^ 32 == t.obj 0xA000 4)
  let t := t.setObj 0xA000 3 (match valid with
    | some r => if leAt r 33 1 = 0 then 0 else 1
    | none => 2)
  let t := match from_ with
    | some r => { t with cur := { t.cur with report := r, unusable := Blocks.ofReport r
                                             sample := ((leAt r 34 1) % 8 + (if leAt r 33 1 = 0 then 1 else 0)) % 8 } }
    | none => t
  if valid.isSome then t.initialise else t.put 0xA000 1 2

/-- Boot (R588) and what follows it: with no slot that passes, the ROM stays in service mode. -/
def State.startUp (s : State) (cold : Bool) : State :=
  let t := ({ s with cur := { s.cur with domains := systemDie } }.deriveDevice.restorePersistent).formAddress.programPhy.countStart
  let t := t.setObj 0xA000 2 (if cold then 0 else 1)
  let t := t.setObj 0xB000 1 (b2n t.sec.debug)
  let t := (t.setObj 0xB000 2 t.sec.rollback).setObj 0xB000 3 t.sec.revoked
  match t.bootChoice with
  | some k => (t.runSlot k).firmwareStart
  | none => t.put 0xA000 1 0x0F

/-! ### Resets (R587, R594, R630) -/

/-- RESET_N_RISE (R587): a cold start while the start flag is clear, else a warm start. -/
def resetNRise (s : State) : State :=
  if s.pins.resetN then s
  else
    let cold := !s.pins.startFlag
    let t := s.cleared cold
    State.startUp { t with pins := { t.pins with vddSys := true, resetN := true, startFlag := true } } cold

/-- RESET_N_RISE (R587). -/
def execResetNRise (s : State) : Host.Outcome State Fault Refusal := .next (keepQueue s (resetNRise s))

/-- RESET_N_FALL (R594): every domain is held in reset. -/
def resetNFall (s : State) : State :=
  if !s.pins.resetN then s
  else
    let t := s.cleared false
    { t with pins := { t.pins with resetN := false } }

/-- RESET_N_FALL (R594). -/
def execResetNFall (s : State) : Host.Outcome State Fault Refusal := .next (keepQueue s (resetNFall s))

/-- POWER_OFF (R587, R630): the start flag is clear and THERMTRIP_N released; nothing is left but the flash and the fuses. -/
def powerOff (s : State) : State :=
  let t := s.cleared true
  let t := if s.pins.thermtripN then t else t.send (.pin "THERMTRIP_N" true)
  { t with pins := { t.pins with vddSys := false, resetN := false, startFlag := false, thermtripN := true } }

/-- POWER_OFF (R587). -/
def execPowerOff (s : State) : Host.Outcome State Fault Refusal := .next (keepQueue s (powerOff s))

/-- A warm reset by command (R594): the start follows at its release. -/
def State.warmReset (s : State) : State :=
  let t := s.cleared false
  State.startUp { t with pins := { t.pins with startFlag := true } } false

/-- QUICK_TEST_COMPLETE (R592): the blocks that failed are unusable for this start, with the record each raises in service. -/
def quickTestComplete (failed : Blocks) (s : State) : State :=
  if s.obj 0xA000 1 ≠ 2 then s
  else
    let t := { s with cur := { s.cur with unusable := Blocks.zip (· ||| ·) s.cur.unusable failed } }
    let t := t.setObj 0xA000 7 (Blocks.size failed % 2 ^ 16)
    let t := (List.range 8).foldl (fun t h => ((List.range 42).filter (bitOf ((failed.cores[h]?).getD 0))).foldl
      (fun t c => t.raise 0x2504 unitCore (coreId h c) none [0]) t) t
    let t := (setBitsOf 16 failed.doors).foldl (fun t d => t.raise 0x2D03 unitDoor (16 * d + 15) none (leBytes 1 d ++ leBytes 1 2)) t
    let t := (List.range 16).foldl (fun t d => ((List.range 9).filter (bitOf ((failed.lanes[d]?).getD 0))).foldl
      (fun t l => t.raise 0x2D02 unitDoor (16 * d + l) none (leBytes 1 d ++ leBytes 1 l)) t) t
    let t := (setBitsOf 8 failed.fabrics).foldl (fun t h => t.raise 0x4502 unitHall h none (leBytes 1 h ++ leBytes 1 0)) t
    let t := (setBitsOf 8 failed.routers).foldl (fun t k => t.raise 0x4D01 unitRouter k none (leBytes 1 k ++ leBytes 1 0)) t
    t.initialise

/-- QUICK_TEST_COMPLETE (R592). -/
def execQuickTestComplete (failed : Blocks) (s : State) : Host.Outcome State Fault Refusal := .next (keepCatalogue s (quickTestComplete failed s))

/-! ### Leaving the torus (R571, R584, R595) -/

/-- FORWARDING_STOP: two periods after a package fatal state, a preparation for removal or an orderly stop, forwarding stops and every torus door is held DOWN, in an orderly stop the Ethernet doors too (log entry 211). A stop without self-test forms its report. -/
def forwardingStop (s : State) : State :=
  if !s.cur.fatalPending && !s.cur.removing && s.obj 0xA100 3 != 1 then s
  else
    let stopping := s.obj 0xA100 3 == 1 && s.torus.forwarding
    let t : State := { s with torus := { s.torus with forwarding := false, inputs := [], holds := [] }, beat := { s.beat with synced := false }
                              cur := { s.cur with fatalPending := false, hallsStopped := true } }
    let t := ((List.range 16).filter (fun d => t.obj (doorAcc d) 1 == 0)).foldl (fun t d => (t.put (doorAcc d) 2 0).setDoor d {}) t
    let t := if t.obj 0xA100 3 = 1 then (List.range 4).foldl (fun t k => t.ethFalls (12 + k) 5) t else t
    let t := if t.cur.removing && t.obj 0x5000 8 == 2 then (t.put 0x5000 8 3).send (.pin "REMOVE_OK" true) else t
    if stopping && t.cur.stopKind == 2 then t.formReport 3 0 Blocks.none [] else t

/-- FORWARDING_STOP (R571). -/
def execForwardingStop (s : State) : Host.Outcome State Fault Refusal := .next (keepCatalogue s (forwardingStop s))

/-- A wing of the group has a job, as the anchor knows (R595). -/
def State.groupBusy (s : State) : Bool :=
  s.isAnchor && (List.range 16).any (fun w => (s.wing w).job.isSome || (s.wing w).running.isSome || !(s.wing w).waiting.isEmpty)

/-- Pending persistent writes complete at once (R595). -/
def State.drainFlash (s : State) : State :=
  let t := s.flash.queue.foldl (fun t e => t.storeNow e.1 e.2) s
  State.setObj { t with flash := { t.flash with queue := [], remap := t.mem.remap } } 0x1020 0xB 0

/-- Begin an orderly stop (R595): 1 with self-test, 2 without, 3 with self-test and removal after it. -/
def State.beginStop (s : State) (kind : Nat) : State :=
  let t := s.drainFlash
  let t := { t with cur := { t.cur with stopKind := kind, stopBeat := t.beatNo, testStatus := 0, newReport := [] } }
  (t.put 0xA100 3 1).courier none (.deviceMissing t.device)

/-- A write to STOP (R595). -/
def State.stopWrite (s : State) (v : Nat) : State × Nat :=
  if v ≠ 1 ∧ v ≠ 2 then (s, rcRange)
  else if s.groupBusy || s.obj 0xA100 3 != 0 then (s, rcConflict)
  else (s.beginStop v, rcOk)

/-- A write to REMOVAL (R584): accepted while every wing is halted or fatal, and on the anchor while no wing of the group has a job. -/
def State.removalWrite (s : State) (v : Nat) : State × Nat :=
  if v < 1 ∨ 3 < v then (s, rcRange)
  else if (List.range 16).any (fun w => s.wingState w == 1 || s.wingState w == 2) || s.groupBusy then (s, rcConflict)
  else match v with
    | 1 =>
      if s.obj 0x5000 8 ≠ 0 ∨ s.obj 0xA100 3 ≠ 0 then (s, rcConflict)
      else
        let t := { s with cur := { s.cur with removing := true, hallsStopped := true } }
        ((t.courier none (.deviceMissing t.device)).put 0x5000 8 2, rcOk)
    | 2 => if s.obj 0x5000 8 ≠ 0 ∨ s.obj 0xA100 3 ≠ 0 then (s, rcConflict) else (s.beginStop 3, rcOk)
    | _ =>
      if s.obj 0x5000 8 = 2 then
        let t := { s with cur := { s.cur with removing := false, hallsStopped := s.power.coolStop } }
        ((t.courier none (.restored t.device none)).put 0x5000 8 0, rcOk)
      else if s.cur.stopKind = 3 ∧ s.obj 0xA100 3 ≠ 4 then ({ s with cur := { s.cur with stopKind := 1 } }, rcOk)
      else (s, rcConflict)

/-! ### Self-test (R596-R599) -/

/-- SELF_TEST_RAIL_CHECK (R596): before the test a failed check writes a report with no results; during it, it stops the test. -/
def selfTestRailCheck (rails clocks : Bool) (s : State) : State :=
  if s.cur.newReport ≠ [] then s
  else if s.obj 0xA100 3 = 1 ∧ s.torus.forwarding = false ∧ s.cur.stopKind ≠ 2 then
    if rails && clocks then s.put 0xA100 3 2 else s.formReport (if rails then 2 else 1) 0 Blocks.none []
  else if s.obj 0xA100 3 = 2 ∧ s.cur.testStatus = 0 ∧ (rails && clocks) = false then
    { s with cur := { s.cur with testStatus := if rails then 5 else 4 } }
  else s

/-- SELF_TEST_RAIL_CHECK (R596). -/
def execSelfTestRailCheck (rails clocks : Bool) (s : State) : Host.Outcome State Fault Refusal := .next (keepCatalogue s (selfTestRailCheck rails clocks s))

/-- A sector that fails the march is remapped (R380, R598), and the stack becomes unusable when no spare is left; `sector` is a device address ÷ 64. -/
def State.remapFailed (s : State) (acc : Blocks) (sector : Nat) : State × Blocks :=
  let n := stackOf (64 * sector)
  let pc := pseudoOf (64 * sector)
  match s.mem.nextSpare n pc with
  | some k =>
    let t := { s with mem := s.mem.remapSector n pc k sector }
    (((t.put (0x7300 + n) 7 (t.obj (0x7300 + n) 7 + 1)).storeNow (objKey (0x7300 + n) 7) (t.obj (0x7300 + n) 7 + 1)), acc)
  | none => (s, { acc with hbmStacks := acc.hbmStacks ||| 2 ^ n })

/-- SELF_TEST_COMPLETE (R597, R598): the test has ended, by itself or by a failed check, and the report is formed with the results of the blocks that finished. -/
def selfTestComplete (failed : Blocks) (sectors : List Nat) (time : Nat) (s : State) : State :=
  if s.obj 0xA100 3 ≠ 2 ∨ s.cur.newReport ≠ [] then s
  else
    let r := sectors.foldl (fun (acc : State × Blocks) x => acc.1.remapFailed acc.2 x) (s, failed)
    let t := { r.1 with flash := { r.1.flash with remap := r.1.mem.remap } }
    t.formReport t.cur.testStatus time r.2 ((List.range 8).map (fun n => (sectors.filter (fun x => stackOf (64 * x) == n)).length))

/-- SELF_TEST_COMPLETE (R597). -/
def execSelfTestComplete (failed : Blocks) (sectorsFailed : List Nat) (time : Nat) (s : State) : Host.Outcome State Fault Refusal :=
  .next (keepCatalogue s (selfTestComplete failed sectorsFailed time s))

/-- REPORT_WRITTEN (R599): the older report area holds the new report, and the package is stopped: halls, stacks and doors off. A stop for removal leaves it ready to remove. -/
def reportWritten (s : State) : State :=
  if s.cur.newReport = [] ∨ s.obj 0xA100 3 = 0 ∨ s.obj 0xA100 3 = 4 then s
  else
    let f := if reportCount s.flash.report1 < reportCount s.flash.report0 then { s.flash with report1 := s.cur.newReport }
             else { s.flash with report0 := s.cur.newReport }
    let t := State.put { s with flash := f, cur := { s.cur with newReport := [] } } 0xA100 3 3
    let t : State := { t with mem := { remap := t.mem.remap, selfRefresh := true }
                              cur := { t.cur with hallsStopped := true, domains := t.cur.domains.filter (fun e => decide (552 ≤ e.1)) } }
    let t := t.put 0xA100 3 4
    if t.cur.stopKind = 3 then ((t.put 0x5000 8 2).put 0x5000 8 3).send (.pin "REMOVE_OK" true) else t

/-- REPORT_WRITTEN (R599). -/
def execReportWritten (s : State) : Host.Outcome State Fault Refusal := .next (keepCatalogue s (reportWritten s))

/-! ### The reference clock and the PCIe link -/

/-- REFCLK_LOCK_LOSS (R632): while RESET_N is high, every hall stops with an F4 record. -/
def execRefclkLockLoss (s : State) : Host.Outcome State Fault Refusal :=
  .next (keepBeat s (if s.pins.resetN then s.raise 0x4504 unitPackage 0 none [] else s))

/-- PCIE_LINK_TRAINED (R498): the rates and widths of the table and no others; FLIT mode always at 64 GT/s. -/
def pcieLinkTrained (rate width : Nat) (flit : Bool) (s : State) : State :=
  if !([16, 32, 64].contains rate) || !([4, 8, 16].contains width) then s
  else ((s.setObj 0x1040 1 rate).setObj 0x1040 2 width).setObj 0x1040 3 (b2n (flit || rate == 64))

/-- PCIE_LINK_TRAINED (R498). -/
def execPcieLinkTrained (rate width : Nat) (flitMode : Bool) (s : State) : Host.Outcome State Fault Refusal :=
  .next (keepBeat s (pcieLinkTrained rate width flitMode s))

end Sys2Proof.Machine
end

