-- ==== Sys2Proof/Machine/Service.lean ====
section
/-! DEFINITION. Firmware in service (R581-R583), firmware images and slots (R606-R609), attestation (R520, R610, R611), test access (R619). -/

namespace Sys2Proof.Machine

open Sys2Proof

/-! ### Live activation (R581-R583) -/

/-- The slot that runs, and the other one. -/
def State.activeSlot (s : State) : Nat := s.obj 0x1000 0xA
def State.otherSlot (s : State) : Nat := 1 - s.activeSlot

/-- Begin an activation: the firmware services are paused (R41, R581). -/
def State.pauseFirmware (s : State) (kind : Nat) : State :=
  State.put { s with cur := { s.cur with activating := kind } } 0x5300 2 1

/-- No recovery is in progress (R581). -/
def State.noRecovery (s : State) : Bool := !s.beat.recovering && !s.beat.dead && s.cur.sparing.isEmpty && !s.cur.down

/-- Fuses that a confirmation burns: up to the image's SVN, and the keys its REVOKE names (R608). -/
def State.burnFuses (s : State) (x : FwSlot) : State :=
  let t := { s with sec := { s.sec with rollback := max s.sec.rollback (min x.svn 64), revoked := s.sec.revoked ||| x.revoke % 16 } }
  (t.setObj 0xB000 2 t.sec.rollback).setObj 0xB000 3 t.sec.revoked

/-- A slot below the rollback counter is never run again (R609). -/
def State.ageSlot (s : State) (k : Nat) : State :=
  if (s.slot k).status = 1 ∧ (s.slot k).svn < s.sec.rollback then s.setSlot k { s.slot k with status := 3 } else s

/-- ACTIVATE = 2 (R583): the running image is confirmed. -/
def State.confirm (s : State) : State :=
  let k := s.activeSlot
  let t := s.burnFuses (s.slot k)
  let t := t.setSlot k { t.slot k with confirmed := true, trial := false }
  let t := t.setSlot (1 - k) { t.slot (1 - k) with confirmed := false }
  ((t.ageSlot 0).ageSlot 1).put 0x5300 2 0

/-- A write to ACTIVATE (R581, R583): 1 activates, 2 confirms, 3 reverts. -/
def State.activateWrite (s : State) (v : Nat) : State × Nat :=
  match v with
  | 1 => if s.obj 0x5300 2 = 0 ∧ s.slotPasses s.otherSlot = true ∧ s.noRecovery = true then (s.pauseFirmware 1, rcOk) else (s, rcConflict)
  | 2 => if s.obj 0x5300 2 = 2 then (s.confirm, rcOk) else (s, rcConflict)
  | 3 => if s.obj 0x5300 2 = 2 then (s.pauseFirmware 2, rcOk) else (s, rcConflict)
  | _ => (s, rcRange)

/-- TRIAL_TIME_EXPIRY (R583): no confirmation came. -/
def execTrialTimeExpiry (s : State) : Host.Outcome State Fault Refusal :=
  .next (keepCatalogue s (if s.obj 0x5300 2 = 2 then s.pauseFirmware 3 else s))

/-- Records raised in the pause are written (R582). -/
def State.releaseRecords (s : State) : State :=
  let l := s.cur.heldRecords
  l.foldl State.placeRecord { s with cur := { s.cur with heldRecords := [] } }

/-- FIRMWARE_ACTIVATION_COMPLETE (R581-R583): the services run on the other slot's image; the records of the pause are written, and a recovery that waited begins. -/
def firmwareActivationComplete (s : State) : State :=
  if s.obj 0x5300 2 ≠ 1 then s
  else
    let k := s.otherSlot
    let kind := s.cur.activating
    let t := (s.runSlot k).resetSpdm
    let t := { t with cur := { t.cur with activating := 0 } }
    let t := if kind = 1 then (t.setSlot k { t.slot k with trial := true }).put 0x5300 2 2
      else (t.setSlot (1 - k) { t.slot (1 - k) with trial := false }).put 0x5300 2 0
    let t := t.releaseRecords
    let t := if kind = 1 then t.raise 0x0503 unitSystem 0 none (leBytes 1 k ++ leBytes 4 (t.slot k).version)
      else t.raise 0x0504 unitSystem 0 none (leBytes 1 k ++ leBytes 1 (if kind = 2 then 0 else 1))
    if t.beat.dead && t.mayReplay then t.replay else t

/-- FIRMWARE_ACTIVATION_COMPLETE (R581). -/
def execFirmwareActivationComplete (s : State) : Host.Outcome State Fault Refusal := .next (keepQueue s (firmwareActivationComplete s))

/-! ### Firmware images (R606, R607, R609) -/

/-- An image's header is well formed and its length is its own (R606, R607). -/
def imageFormed (b : List Byte) : Bool :=
  decide (256 ≤ b.length) && leAt b 0 4 == 0x5A484657 && leAt b 4 2 == 1 && leAt b 6 2 == 0 && decide (leAt b 8 4 ≤ 16777216) &&
    b.length == 256 + leAt b 8 4 && decide (leAt b 16 1 ≤ 64) && bits (leAt b 17 1) 3 2 == 0 && leAt b 18 46 == 0 && leAt b 128 64 == 0

/-- The slot that an image makes (R607, R609): status 1 verified, 2 header or signature invalid, 3 below the rollback counter. -/
def State.verifyImage (s : State) (b : List Byte) : FwSlot :=
  let key := bits (leAt b 17 1) 1 0
  let revoke := bits (leAt b 17 1) 7 4
  let signed := imageFormed b && beNat (sha256 (slice b 64 64)) == Config.keyHash key % 2 ^ 256 && !bitOf s.sec.revoked key && !bitOf revoke key &&
    ecdsaVerify (slice b 64 64) (b.take 192 ++ b.drop 256) (slice b 192 64)
  { status := if !signed then 2 else if leAt b 16 1 < s.sec.rollback then 3 else 1
    version := leAt b 12 4, svn := leAt b 16 1, revoke := revoke, digest := beNat (sha256 b), key := key }

/-- The last segment of SLOT_WRITE (R609): the slot is verified; in service mode an image that passes is booted and runs in trial (R588). -/
def State.finishSlot (s : State) (b : List Byte) : State :=
  let k := s.otherSlot
  let x := s.verifyImage b
  let t := s.setSlot k x
  if x.status ≠ 1 then t.raise 0x0B02 unitSystem 0 none (leBytes 1 k ++ leBytes 1 x.status)
  else if t.obj 0xA000 1 = 0x0F then
    ((((t.setSlot k { x with trial := true }).runSlot k).put 0x5300 2 2)).firmwareStart
  else t

/-! ### Certificates and measurements (R605, R611, R620) -/

/-- The contents of DEVICE_CERT_CHAIN. -/
def State.certChain (s : State) : List Byte :=
  (if s.sec.debug then Config.debugCerts else Config.issuedCerts) ++
    Config.aliasCert s.sec.digest (s.slot s.activeSlot).svn (beNat (publicKey s.sec.aliasKey))

/-- An object's value at the last beat seal; as it stands where the package is in no beat. -/
def State.objSeal (s : State) (acc sub : Nat) : Nat := catGet (if s.beat.synced then s.catSeal else s.cat) (objKey acc sub)

/-- The security configuration of block 4 (R611). -/
def State.securityConfig (s : State) : List Byte :=
  (List.range 8).flatMap (fun i => leBytes 65 (s.objSeal 0x1030 (i + 1))) ++
    (List.range 16).flatMap (fun w => leBytes 8 (s.objSeal (0x3000 + w) 1) ++ leBytes 8 (s.objSeal (0x3000 + w) 2) ++ leBytes 1 (s.objSeal (0x3000 + w) 5) ++
      leBytes 1 (s.objSeal (0x3000 + w) 6) ++ leBytes 2 (s.objSeal (0x3010 + w) 1) ++ leBytes 2 (s.objSeal (0x3010 + w) 2))

/-- Measurement blocks 1 to 5 (R611). -/
def State.measurements (s : State) : List (List Byte) := [
  beBytes 32 Config.romDigest,
  beBytes 32 s.sec.digest,
  [(0xB000, 1), (0xB000, 2), (0xB000, 3), (0x1000, 0xA), (0x5300, 2)].flatMap (fun k => leBytes 1 (s.objSeal k.1 k.2)),
  sha256 s.securityConfig,
  if s.obj 0xA000 3 = 2 then List.replicate 32 0 else sha256 s.cur.report]

/-! ### SPDM (R520, R604, R610) -/

/-- The connection of a transport: 0 the DOE mailbox, else a Lormal session. -/
def State.spdmOf (s : State) (tr : Nat) : Option Spdm := if tr = 0 then some s.host.doe else (s.server.sessions.find? (fun x => x.id == tr && !x.window)).map Session.spdm

def State.setSpdm (s : State) (tr : Nat) (c : Spdm) : State :=
  if tr = 0 then { s with host := { s.host with doe := c } }
  else { s with server := { s.server with sessions := updFirst (fun (x : Session) => x.id == tr && !x.window) (fun x => { x with spdm := c }) s.server.sessions } }

/-- What the connection has settled, as a response may depend on it. -/
def Spdm.state (c : Spdm) : List Byte := leBytes 1 c.version ++ leBytes 1 (b2n c.capsDone) ++ leBytes 1 (b2n c.algsDone)

/-- Deliver a response: on the mailbox, or for a READ_BLOCK of SPDM_RESPONSE (R610). The body's layout is SPDM's, which the manual does not give: a free value of what the manual says it holds. -/
def State.respond (s : State) (tr : Nat) (c : Spdm) (code : Nat) (request contents : List Byte) (signed : Bool) : State :=
  let version := if leAt request 0 1 = 0x11 then 0x11 else 0x12
  let body := Config.spdmBody code (c.state ++ request ++ contents)
  let k := Config.freeRandom s.free
  let sig := if signed then ecdsaSign s.sec.aliasKey k (request ++ body) else []
  let t := if signed then { s with free := s.free + 1 } else s
  let r := leBytes 1 version ++ leBytes 1 code ++ body ++ sig
  let t := t.setSpdm tr { c with response := r }
  if tr = 0 then t.send (.spdm 0 r) else t

/-- Run a request on a connection that exists, at a version that the device accepts. -/
def State.onSpdm (s : State) (tr : Nat) (request : List Byte) (anyVersion : Bool) (f : Spdm → State) : State := match s.spdmOf tr with
  | none => s
  | some c =>
    if anyVersion || leAt request 0 1 == 0x11 || leAt request 0 1 == 0x12 then f c else s.respond tr c 0x7F request [] false

/-- GET_VERSION (R610): the connection begins again; the versions are 1.2 and 1.1 (R62). -/
def getVersion (tr : Nat) (request : List Byte) (s : State) : State :=
  s.onSpdm tr request true (fun _ => (s.setSpdm tr {}).respond tr {} 0x04 request [0x12, 0x11] false)

/-- GET_CAPABILITIES (R520): no secure session. -/
def getCapabilities (tr : Nat) (request : List Byte) (s : State) : State :=
  s.onSpdm tr request false (fun c => s.respond tr { c with version := leAt request 0 1, capsDone := true } 0x61 request [] false)

/-- NEGOTIATE_ALGORITHMS (R520): ECDSA on P-256, SHA-256. -/
def negotiateAlgorithms (tr : Nat) (request : List Byte) (s : State) : State :=
  s.onSpdm tr request false (fun c => s.respond tr { c with algsDone := true } 0x63 request (ascii "ECDSA P-256 SHA-256") false)

/-- GET_DIGESTS (R520). -/
def getDigests (tr : Nat) (request : List Byte) (s : State) : State :=
  s.onSpdm tr request false (fun c => s.respond tr c 0x01 request (sha256 s.certChain) false)

/-- GET_CERTIFICATE (R605). -/
def getCertificate (tr : Nat) (request : List Byte) (s : State) : State :=
  s.onSpdm tr request false (fun c => s.respond tr c 0x02 request s.certChain false)

/-- CHALLENGE (R604): signed by the Alias key. -/
def challenge (tr : Nat) (request : List Byte) (s : State) : State :=
  s.onSpdm tr request false (fun c => s.respond tr c 0x03 request (sha256 s.certChain ++ s.measurements.flatten) true)

/-- GET_MEASUREMENTS (R611). -/
def getMeasurements (tr : Nat) (request : List Byte) (s : State) : State :=
  s.onSpdm tr request false (fun c => s.respond tr c 0x60 request s.measurements.flatten true)

/-- A request written to SPDM_REQUEST (R610); another request is answered with an error. -/
def State.spdmRequest (s : State) (tr : Nat) (request : List Byte) : State :=
  match leAt request 1 1 with
  | 0x84 => getVersion tr request s
  | 0xE1 => getCapabilities tr request s
  | 0xE3 => negotiateAlgorithms tr request s
  | 0x81 => getDigests tr request s
  | 0x82 => getCertificate tr request s
  | 0x83 => challenge tr request s
  | 0xE0 => getMeasurements tr request s
  | _ => s.onSpdm tr request true (fun c => s.respond tr c 0x7F request [] false)

/-- GET_VERSION (R610). -/
def execGetVersion (transport : Nat) (request : List Byte) (s : State) : Host.Outcome State Fault Refusal := .next (keepHost s (getVersion transport request s))

/-- GET_CAPABILITIES (R520). -/
def execGetCapabilities (transport : Nat) (request : List Byte) (s : State) : Host.Outcome State Fault Refusal := .next (keepHost s (getCapabilities transport request s))

/-- NEGOTIATE_ALGORITHMS (R520). -/
def execNegotiateAlgorithms (transport : Nat) (request : List Byte) (s : State) : Host.Outcome State Fault Refusal := .next (keepHost s (negotiateAlgorithms transport request s))

/-- GET_DIGESTS (R520). -/
def execGetDigests (transport : Nat) (request : List Byte) (s : State) : Host.Outcome State Fault Refusal := .next (keepHost s (getDigests transport request s))

/-- GET_CERTIFICATE (R605). -/
def execGetCertificate (transport : Nat) (request : List Byte) (s : State) : Host.Outcome State Fault Refusal := .next (keepHost s (getCertificate transport request s))

/-- CHALLENGE (R604). -/
def execChallenge (transport : Nat) (request : List Byte) (s : State) : Host.Outcome State Fault Refusal := .next (keepHost s (challenge transport request s))

/-- GET_MEASUREMENTS (R611). -/
def execGetMeasurements (transport : Nat) (request : List Byte) (s : State) : Host.Outcome State Fault Refusal := .next (keepHost s (getMeasurements transport request s))

/-- DOE_DISCOVERY (R520): object 0 is DOE Discovery, object 1 CMA/SPDM; vendor identifier, type, next index. -/
def execDoeDiscovery (index : Nat) (s : State) : Host.Outcome State Fault Refusal :=
  .next (keepHost s (s.send (.spdm 0 (if index = 0 then [1, 0, 0, 1] else if index = 1 then [1, 0, 1, 0] else [0xFF, 0xFF, 0, 0]))))

/-! ### Test access (R618-R620) -/

/-- The instructions that the port serves while it is locked (R618). -/
def TapInstr.open_ : TapInstr → Bool
  | .bypass | .idcode | .samplePreload => true
  | .extest | .network _ => false

/-- The test port serves an instruction (R618, R619): every one once DEBUG_OPEN has unlocked it. -/
def State.tapServes (s : State) (i : TapInstr) : Bool := s.sec.debug || i.open_

/-- An instruction is shifted into the test port: a locked one selects BYPASS, as IEEE 1149.1 has it for one that the port does not serve (PRESUMED, log entry 178). No row of the opcode table drives the port. -/
def State.tapSelect (s : State) (i : TapInstr) : State :=
  { s with sec := { s.sec with tap := if s.tapServes i then i else .bypass } }

/-- What DEBUG_OPEN is refused for (R619). -/
def State.debugRefused (s : State) : Bool :=
  (List.range 16).any (fun w => s.wingState w != 0) || s.obj 0xA100 3 != 0 || s.obj 0x5300 2 == 1

/-- Test access opens (R619): sessions close, keys go, the seed lock is set, and the debug identity takes their place; `path` asked for it, numbered as in R38. -/
def State.openDebug (s : State) (path : Nat) : State :=
  let t := { s with server := { s.server with sessions := [], half := [] }, sec := { s.sec with seedLock := true, debug := true } }
  let t := (t.deriveDevice.deriveAlias s.sec.digest).setObj 0x1020 9 0
  (t.put 0xB000 1 1).raise 0x0B03 unitSystem 0 none (leBytes 1 path)

end Sys2Proof.Machine
end

