-- ==== Sys2Proof/Machine/Catalogue.lean ====
section
/-! DEFINITION. Catalogue objects as requests see them (02_catalogue.md): who may do what (R26, R27, R35-R37, R54, R59, R60), values and domains, descriptions and snapshots (R22, R25, R40), writes with what each sets off (R28, R64-R68, R312-R315, R568, R576, R613), claims on domains (R39). -/

namespace Sys2Proof.Machine

open Sys2Proof

/-! ### Callers -/

/-- Who asks: the path, the function whose view it has (0 physical, n + 1 VF n; none on Lormal), the role (R59; 2 where no session limits it), whether it is in a signed session, whether numbers are big-endian (R24). -/
structure Caller where
  path   : Path
  fn     : Option Nat
  role   : Nat
  signed : Bool
  big    : Bool
deriving DecidableEq, Repr

/-- The session open through the physical-function window (R44). -/
def State.windowSession (s : State) : Option Session := s.server.sessions.find? Session.window

/-- The role of a function's window: that of the session open through the physical function's (R44, R59); 2 where there is none. -/
def State.windowRole (s : State) (fn : Nat) : Nat := match s.windowSession with
  | some x => if fn = 0 then x.role else 2
  | none => 2

/-- The caller of a function's window (R35, R44, R59). -/
def State.windowCaller (s : State) (fn : Nat) : Caller :=
  { path := .window fn, fn := some fn, role := s.windowRole fn, big := false, signed := fn == 0 && s.windowRole fn == 3 }

/-- A forwarded request has the view its packet names (R616). -/
def torusCaller (view : Nat) : Caller := { path := .torus view, fn := some (fnOfView view), role := 2, signed := false, big := false }

/-- A request in a Lormal session (R37, R59). -/
def sessionCaller (x : Session) : Caller := { path := .lormal x.id, fn := none, role := x.role, signed := x.role == 3, big := true }

/-- Lormal 1.x (R54). -/
def oldCaller : Caller := { path := .lormal1, fn := none, role := 0, signed := false, big := true }

/-- The path's index (R38). -/
def Path.index : Path → Nat
  | .window fn => fn
  | .torus _ => 17
  | .lormal _ => 18
  | .lormal1 => 18

/-- An object is flagged public (R22, R54). -/
def isPublic (acc sub : Nat) : Bool := match findObj acc sub with
  | some o => bitOf o.flags 3
  | none => false

/-- The object may be seen (R33, R35): the row, or why not. Lormal 1.x sees the public objects alone, and every other request ends with ACCESS, whether the object exists or not (R54). -/
def Caller.look (c : Caller) (acc sub : Nat) : Except Nat Obj :=
  let seen := match c.fn with
    | some fn => (rowsOf acc).any (fun o => inView fn acc o.sub)
    | none => true
  if c.path = .lormal1 ∧ isPublic acc sub = false then .error rcAccess
  else if !accExists acc || !seen then .error rcNoObject
  else match findObj acc sub with
    | none => .error rcNoSub
    | some o =>
      let mine := match c.fn with
        | some fn => sub == 0 || inView fn acc sub
        | none => true
      if !mine then .error rcNoObject else .ok o

/-- The object has no readable value: class WO (R26), or a row that says "write only". -/
def Obj.hidden (o : Obj) : Bool := o.cls == 3 || bitOf o.flags 5

/-! ### Values -/

/-- Seconds since a core last passed its test, all ones for none since start (R565, R586). -/
def State.rotationAge (s : State) (hall core : Nat) : Nat :=
  let p := mget 0 s.cur.passedMs (slotKey hall core)
  if p = 0 then 0xFFFFFFFF else (s.power.msTick + 1 - p) / 1000

/-- The largest age of any usable core (R586). -/
def State.rotationCoverage (s : State) : Nat :=
  ((List.range 8).flatMap (fun h => ((List.range 42).filter (fun c => decide (s.coreState h c < 3))).map (s.rotationAge h))).foldl max 0

/-- The header of PROBE_FOLIO as at the last seal (R338). -/
def State.probeHeader (s : State) (w : Nat) : List Byte :=
  let f := s.obj (0x7100 + w) 0xD
  if folioWing f = w ∧ s.folioExists f = true ∧ f < 2 ^ 32 - 1 then State.sideHeader { s with folio := { s.folio with now := s.folio.sealed } } f
  else List.replicate 32 0

/-- CYCLE_COUNTER's accessions (R164). -/
def cycleAcc (acc : Nat) : Bool := decide (0xC180 ≤ acc) && decide (acc < 0xC188)

/-- A core's cycle counter (R164): zero when its power domain comes on, which is at start, then the cycles of every draw since, modulo 2^64. -/
def State.cycleCount (s : State) (hall core : Nat) : Nat :=
  (s.cur.cycles.map (fun d => Config.freeCycles d (slotKey hall core))).sum % 2 ^ 64

/-- The mask of a path (R45). -/
def State.maskOf (s : State) (c : Caller) : Nat := match c.path with
  | .lormal id => ((s.server.sessions.find? (fun x => x.id == id)).map Session.mask).getD 0
  | _ => (s.window (c.fn.getD 0)).mask

/-- The value of an object as a number, little-endian for strings of bytes: those the machine keeps elsewhere than in the Catalogue's store, else the stored one. -/
def State.value (s : State) (c : Caller) (acc sub : Nat) : Nat :=
  if sub = 0 then defaultOf (objKey acc 0)
  else if acc = 0x1022 ∧ sub = 1 then s.maskOf c
  else if 0x5020 ≤ acc ∧ acc < 0x5028 then s.rotationAge (acc - 0x5020) (sub - 1)
  else if acc = 0x5010 ∧ sub = 3 then s.rotationCoverage
  else if cycleAcc acc then s.cycleCount (acc - 0xC180) (sub - 1)
  else if acc = 0xB000 ∧ sub = 5 then leNat (publicKey s.sec.deviceKey)
  else if acc = 0xB100 ∧ sub ≤ 6 then
    let x := s.slot ((sub - 1) % 2)
    if sub ≤ 2 then x.status else if sub ≤ 4 then x.version else x.svn
  else if acc / 16 = 0x710 ∧ sub = 0xE then leNat (s.probeHeader (acc % 16))
  else s.obj acc sub

/-- The contents of a DOMAIN object. -/
def State.domain (s : State) (c : Caller) (acc sub : Nat) : List Byte :=
  if acc = 0x1000 then s.certChain
  else if 0x7300 ≤ acc ∧ acc < 0x7308 then s.mem.remapTable (acc - 0x7300)
  else if acc / 16 = 0x910 ∧ sub = 3 then
    (s.coll.groups.filter (fun e => e.2.any (fun g => g.wing == acc % 16))).flatMap (fun e => leBytes 2 e.1)
  else if acc / 16 = 0xC30 then s.accountBytes (acc % 16) 0 524288
  else if acc = 0x5000 then s.cur.records.flatMap ErrRec.bytes
  else if acc = 0xA000 then s.cur.report
  else if acc = 0xB200 then match c.path with
    | .lormal id => ((s.server.sessions.find? (fun x => x.id == id)).map (fun x => x.spdm.response)).getD []
    | _ => []
  else mget [] s.doms (objKey acc sub)

/-- The length of a DOMAIN object's contents. -/
def State.domainLength (s : State) (c : Caller) (acc sub : Nat) : Nat :=
  if acc / 16 = 0xC30 then 524288 else (s.domain c acc sub).length

/-- A value in its encoding on a path (R24): numbers turned round in Lormal frames, strings of bytes in stored order. -/
def encodeVal (big : Bool) (ty len v : Nat) : List Byte := if big && decide (ty ≤ 0x0A) then beBytes len v else leBytes len v

/-- Bytes of an object as READ returns them (R25): a DOMAIN's length. -/
def State.valueBytes (s : State) (c : Caller) (o : Obj) (acc sub : Nat) : List Byte :=
  if o.ty = 0x0D then encodeVal c.big 4 4 (s.domainLength c acc sub) else encodeVal c.big o.ty o.len (s.value c acc sub)

/-- READ (R25, R26). -/
def State.readObject (s : State) (c : Caller) (acc sub : Nat) : State × Nat × List Byte := match c.look acc sub with
  | .error e => (s, e, [])
  | .ok o =>
    if o.hidden then (s, rcAccess, [])
    else
      let t := if cycleAcc acc then s.passCycles else s
      (t, rcOk, t.valueBytes c o acc sub)

/-- DESCRIBE (R22). DESIGN CHOICE (log entry 181): the length of a DOMAIN is its current one, and the default of an object whose default is derived, an image's or fused reads zero. -/
def State.describeObject (s : State) (c : Caller) (acc sub : Nat) : Nat × List Byte := match c.look acc sub with
  | .error e => (e, [])
  | .ok o =>
    let len := if o.ty = 0x0D then s.domainLength c acc sub else o.len
    let dflt := if o.ty = 0x0D then [] else (encodeVal c.big o.ty o.len (defaultOf (objKey acc sub))).take 8
    (rcOk, leBytes 1 o.ty ++ leBytes 1 o.cls ++ leBytes 1 (o.flags % 32) ++ [0] ++ encodeVal c.big 4 4 len ++ fitBytes 8 dflt)

/-- The state with every Catalogue value as it stood at the last beat seal (R40): those of the store, and what the machine keeps elsewhere. -/
def State.atSeal (s : State) : State :=
  let v := s.cur.seen
  if s.beat.synced then
    { s with cat := s.catSeal, server := v.server, sec := v.sec, doms := v.doms
             cur := { s.cur with passedMs := v.passedMs, records := v.records, report := v.report, cycles := v.cycles }
             power := { s.power with msTick := v.msTick }
             flash := { s.flash with slotA := v.slotA, slotB := v.slotB }
             coll := { s.coll with groups := v.groups }
             mem := { s.mem with remap := v.remap } }
  else s

/-- SNAPSHOT (R40): every member in subindex order, each at its length; a member that cannot be read returns zeros. DESIGN CHOICE (log entry 182): through a virtual function, a record of which only some members are in the function's view (0xD100, 0x1022) returns those alone. -/
def State.snapshotRecord (s : State) (c : Caller) (acc : Nat) : Nat × List Byte := match c.look acc 0 with
  | .error e => (e, [])
  | .ok _ =>
    let t := s.atSeal
    (rcOk, ((List.range (subCount acc)).map (· + 1)).flatMap (fun sub => match c.look acc sub with
      | .error _ => []
      | .ok o => if o.hidden then List.replicate (if o.ty = 0x0D then 4 else o.len) 0 else t.valueBytes c o acc sub))

/-! ### Checks of a write (R23, R26, R27, R33) -/

/-- The stated limits hold (R33, RANGE). -/
def Limits.ok (l : Limits) (v : Nat) : Bool := match l with
  | .any => true
  | .range lo hi => decide (lo ≤ v) && decide (v ≤ hi)
  | .mult u => v % u == 0
  | .pow2 lo hi => v == 0 || (decide (lo ≤ v) && decide (v ≤ hi) && (List.range 33).any (fun n => v == 2 ^ n))
  | .key => decide (v % 256 ≤ 3)

/-- Every wing is halted, or the object's own wing (R26, R27). -/
def State.haltedFor (s : State) (c : Caller) (o : Obj) (acc : Nat) : Bool :=
  if bitOf o.flags 1 then match (wingOfAcc acc).or (c.fn.bind (fun fn => if fn = 0 then none else some (fn - 1))) with
    | some w => s.wingState w == 0
    | none => (List.range 16).all (fun w => s.wingState w == 0)
  else (List.range 16).all (fun w => s.wingState w == 0)

/-- A signer key is enrolled (R60). -/
def State.hasSigner (s : State) : Bool := (List.range 8).any (fun i => s.obj 0x1030 (i + 1) % 256 == 3)

/-- A SIG object may be written (R26, R59, R60). -/
def State.sigAllowed (s : State) (c : Caller) (acc : Nat) : Bool := c.signed || (acc == 0x1030 && !s.hasSigner && c.fn == some 0)

/-- May the caller write the object at all (R26, R54, R59)? -/
def State.mayWrite (s : State) (c : Caller) (o : Obj) (acc sub : Nat) : Nat :=
  if c.path = .lormal1 then rcAccess
  else if c.role < 2 ∧ !(acc = 0xB200 ∧ sub = 1) then rcAccess
  else if o.cls ≤ 1 then rcAccess
  else if o.cls = 4 ∧ s.haltedFor c o acc = false then rcNotHalted
  else if o.cls = 5 ∧ s.sigAllowed c acc = false then rcNotSigned
  else rcOk

/-- The checks of WRITE in order, and the value written (R23). -/
def State.writeCheck (s : State) (c : Caller) (acc sub : Nat) (data : List Byte) : Except Nat Nat := match c.look acc sub with
  | .error e => .error e
  | .ok o =>
    if o.ty = 0x0D then .error rcAccess
    else if s.mayWrite c o acc sub ≠ rcOk then .error (s.mayWrite c o acc sub)
    else if o.ty < 0x0B ∧ data.length ≠ o.len ∨ o.len < data.length then .error rcLength
    else
      let v := if o.ty < 0x0B && c.big then beNat data else leNat data
      if (o.ty = 1 ∧ 1 < v) ∨ o.limits.ok v = false then .error rcRange
      else if bitOf o.flags 0 && s.obj 0xA100 3 != 0 then .error rcConflict
      else .ok v

/-! ### Writes with effects -/

/-- Store a written value (R28, R30): one that applies at beat open leaves the old one in use until then; every write of a persistent object is written to flash, one of an equal value too. -/
def State.store (s : State) (acc sub v : Nat) : State :=
  let key := objKey acc sub
  let t := if bitOf (objFlags acc sub) 4 then { s with inUse := mset none s.inUse key (some (s.objUsed acc sub)) } else s
  let t := t.put acc sub v
  if bitOf (objFlags acc sub) 0 then t.persist acc sub v else t

/-- Whether half-open ranges share something. -/
def meet (a b c d : Nat) : Bool := decide (a < b) && decide (c < d) && decide (a < d) && decide (c < b)

/-- The bytes of a wing's payload region (R312). -/
def poolBytes (full half : Nat) : Nat := 4096 * full + 2048 * half

/-- A pool lies in its window, or is empty (R312). -/
def poolInside (base size lo hi : Nat) : Bool := size == 0 || (decide (lo ≤ base) && decide (base + size ≤ hi))

/-- A write of HBM_BASE or HBM_LIMIT (R66, R67, R312, R313): what the window gains reads zero, merge entries that still hold bytes of it included. -/
def State.windowWrite (s : State) (w sub v : Nat) : State × Nat :=
  let lo0 := s.obj (0x3000 + w) 1
  let hi0 := s.obj (0x3000 + w) 2
  let lo := if sub = 1 then v else lo0
  let hi := if sub = 2 then v else hi0
  let others := (List.range 16).filter (· != w)
  let size := poolBytes (s.obj (0x7100 + w) 2) (s.obj (0x7100 + w) 3)
  if hi < lo ∨ usableBytes < hi then (s, rcRange)
  else if others.any (fun o => meet lo hi (s.obj (0x3000 + o) 1) (s.obj (0x3000 + o) 2)) || (decide (lo < hi) && decide (s.obj 0x7000 2 < hi)) ||
      !poolInside (s.obj (0x7100 + w) 1) size lo hi then (s, rcConflict)
  else
    let added := if lo0 < hi0 then [(lo, min lo0 hi), (max hi0 lo, hi)] else [(lo, hi)]
    let mem := added.foldl (fun (m : Mem) (e : Nat × Nat) => if e.1 < e.2 then m.clearGranules e.1 e.2 else m) s.mem
    let t := { s with mem := { mem with merges := mem.merges.filter (fun x => !added.any (fun e => decide (e.1 ≤ 64 * x.sector) && decide (64 * x.sector < e.2))) } }
    (t.store (0x3000 + w) sub v, rcOk)

/-- Shares of two wings overlap in a hall that both may use (R613). -/
def State.sharesMeet (s : State) (w lo hi mask : Nat) : Bool :=
  ((List.range 16).filter (· != w)).any (fun o =>
    meet lo hi (s.obj (0x3010 + o) 1) (s.obj (0x3010 + o) 2) && (s.obj (0x3000 + o) 5 &&& mask) != 0)

/-- Set a part of the hall stores, in 64 KiB units, to the unwritten pattern (R389, R613). -/
def State.clearShare (s : State) (halls lo hi : Nat) : State :=
  { s with mem := (setBitsOf 8 halls).foldl (fun m h => if lo < hi then m.unwrite (hallAddr h + 65536 * lo) (hallAddr h + 65536 * hi) else m) s.mem }

/-- A write of HS_BASE or HS_LIMIT (R613). -/
def State.shareWrite (s : State) (w sub v : Nat) : State × Nat :=
  let lo0 := s.obj (0x3010 + w) 1
  let hi0 := s.obj (0x3010 + w) 2
  let lo := if sub = 1 then v else lo0
  let hi := if sub = 2 then v else hi0
  let mask := s.obj (0x3000 + w) 5
  if s.sharesMeet w lo hi mask then (s, rcConflict)
  else
    let t := if lo < hi then (s.clearShare mask lo0 (min lo hi0)).clearShare mask (max hi lo0) hi0 else s.clearShare mask lo0 hi0
    (t.store (0x3010 + w) sub v, rcOk)

/-- A write of HALL_MASK (R65, R613): the share leaves the halls that the wing leaves. -/
def State.maskWrite (s : State) (w v : Nat) : State × Nat :=
  let lo := s.obj (0x3010 + w) 1
  let hi := s.obj (0x3010 + w) 2
  if s.sharesMeet w lo hi v then (s, rcConflict)
  else ((s.clearShare (bitsLess (s.obj (0x3000 + w) 5) v) lo hi).store (0x3000 + w) 5 v, rcOk)

/-- A write of POOL_BASE, FULL_SLOTS or HALF_SLOTS (R312, R313, R315): the pool is rebuilt at the next run command. -/
def State.poolWrite (s : State) (w sub v : Nat) : State × Nat :=
  let f := fun (o k : Nat) => if o = w ∧ k = sub then v else s.obj (0x7100 + o) k
  let size := poolBytes (f w 2) (f w 3)
  let sides := ((List.range 16).map (fun o => 256 * (f o 2 + f o 3))).sum
  if !poolInside (f w 1) size (s.obj (0x3000 + w) 1) (s.obj (0x3000 + w) 2) || decide (s.obj 0x7000 1 < sides) then (s, rcConflict)
  else if v = s.obj (0x7100 + w) sub then (s.store (0x7100 + w) sub v, rcOk)
  else ((s.store (0x7100 + w) sub v).moveSides.setWing w { s.wing w with poolStale := true }, rcOk)

/-- A write of SIDE_AREA_BYTES (R313): the area lies above every window and holds every pool's records. -/
def State.sideWrite (s : State) (v : Nat) : State × Nat :=
  let sides := ((List.range 16).map (fun o => 256 * (s.obj (0x7100 + o) 2 + s.obj (0x7100 + o) 3))).sum
  let base := usableBytes - v
  if usableBytes < v then (s, rcRange)
  else if (List.range 16).any (fun w => meet (s.obj (0x3000 + w) 1) (s.obj (0x3000 + w) 2) base usableBytes) || decide (v < sides) then (s, rcConflict)
  else (((s.store 0x7000 1 v).put 0x7000 2 base).moveSides, rcOk)

/-- A write of ERROR_RING_BASE or ERROR_RING_ENTRIES (R576). -/
def State.ringWrite (s : State) (sub v : Nat) : State × Nat :=
  let base := if sub = 1 then v else s.obj 0x5000 1
  let n := if sub = 2 then v else s.obj 0x5000 2
  let top := base + 64 * n
  if (List.range 16).any (fun w => meet base top (s.obj (0x3000 + w) 1) (s.obj (0x3000 + w) 2)) || (n != 0 && decide (s.obj 0x7000 2 < top)) then (s, rcConflict)
  else (s.store 0x5000 sub v, rcOk)

/-- The torus shapes (R64). -/
def shapeOk (x y : Nat) : Bool := [(4, 4), (2, 8), (4, 8), (8, 8)].contains (x, y)

/-- A write of the torus settings (R32, R63, R64), which take effect at the next start. DESIGN CHOICE (log entry 184): a write of TORUS_X or TORUS_Y that makes an accepted shape is taken even where it leaves DEVICE_ID_SET outside that shape. -/
def State.torusWrite (s : State) (sub v : Nat) : State × Nat := match sub with
  | 1 => if shapeOk v (s.obj 0x2100 2) then (s.store 0x2100 1 v, rcOk) else (s, rcRange)
  | 2 => if shapeOk (s.obj 0x2100 1) v then (s.store 0x2100 2 v, rcOk) else (s, rcRange)
  | 3 => if v < 64 ∧ devX v < s.obj 0x2100 1 ∧ devY v < s.obj 0x2100 2 then (s.store 0x2100 3 v, rcOk) else (s, rcRange)
  | 4 => (s.store 0x2100 4 v, rcOk)
  | _ =>
    if v = 1 then
      (State.setObj { s with flash := { s.flash with store := [], domains := [], remap := [], badCopies := [], queue := [] } } 0x1020 0xB 0, rcOk)
    else (s, rcOk)

/-- HALT (R68): the wing stops at the next seal. -/
def State.haltWing (s : State) (w : Nat) : State × Nat := if s.wingState w = 1 then (s.put (0x3000 + w) 3 2, rcOk) else (s, rcRange)

/-- RUN (R68, R315): a changed pool is rebuilt. -/
def State.runWing (s : State) (w : Nat) : State × Nat :=
  if s.wingState w ≠ 0 then (s, rcRange)
  else
    let t := if (s.wing w).poolStale then State.setWing ((s.rebuildPool w).publishPool w) w { s.wing w with poolStale := false } else s
    (t.put (0x3000 + w) 3 1, rcOk)

/-- CLEAR_FATAL (R568): the wing's rings close and their loans go at the next seal, its launches, remote flags and job are gone. DESIGN CHOICE (log entry 185): a RUN_JOB that waits behind the job keeps waiting, and JOB_STATE then reads 1 (R251). -/
def State.clearWing (s : State) (w : Nat) : State × Nat :=
  if s.wingState w ≠ 3 then (s, rcRange)
  else
    let shut := fun (r : Ring) => if r.wing = w ∧ r.isOpen then { r with closing := true } else r
    let empty := fun (r : Ring) => if r.wing = w ∧ r.isOpen then { r with slots := r.slots.map (fun x => { x.drop 0 with landed := false, ok := false }) } else r
    let mine := (s.coll.groups.filter (fun e => e.2.any (fun g => g.wing == w))).map Prod.fst
    let t := { s with
      work := { s.work with
        rings := s.work.rings.map (fun (e : Nat × Ring) => (e.1, empty (shut e.2))), ringsSeal := s.work.ringsSeal.map (fun (e : Nat × Ring) => (e.1, shut e.2))
        remote := s.work.remote.filter (fun e => e.1 / 64 != w), seqs := s.work.seqs.filter (fun e => e.2.wing != w) }
      coll := { s.coll with
        launches := s.coll.launches.filter (fun l => l.wing != w), launchesSeal := s.coll.launchesSeal.filter (fun l => l.wing != w)
        runs := s.coll.runs.filter (fun r => !mine.contains r.group) } }
    let t := t.setWing w { t.wing w with job := none, fatal := none }
    ((t.publishJob w).put (0x3000 + w) 3 0, rcOk)

/-- A write to COMMAND of a wing (R68). -/
def State.commandWrite (s : State) (w v : Nat) : State × Nat := match v with
  | 1 => s.haltWing w
  | 2 => s.runWing w
  | 3 => s.clearWing w
  | _ => (s, rcRange)

/-- A write of VF_ENABLE (R65, R501, R523): a virtual function that stops responding is reset. -/
def State.vfWrite (s : State) (w v : Nat) : State × Nat :=
  let t := if v = 0 ∧ s.vfActive w = true then s.resetFunction (w + 1) else s
  (t.store (0x3000 + w) 6 v, rcOk)

/-- A write of MODE (R400): Ethernet on D12-D15 alone. -/
def State.modeWrite (s : State) (d v : Nat) : State × Nat :=
  if v = 1 ∧ d < 12 then (s, rcRange)
  else ((if s.obj (doorAcc d) 1 = v then s else s.setMode d v).persist (doorAcc d) 1 v, rcOk)

/-- A write of a SHIP_ID to SHIP_CANCEL (R493, R496): through a virtual function it names the wing's own shipment; the anchor carries it to every package. -/
def State.shipCancelWrite (s : State) (c : Caller) (v : Nat) : State × Nat :=
  let fn := c.fn.getD 0
  let t := s.cancelShip (if fn = 0 then none else some (fn - 1)) v
  (if s.isAnchor && !(match c.path with | .torus _ => true | _ => false) then
    t.others.foldl (fun t d => t.send (.distribute d (fn - 1) (viewOf fn) 0x21 0 (leBytes 4 v))) t
  else t, rcOk)

/-- What a write sets off, and its result (R28, R34); `highFor` is how long COOLANT_OK has been high, in µs (R552). DESIGN CHOICE (log entry 186): a write of BEAT_SOURCE takes a master that had lost BEAT_IN back to it (R79). -/
def State.writeValue (s : State) (c : Caller) (acc sub v highFor : Nat) : State × Nat :=
  let w := acc % 16
  if acc / 16 = 0x300 then (match sub with
    | 1 => s.windowWrite w 1 v
    | 2 => s.windowWrite w 2 v
    | 4 => s.commandWrite w v
    | 5 => s.maskWrite w v
    | _ => s.vfWrite w v)
  else if acc / 16 = 0x301 then s.shareWrite w sub v
  else if acc = 0x2100 then s.torusWrite sub v
  else if acc / 16 = 0x710 ∧ sub ≤ 3 then s.poolWrite w sub v
  else if acc = 0x7000 ∧ sub = 1 then s.sideWrite v
  else if acc / 16 = 0x800 ∧ sub = 1 then s.modeWrite w v
  else if 0x8200 ≤ acc ∧ acc < 0x8204 then s.laserCommand (acc - 0x8200) v
  else if acc / 16 = 0x910 ∧ sub = 2 then (match s.deleteGroup w v with
    | .ok t => (t, rcOk)
    | .error e => (s, e))
  else if acc = 0xD100 ∧ sub = 3 then s.shipCancelWrite c v
  else if acc = 0x4140 ∧ sub = 6 then s.divergenceClear v
  else if acc = 0x4200 ∧ sub = 5 then s.coolantCommand v highFor
  else if acc = 0x4120 ∧ sub = 3 then
    let t := s.store 0x4120 3 v
    (if t.power.share = none then t.put 0x4120 9 v else t, rcOk)
  else if acc = 0x4010 ∧ bitOf v 16 = true ∧ 17 < bits v 15 8 then (s, rcRange)
  else if acc = 0x4120 ∧ sub = 7 then
    (if v = 0 ∨ (1200 ≤ v ∧ v ≤ 2400 * s.torusIds.length) then (s.store 0x4120 7 v, rcOk) else (s, rcRange))
  else if acc = 0x5000 ∧ sub ≤ 2 then s.ringWrite sub v
  else if acc = 0x5300 ∧ sub = 1 then s.activateWrite v
  else if acc = 0x5300 ∧ sub = 4 then s.removalWrite v
  else if acc = 0xA100 ∧ sub = 1 then s.stopWrite v
  else if acc = 0xA100 then (s, if v = 1 then rcOk else rcRange)
  else if acc = 0xB300 then (s, if v ≠ 1 then rcRange else if s.debugRefused then rcConflict else rcOk)
  else if acc = 0x1020 ∧ sub = 3 then ((s.store acc sub v).formAddress, rcOk)
  else if 0xD000 ≤ acc ∧ acc ≤ 0xD003 ∧ sub ≤ 2 then
    let t := s.store acc sub v
    (if t.obj acc 8 = 1 then t.probeDoor (acc - 0xD000) else t, rcOk)
  else if acc = 0x1020 ∧ 4 ≤ sub ∧ sub ≤ 8 then ((s.store acc sub v).programPhy, rcOk)
  else if acc = 0x1022 then (match c.path with
    | .lormal id => ({ s with server := { s.server with sessions := updFirst (fun (x : Session) => x.id == id) (fun x => { x with mask := v }) s.server.sessions } }, rcOk)
    | _ => (s.setWindow (c.fn.getD 0) { s.window (c.fn.getD 0) with mask := v }, rcOk))
  else if acc = 0x6000 ∧ sub = 3 then
    let t := s.store 0x6000 3 v
    ({ t with beat := { t.beat with ownTimer := false } }, rcOk)
  else (s.store acc sub v, rcOk)

/-- What follows a write's response (R594, R619). -/
def State.afterWrite (s : State) (c : Caller) (acc sub : Nat) : State :=
  if acc = 0xA100 ∧ sub = 2 then s.warmReset
  else if acc = 0xB300 then s.openDebug c.path.index
  else s

/-- WRITE (R28, R33, R34). -/
def State.writeObject (s : State) (c : Caller) (acc sub : Nat) (data : List Byte) (highFor : Nat) : State × Nat := match s.writeCheck c acc sub data with
  | .error e => (s, e)
  | .ok v => s.writeValue c acc sub v highFor

/-! ### Blocks (R25, R39) -/

/-- READ_BLOCK (R25). -/
def State.readBlock (s : State) (c : Caller) (acc sub offset len : Nat) : Nat × List Byte := match c.look acc sub with
  | .error e => (e, [])
  | .ok o =>
    if o.ty ≠ 0x0D ∨ o.hidden = true then (rcAccess, [])
    else if acc / 16 = 0xC30 then
      if 524288 < offset then (rcRange, []) else (rcOk, s.accountBytes (acc % 16) offset (min len (524288 - offset)))
    else
      let b := s.domain c acc sub
      if b.length < offset then (rcRange, []) else (rcOk, (b.drop offset).take len)

/-- What the last segment of a DOMAIN write does (R439, R609, R610). -/
def State.domainWritten (s : State) (c : Caller) (acc : Nat) (b : List Byte) : State × Nat :=
  if acc / 16 = 0x910 then (match s.defineGroup (acc % 16) b with
    | .ok t => (t, rcOk)
    | .error e => (s, e))
  else if acc = 0xB100 then (s.finishSlot b, rcOk)
  else match c.path with
    | .lormal id => (s.spdmRequest id b, rcOk)
    | _ => (s, rcAccess)

/-- The checks of WRITE_BLOCK but for the claim: class and role, its length, and what the object itself refuses (R25, R609, R610). -/
def State.blockCheck (s : State) (c : Caller) (acc sub len : Nat) : Nat := match c.look acc sub with
  | .error e => e
  | .ok o =>
    if o.ty ≠ 0x0D then rcAccess
    else if s.mayWrite c o acc sub ≠ rcOk then s.mayWrite c o acc sub
    else if acc = 0xB200 ∧ (match c.path with | .lormal _ => false | _ => true) = true then rcAccess
    else if (if c.big then 1024 else 32768) < len then rcLength
    else if acc = 0xB100 ∧ s.obj 0x5300 2 ≠ 0 ∧ s.obj 0xA000 1 ≠ 0x0F then rcConflict
    else rcOk

/-- WRITE_BLOCK under the claim of R39. -/
def State.writeBlock (s : State) (c : Caller) (acc sub offset : Nat) (data : List Byte) (last : Bool) : State × Nat :=
  let rc := s.blockCheck c acc sub data.length
  let key := objKey acc sub
  let held := s.server.claims.find? (fun x => x.key == key)
  let free := fun (t : State) => { t with server := { t.server with claims := t.server.claims.filter (fun x => x.key != key) } }
  if rc ≠ rcOk then (s, rc)
  else match held.bind (fun x => if x.who = c.path then none else some x), offset == 0, held with
    | some _, _, _ => (s, rcBusy)
    | none, false, none => (s, rcRange)
    | none, first, h =>
      let old := if first then [] else (h.map Claim.data).getD []
      let b := overlay (fitBytes (max old.length (offset + data.length)) old) offset data
      let t := if acc = 0xB100 && first then s.setSlot s.otherSlot { s.slot s.otherSlot with status := 4 } else s
      if last then (free t).domainWritten c acc b
      else ({ free t with server := { (free t).server with claims := (free t).server.claims ++ [⟨key, c.path, b⟩] } }, rcOk)

end Sys2Proof.Machine
end

