-- ==== Sys2Proof/Machine/Server.lean ====
section
/-! DEFINITION. The Catalogue server's paths (R34-R44): PCIe windows, Lormal frames (R50-R60), the torus (R36, R616), and the commands that requests, registers and timers make. -/

namespace Sys2Proof.Machine

open Sys2Proof

/-! ### Answers -/

/-- Where an answer goes: a window, a Lormal frame to a node with the fields it repeats (version, session, sequence of an unnumbered answer, kind, accession, subindex, flags, offset), or the anchor that forwarded the request for a function's window. -/
inductive Back where
  | window (fn : Nat)
  | frame (node : Peer) (version session seq kind acc sub flags offset : Nat)
  | torus (anchor fn : Nat)
deriving DecidableEq, Repr

/-- A request that a path holds: who asks, for what, where the answer goes, and the package another one must serve it on (R36). -/
structure Ask where
  caller : Caller
  req    : Request
  back   : Back
  target : Option Nat
deriving DecidableEq, Repr

/-- Place bytes into a window's data buffer. -/
def Window.fill (w : Window) (offset : Nat) (data : List Byte) : Window :=
  { w with buffer := (data.zipIdx).foldl (fun m e => mset 0#8 m (offset + e.2) e.1) w.buffer }

/-- The first bytes of the data buffer. -/
def Window.bytes (w : Window) (n : Nat) : List Byte := (List.range n).map (fun i => mget 0#8 w.buffer i)

/-- Complete a window's request (R42). -/
def State.answerWindow (s : State) (fn rc : Nat) (data : List Byte) : State :=
  let w := s.window fn
  if w.busy then s.setWindow fn { w.fill 0 data with busy := false, done := true, result := rc, returned := data.length } else s

/-- Answer in a Lormal session (R53): the next number, a tag, and the frame is kept for a repeat. -/
def State.answerSession (s : State) (node : Peer) (id : Nat) (frame : Nat → List Byte) : State :=
  match s.server.sessions.find? (fun x => x.id == id && !x.window) with
  | none => s
  | some x =>
    let f := withTag x.key (frame (x.txSeq + 1))
    let xs := updFirst (fun (y : Session) => y.id == id) (fun y => { y with txSeq := y.txSeq + 1, stored := f }) s.server.sessions
    State.sendLormal { s with server := { s.server with sessions := xs } } node f

/-- Answer a request (R33): result code and data. -/
def State.replyTo (s : State) (b : Back) (rc : Nat) (data : List Byte) : State := match b with
  | .window fn => s.answerWindow fn rc data
  | .torus anchor fn => s.send (.result anchor (.catalogue fn rc data))
  | .frame node version session seq kind acc sub flags offset =>
    let f := fun (n : Nat) => lormalHead version (kind % 128 + 128) session n acc sub flags offset data.length rc ++ data
    if session = 0 then s.sendLormal node (f seq) else s.answerSession node session f

/-! ### Taking a request -/

/-- The server is paused: at start before START_STATE 1 (R589), in live activation (R41), while the curator restarts (R573). -/
def State.paused (s : State) : Bool := s.obj 0xA000 1 == 0 || s.obj 0x5300 2 == 1 || s.cur.down

/-- Service mode serves the request (R588). -/
def Caller.inService (c : Caller) (r : Request) : Bool :=
  (match c.path with
    | .window fn => fn == 0
    | .torus _ => false
    | _ => true) &&
  (r.op == 6 || [0xB000, 0xB100, 0x1030].contains r.acc || (r.acc == 0x1022 && r.sub == 2) ||
    (rowsOf r.acc).any (fun o => bitOf o.flags 3 && (r.sub == 0 || (decide (o.sub ≤ r.sub) && decide (r.sub ≤ o.subHi)))))

/-- What a path holds: nothing to serve, a state in which the matter is settled, or a request. -/
inductive Taken where
  | nothing
  | settled (t : State)
  | request (a : Ask) (t : State)

/-- The request of a window's registers (R42). -/
def Window.request (w : Window) : Request :=
  let op := bits w.req 7 0
  let len := bits w.req 47 32
  { op := op, acc := bits w.req 31 16, sub := bits w.req 15 8, length := len, offset := bits w.offset 31 0, describe := bitOf w.req 55
    snapshot := bitOf w.req 56, last := bitOf w.req 57, data := if op = 2 ∨ op = 4 ∨ op = 6 then w.bytes (min len 32768) else [] }

/-- Take a window's request: its form, the server's pause, and the package it is for (R33, R36, R41-R44). -/
def State.takeWindow (s : State) (fn : Nat) : Taken :=
  let w := s.window fn
  let r := w.request
  let c := s.windowCaller fn
  let end_ := fun (rc : Nat) => Taken.settled (s.answerWindow fn rc [])
  if !s.fnActive fn || !w.busy || s.server.forwards.any (fun e => e.1 == fn) then .nothing
  else if s.paused || (s.obj 0xA000 1 == 0x0F && !c.inService r) then end_ rcUnavailable
  else if 32768 < r.length then end_ rcLength
  else if r.op = 6 then (if fn = 0 then .request ⟨c, r, .window fn, none⟩ s else end_ rcAccess)
  else
    let d := bits w.req 53 48
    if bitOf w.req 54 && d != s.device then
      if s.isAnchor && s.others.contains d then .request ⟨c, r, .window fn, some d⟩ s else end_ rcUnreachable
    else .request ⟨c, r, .window fn, none⟩ s

/-- A dropped frame (R52). -/
def State.dropFrame (s : State) : State := s.count 0x1020 0x0D 1

/-- The request of a frame (R50, R51); a READ_BLOCK asks for LENGTH bytes, or for a whole segment. -/
def frameRequest (f : List Byte) (tagged : Nat) : Request :=
  let len := beAt f 20 2
  let kind := beAt f 3 1
  let flags := beAt f 15 1
  { op := kind, acc := beAt f 12 2, sub := beAt f 14 1, length := if kind = 3 ∧ len ≠ 0 then len else 1024, offset := beAt f 16 4, describe := bitOf flags 0
    snapshot := bitOf flags 1, last := bitOf flags 2, data := slice f 24 (f.length - 24 - tagged) }

/-- Where a frame's answer goes. -/
def frameBack (node : Peer) (f : List Byte) (version session : Nat) : Back :=
  .frame node version session (beAt f 8 4) (beAt f 3 1) (beAt f 12 2) (beAt f 14 1) (beAt f 15 1) (beAt f 16 4)

/-- A frame's reserved fields are zero: FLAGS [7:3] and byte 23 (R50). -/
def frameFormed (f : List Byte) : Bool :=
  decide (24 ≤ f.length) && beAt f 0 2 == 0x4C4D && decide (beAt f 15 1 < 8) && beAt f 23 1 == 0 && decide (beAt f 20 2 ≤ 1024)

/-- Take a frame in a session (R52, R53): a repeat gets the stored answer. -/
def State.takeTagged (s : State) (from_ : Peer) (f : List Byte) : Taken :=
  let id := beAt f 4 4
  let seq := beAt f 8 4
  let body := f.take (f.length - 16)
  match s.server.sessions.find? (fun x => x.id == id && !x.window) with
  | none => .settled s.dropFrame
  | some x =>
    if f.length ≠ 40 + beAt f 20 2 ∨ f ≠ withTag x.key body ∨ seq < max 1 x.lastSeq then .settled s.dropFrame
    else if seq = x.lastSeq then .settled (s.sendLormal from_ x.stored)
    else
      let xs := updFirst (fun (y : Session) => y.id == id) (fun y => { y with lastSeq := seq, peer := from_ }) s.server.sessions
      let t := { s with server := { s.server with sessions := xs } }
      let a : Ask := ⟨sessionCaller x, frameRequest f 16, frameBack from_ f 0x20 id, none⟩
      if s.obj 0xA000 1 = 0x0F ∧ a.caller.inService a.req = false then .settled (t.replyTo a.back rcUnavailable []) else .request a t

/-- Take a frame of Lormal 1.x (R54): what may be read is public, every other request is answered with ACCESS. -/
def State.takeOld (s : State) (from_ : Peer) (f : List Byte) : Taken :=
  let a : Ask := ⟨oldCaller, frameRequest f 0, frameBack from_ f (beAt f 2 1) 0, none⟩
  if beAt f 4 4 ≠ 0 ∨ f.length ≠ 24 + beAt f 20 2 then .settled s.dropFrame
  else if s.obj 0xA000 1 = 0x0F ∧ oldCaller.inService a.req = false then .settled (s.replyTo a.back rcUnavailable [])
  else if a.req.op = 1 ∨ a.req.op = 3 then .request a s
  else .settled (s.replyTo a.back rcAccess [])

/-- Take a Lormal frame (R50-R54, R61); the answers of a session's opening carry SEQUENCE 0 (R53). DESIGN CHOICE (log entry 183): a SESSION_OPEN whose ACCESSION, SUBINDEX or OFFSET is not zero is accepted, and phase 2 repeats them. -/
def State.takeLormal (s : State) (from_ : Peer) (f : List Byte) : Taken :=
  if s.obj 0x1020 1 = 0 ∨ s.paused = true ∨ s.server.duplicate = true then .nothing
  else if !frameFormed f then .settled s.dropFrame
  else match beAt f 2 1 / 16 with
    | 1 => s.takeOld from_ f
    | 2 =>
      if beAt f 4 4 ≠ 0 then s.takeTagged from_ f
      else if beAt f 3 1 = 6 ∧ f.length = 24 + beAt f 20 2 then
        .request ⟨oldCaller, frameRequest f 0, .frame from_ 0x20 0 0 6 (beAt f 12 2) (beAt f 14 1) (beAt f 15 1) (beAt f 16 4), none⟩ s
      else .settled s.dropFrame
    | _ => .settled (s.replyTo (frameBack from_ f 0x20 0) rcAccess [])

/-- What an Ethernet frame of the field network brings: nothing where it carries no Lormal frame to this device (R49). -/
def State.takeEther (s : State) (f : List Byte) : Taken := match s.fieldDatagram f with
  | some d => s.takeLormal d.1 d.2
  | none => .nothing

/-! ### Turns (R38) -/

/-- The rotating priority of a path index: ready requests are taken in ascending order (R38, R248). -/
def State.pathKey (s : State) (index : Nat) : Nat := (s.beatNo + index) % 19

/-- The session a frame is of; 0 for none. -/
def State.frameSession (s : State) (f : List Byte) : Nat := match s.fieldDatagram f with
  | some d => beAt d.2 4 4
  | none => 0

/-- Where a request stands in the order: its path's key, and for a frame its session's distance from the session served last (R38). -/
def State.windowOrder (s : State) (fn : Nat) : Nat := s.pathKey fn * 2 ^ 32
def State.torusOrder (s : State) : Nat := s.pathKey 17 * 2 ^ 32
def State.frameOrder (s : State) (f : List Byte) : Nat :=
  s.pathKey 18 * 2 ^ 32 + (s.frameSession f + 2 ^ 32 - 1 - s.server.lastLormal % 2 ^ 32) % 2 ^ 32

/-- Places of the requests that are ready: those of the windows, and those that wait. -/
def State.readyOrders (s : State) : List Nat :=
  ((List.range 17).filter (fun fn => s.fnActive fn && (s.window fn).busy)).map s.windowOrder ++
    s.server.ready.filterMap (fun x => match x with
      | .torus .. => some s.torusOrder
      | .frame f => match s.takeEther f with
        | .request .. => some (s.frameOrder f)
        | _ => none)

/-- It is a request's turn (R38): no request is under way, and none that is ready comes before it. -/
def State.turn (s : State) (order : Nat) : Bool := s.server.forwards.isEmpty && !s.readyOrders.any (fun o => decide (o < order))

/-- A request waits for its turn, or has had it. -/
def State.await (s : State) (x : Waiting) : State :=
  if s.server.ready.contains x then s else { s with server := { s.server with ready := s.server.ready ++ [x] } }
def State.unawait (s : State) (x : Waiting) : State := { s with server := { s.server with ready := s.server.ready.filter (· != x) } }

/-- Take the request of a path; one whose turn has not come waits (R38). -/
def State.take (s : State) (src : Src) : Taken := match src with
  | .window fn => if s.paused || s.turn (s.windowOrder fn) then s.takeWindow fn else .nothing
  | .frame f => match s.takeEther f with
    | .request a t =>
      if s.turn (s.frameOrder f) then
        let t := t.unawait (.frame f)
        .request a (if s.frameSession f = 0 then t else { t with server := { t.server with lastLormal := s.frameSession f } })
      else .settled (s.await (.frame f))
    | .settled t => .settled (t.unawait (.frame f))
    | .nothing => .nothing

/-! ### Which row a request is -/

/-- The rows of the command table that serve requests. -/
inductive Row where
  | read | describe | snapshot | readBlock | sessionClose | write | writeBlock | open1 | open3
  | halt | run | clearFatal | restoreDefaults | window | share | mode | prepareRemoval | returnToService
  | groupDefine | groupDelete | shipCancel | divergence | coolant | activate | confirm | revert
  | removalPrepare | removalAfterStop | removalCancel | reset | stopTest | stopPlain | slotWrite | debugOpen
deriving DecidableEq, Repr

/-- The row of a WRITE, by its object and value. -/
def writeRow (acc sub v : Nat) : Row :=
  if acc / 16 = 0x300 ∧ (sub = 1 ∨ sub = 2) then .window
  else if acc / 16 = 0x300 ∧ sub = 4 then (if v = 1 then .halt else if v = 2 then .run else if v = 3 then .clearFatal else .write)
  else if acc / 16 = 0x301 then .share
  else if acc = 0x2100 ∧ sub = 5 then .restoreDefaults
  else if acc / 16 = 0x800 ∧ sub = 1 then .mode
  else if 0x8200 ≤ acc ∧ acc < 0x8204 ∧ sub = 2 then (if v = 1 then .prepareRemoval else if v = 2 then .returnToService else .write)
  else if acc / 16 = 0x910 ∧ sub = 2 then .groupDelete
  else if acc = 0xD100 ∧ sub = 3 then .shipCancel
  else if acc = 0x4140 ∧ sub = 6 then .divergence
  else if acc = 0x4200 ∧ sub = 5 then .coolant
  else if acc = 0x5300 ∧ sub = 1 then (if v = 1 then .activate else if v = 2 then .confirm else if v = 3 then .revert else .write)
  else if acc = 0x5300 ∧ sub = 4 then
    (if v = 1 then .removalPrepare else if v = 2 then .removalAfterStop else if v = 3 then .removalCancel else .write)
  else if acc = 0xA100 ∧ sub = 1 then (if v = 1 then .stopTest else if v = 2 then .stopPlain else .write)
  else if acc = 0xA100 ∧ sub = 2 then .reset
  else if acc = 0xB300 ∧ sub = 1 then .debugOpen
  else .write

/-- The row of a request. An operation that the manual does not name counts as a READ. -/
def Ask.row (a : Ask) : Row :=
  let r := a.req
  match r.op with
  | 2 => writeRow r.acc r.sub (if a.caller.big then beNat r.data else leNat r.data)
  | 3 => .readBlock
  | 4 => if r.acc / 16 = 0x910 then .groupDefine else if r.acc = 0xB100 ∧ r.sub = 7 then .slotWrite else .writeBlock
  | 6 => if beAt r.data 0 1 = 3 then .open3 else .open1
  | 1 => if r.describe then .describe else if r.snapshot && r.sub == 0 then .snapshot
    else if r.acc = 0x1022 ∧ r.sub = 2 then .sessionClose else .read
  | _ => .read

/-! ### Sessions (R44, R53-R60) -/

/-- SESSIONS_OPEN (R61). -/
def State.publishSessions (s : State) : State := s.put 0x1020 9 s.server.sessions.length

/-- Close a session. -/
def State.closeSession (s : State) (id : Nat) : State :=
  State.publishSessions { s with server := { s.server with sessions := s.server.sessions.filter (fun x => x.id != id) } }

/-- The session of a caller. -/
def State.sessionOf (s : State) (c : Caller) : Option Nat := match c.path with
  | .lormal id => some id
  | .window fn => if fn = 0 then s.windowSession.map Session.id else none
  | _ => none

/-- The operator key of a slot: its role, and the public key's 64 bytes (R61). -/
def State.operatorRole (s : State) (slot : Nat) : Nat := s.obj 0x1030 slot % 256
def State.operatorKey (s : State) (slot : Nat) : List Byte := leBytes 64 (s.obj 0x1030 slot / 256)

/-- The path is the physical-function window. -/
def Back.isWindow : Back → Bool
  | .window _ => true
  | _ => false

/-- The node that a frame's answer goes to. -/
def Back.peer : Back → Peer
  | .frame node .. => node
  | _ => {}

/-- Refuse an open; a frame with reserved bytes set is dropped instead (R52), and a window's are ignored (R5). -/
def State.refuseOpen (s : State) (b : Back) (rc : Nat) : State := s.replyTo b rc []

/-- Phase 1 (R55, R57): the device answers with its nonce, its ephemeral key and its signature. -/
def State.openPhase1 (s : State) (b : Back) (data : List Byte) : State :=
  let slot := beAt data 1 1
  let open_ := s.server.sessions.length
  if data.length ≠ 100 then s.refuseOpen b rcLength
  else if beAt data 0 1 ≠ 1 then s.refuseOpen b rcRange
  else if beAt data 2 2 ≠ 0 ∧ !b.isWindow then s.dropFrame
  else if slot = 0 ∨ 8 < slot ∨ s.operatorRole slot = 0 then s.refuseOpen b rcAccess
  else if keyPoint (slice data 36 64) = none then s.refuseOpen b rcRange
  else if 4 ≤ open_ ∨ 2 ≤ s.server.half.length ∨ (b.isWindow ∧ (s.windowSession.isSome ∨ s.server.half.any HalfOpen.window)) then s.refuseOpen b rcBusy
  else
    let id := s.server.nextId
    let n := s.random 32
    let e := n.2.random 32
    let eph := beNat e.1 % (p256n - 1) + 1
    let k := Config.freeRandom e.2.free
    let t := { e.2 with free := e.2.free + 1 }
    let head := [(2 : Byte), 0, 0, 0] ++ beBytes 4 id ++ n.1 ++ publicKey eph
    let p2 := head ++ ecdsaSign s.sec.deviceKey k (data ++ head)
    let h : HalfOpen := { id := id, slot := slot, window := b.isWindow, phase1 := data, phase2 := p2, ephKey := eph }
    State.replyTo { t with server := { t.server with half := t.server.half ++ [h], nextId := id + 1 } } b rcOk p2

/-- The session key (R56). -/
def HalfOpen.sessionKey (h : HalfOpen) : List Byte :=
  let x := match pointMul h.ephKey (keyPoint (slice h.phase1 36 64)) with
    | some (x, _) => x
    | none => 0
  hkdf (slice h.phase1 4 32 ++ slice h.phase2 8 32) (beBytes 32 x) (ascii "lormal-2.0" ++ beBytes 4 h.id) 32

/-- Phase 4 (R55): on Lormal it bears the session's id and its first tag. -/
def State.sendPhase4 (s : State) (b : Back) (h : HalfOpen) (rc role : Nat) : State :=
  let p := [(4 : Byte)] ++ beBytes 1 rc ++ beBytes 1 role ++ [0] ++ beBytes 4 h.id
  if b.isWindow then s.replyTo b rc p
  else match b with
    | .frame node .. => s.sendLormal node (withTag h.sessionKey (lormalHead 0x20 0x86 h.id 0 0 0 0 0 8 rc ++ p))
    | _ => s

/-- Phase 3 (R55, R57): the signature is verified, and the slot's role is granted. -/
def State.openPhase3 (s : State) (b : Back) (data : List Byte) : State :=
  if data.length ≠ 72 then s.refuseOpen b rcLength
  else if beAt data 1 3 ≠ 0 ∧ !b.isWindow then s.dropFrame
  else match s.server.half.find? (fun h => h.id == beAt data 4 4 && h.window == b.isWindow) with
    | none => if b.isWindow then s.refuseOpen b rcAccess else s.dropFrame
    | some h =>
      let t := { s with server := { s.server with half := s.server.half.filter (· != h) } }
      let role := s.operatorRole h.slot
      if role = 0 ∨ ecdsaVerify (s.operatorKey h.slot) (h.phase1 ++ h.phase2 ++ data.take 8) (slice data 8 64) = false then t.sendPhase4 b h rcAccess 0
      else if 4 ≤ s.server.sessions.length then t.sendPhase4 b h rcBusy 0
      else
        let x : Session := { id := h.id, slot := h.slot, role := role, window := b.isWindow, lastSeq := 0, txSeq := 0, stored := [], key := h.sessionKey
                             mask := 0x0020, noteSeq := 0, spdm := {}, peer := b.peer }
        (State.publishSessions { t with server := { t.server with sessions := t.server.sessions ++ [x] } }).sendPhase4 b h rcOk role

/-! ### Serving -/

/-- Data of a read as a path returns it: a window gets at most LENGTH bytes (R42), a frame holds at most 1,024 (R50). -/
def Ask.trim (a : Ask) (rc : Nat) (data : List Byte) : Nat × List Byte :=
  if a.caller.big then (if 1024 < data.length then (rcLength, []) else (rc, data)) else (rc, data.take a.req.length)

/-- Serve a request on this package, and answer it. -/
def State.serveHere (s : State) (a : Ask) (highFor : Nat) : State :=
  let r := a.req
  let reply := fun (t : State) (rc : Nat) (data : List Byte) => t.replyTo a.back (a.trim rc data).1 (a.trim rc data).2
  match a.row with
  | .describe => let x := s.describeObject a.caller r.acc r.sub; reply s x.1 x.2
  | .snapshot =>
    let x := s.snapshotRecord a.caller r.acc
    reply s x.1 x.2
  | .readBlock =>
    let x := s.readBlock a.caller r.acc r.sub r.offset (min r.length (if a.caller.big then 1024 else 32768))
    reply s x.1 x.2
  | .sessionClose =>
    let x := s.readObject a.caller r.acc r.sub
    let t := reply x.1 x.2.1 x.2.2
    match (if x.2.1 = rcOk then s.sessionOf a.caller else none) with
    | some id => t.closeSession id
    | none => t
  | .read =>
    if r.op ≠ 1 then s.replyTo a.back rcAccess []
    else let x := s.readObject a.caller r.acc r.sub; reply x.1 x.2.1 x.2.2
  | .open1 => s.openPhase1 a.back r.data
  | .open3 => s.openPhase3 a.back r.data
  | .writeBlock | .groupDefine | .slotWrite =>
    let x := s.writeBlock a.caller r.acc r.sub r.offset r.data r.last
    x.1.replyTo a.back x.2 []
  | _ =>
    let x := s.writeObject a.caller r.acc r.sub r.data highFor
    let t := x.1.replyTo a.back x.2 []
    if x.2 = rcOk then t.afterWrite a.caller r.acc r.sub else t

/-- Carry a request to another package (R36, R616): the function is on record until the answer comes. -/
def State.forward (s : State) (a : Ask) (d : Nat) : State :=
  let fn := a.caller.fn.getD 0
  State.send { s with server := { s.server with forwards := s.server.forwards ++ [(fn, d)] } } (.forward d (fn - 1) (viewOf fn) a.req)

/-- Serve the request of a path when it is of a row; a frame that is dropped or repeated, and a request that the path itself ends, is settled whatever the row. -/
def State.serve (s : State) (row : Row) (src : Src) (highFor : Nat) : State := match s.take src with
  | .nothing => s
  | .settled t => t
  | .request a t =>
    if a.row ≠ row then s
    else match a.target with
      | some d => t.forward a d
      | none => t.serveHere a highFor

/-- What reads and session opens may change: the server and its windows, the free values drawn, the cycles that pass, what is sent, and the Catalogue's own counters. -/
def keepRead (s t : State) : State := { s with server := t.server, free := t.free, out := t.out, cat := t.cat, cur := { s.cur with cycles := t.cur.cycles } }

/-- READ (R25, R26, R42). -/
def execRead (src : Src) (s : State) : Host.Outcome State Fault Refusal := .next (keepRead s (s.serve .read src 0))

/-- DESCRIBE (R22). -/
def execDescribe (src : Src) (s : State) : Host.Outcome State Fault Refusal := .next (keepRead s (s.serve .describe src 0))

/-- SNAPSHOT (R40). -/
def execSnapshot (src : Src) (s : State) : Host.Outcome State Fault Refusal := .next (keepRead s (s.serve .snapshot src 0))

/-- READ_BLOCK (R25). -/
def execReadBlock (src : Src) (s : State) : Host.Outcome State Fault Refusal := .next (keepRead s (s.serve .readBlock src 0))

/-- SESSION_CLOSE (R44, R58). -/
def execSessionClose (src : Src) (s : State) : Host.Outcome State Fault Refusal := .next (keepRead s (s.serve .sessionClose src 0))

/-- SESSION_OPEN_PHASE1 (R55-R57). -/
def execSessionOpenPhase1 (src : Src) (s : State) : Host.Outcome State Fault Refusal := .next (keepRead s (s.serve .open1 src 0))

/-- SESSION_OPEN_PHASE3 (R55-R57). -/
def execSessionOpenPhase3 (src : Src) (s : State) : Host.Outcome State Fault Refusal := .next (keepRead s (s.serve .open3 src 0))

/-- WRITE (R28, R33). -/
def execWrite (src : Src) (s : State) : Host.Outcome State Fault Refusal := .next (keepCatalogue s (s.serve .write src 0))

/-- WRITE_BLOCK (R25, R39, R610). -/
def execWriteBlock (src : Src) (s : State) : Host.Outcome State Fault Refusal := .next (keepCatalogue s (s.serve .writeBlock src 0))

/-- WINDOW_WRITE (R66, R67). -/
def execWindowWrite (src : Src) (s : State) : Host.Outcome State Fault Refusal := .next (keepCatalogue s (s.serve .window src 0))

/-- HALL_STORE_SHARE_WRITE (R613). -/
def execHallStoreShareWrite (src : Src) (s : State) : Host.Outcome State Fault Refusal := .next (keepCatalogue s (s.serve .share src 0))

/-- HALT (R68). -/
def execHalt (src : Src) (s : State) : Host.Outcome State Fault Refusal := .next (keepCatalogue s (s.serve .halt src 0))

/-- RUN (R68). -/
def execRun (src : Src) (s : State) : Host.Outcome State Fault Refusal := .next (keepCatalogue s (s.serve .run src 0))

/-- CLEAR_FATAL (R568). -/
def execClearFatal (src : Src) (s : State) : Host.Outcome State Fault Refusal := .next (keepCatalogue s (s.serve .clearFatal src 0))

/-- RESTORE_DEFAULTS (R32). -/
def execRestoreDefaults (src : Src) (s : State) : Host.Outcome State Fault Refusal := .next (keepCatalogue s (s.serve .restoreDefaults src 0))

/-- MODE (R400). -/
def execMode (src : Src) (s : State) : Host.Outcome State Fault Refusal := .next (keepCatalogue s (s.serve .mode src 0))

/-- PREPARE_REMOVAL (R407). -/
def execPrepareRemoval (src : Src) (s : State) : Host.Outcome State Fault Refusal := .next (keepCatalogue s (s.serve .prepareRemoval src 0))

/-- RETURN_TO_SERVICE (R407). -/
def execReturnToService (src : Src) (s : State) : Host.Outcome State Fault Refusal := .next (keepCatalogue s (s.serve .returnToService src 0))

/-- GROUP_DEFINE (R439). -/
def execGroupDefine (src : Src) (s : State) : Host.Outcome State Fault Refusal := .next (keepCatalogue s (s.serve .groupDefine src 0))

/-- GROUP_DELETE (R443). -/
def execGroupDelete (src : Src) (s : State) : Host.Outcome State Fault Refusal := .next (keepCatalogue s (s.serve .groupDelete src 0))

/-- SHIP_CANCEL (R493). -/
def execShipCancel (src : Src) (s : State) : Host.Outcome State Fault Refusal := .next (keepCatalogue s (s.serve .shipCancel src 0))

/-- DIVERGENCE_CLEAR (R532). -/
def execDivergenceClear (src : Src) (s : State) : Host.Outcome State Fault Refusal := .next (keepCatalogue s (s.serve .divergence src 0))

/-- COOLANT_COMMAND (R552). -/
def execCoolantCommand (src : Src) (highFor : Nat) (s : State) : Host.Outcome State Fault Refusal :=
  .next (keepCatalogue s (s.serve .coolant src highFor))

/-- ACTIVATE (R581). -/
def execActivate (src : Src) (s : State) : Host.Outcome State Fault Refusal := .next (keepCatalogue s (s.serve .activate src 0))

/-- CONFIRM (R583): fuses may be burnt. -/
def execConfirm (src : Src) (s : State) : Host.Outcome State Fault Refusal := .next (keepQueue s (s.serve .confirm src 0))

/-- REVERT (R583). -/
def execRevert (src : Src) (s : State) : Host.Outcome State Fault Refusal := .next (keepCatalogue s (s.serve .revert src 0))

/-- REMOVAL_PREPARE (R584). -/
def execRemovalPrepare (src : Src) (s : State) : Host.Outcome State Fault Refusal := .next (keepCatalogue s (s.serve .removalPrepare src 0))

/-- REMOVAL_AFTER_STOP (R584). -/
def execRemovalAfterStop (src : Src) (s : State) : Host.Outcome State Fault Refusal := .next (keepCatalogue s (s.serve .removalAfterStop src 0))

/-- REMOVAL_CANCEL (R584). -/
def execRemovalCancel (src : Src) (s : State) : Host.Outcome State Fault Refusal := .next (keepCatalogue s (s.serve .removalCancel src 0))

/-- RESET (R594). -/
def execReset (src : Src) (s : State) : Host.Outcome State Fault Refusal := .next (keepQueue s (s.serve .reset src 0))

/-- STOP_WITH_SELF_TEST (R595). -/
def execStopWithSelfTest (src : Src) (s : State) : Host.Outcome State Fault Refusal := .next (keepCatalogue s (s.serve .stopTest src 0))

/-- STOP_WITHOUT_SELF_TEST (R595). -/
def execStopWithoutSelfTest (src : Src) (s : State) : Host.Outcome State Fault Refusal := .next (keepCatalogue s (s.serve .stopPlain src 0))

/-- SLOT_WRITE (R609): in service mode the written image may be booted. -/
def execSlotWrite (src : Src) (s : State) : Host.Outcome State Fault Refusal := .next (keepQueue s (s.serve .slotWrite src 0))

/-- DEBUG_OPEN (R619). -/
def execDebugOpen (src : Src) (s : State) : Host.Outcome State Fault Refusal := .next (keepQueue s (s.serve .debugOpen src 0))

/-! ### Timers (R33, R39, R57, R58) -/

/-- HALF_OPEN_TIMEOUT (R57). -/
def execHalfOpenTimeout (session : Nat) (s : State) : Host.Outcome State Fault Refusal :=
  .next (keepRead s { s with server := { s.server with half := s.server.half.filter (fun h => h.id != session) } })

/-- SESSION_IDLE_TIMEOUT (R44, R58). -/
def execSessionIdleTimeout (session : Nat) (s : State) : Host.Outcome State Fault Refusal :=
  .next (keepRead s (if s.server.sessions.any (fun x => x.id == session) then s.closeSession session else s))

/-- DOMAIN_CLAIM_EXPIRY (R39): the object keeps its value. -/
def execDomainClaimExpiry (key : Nat) (s : State) : Host.Outcome State Fault Refusal :=
  .next (keepRead s { s with server := { s.server with claims := s.server.claims.filter (fun c => c.key != key) } })

/-- The request that a function has out ends (R33, R36). -/
def State.endForward (s : State) (fn rc : Nat) (data : List Byte) : State :=
  State.answerWindow { s with server := { s.server with forwards := s.server.forwards.filter (fun e => e.1 != fn) } } fn rc data

/-- CATALOGUE_FORWARD_TIMEOUT (R33). -/
def execCatalogueForwardTimeout (fn : Nat) (s : State) : Host.Outcome State Fault Refusal :=
  .next (keepRead s (if s.server.forwards.any (fun e => e.1 == fn) then s.endForward fn rcTimeout [] else s))

/-! ### The torus (R36, R517, R522, R616) -/

/-- A Catalogue-forward or job-distribution packet is accepted (R616): from the anchor, with a view that agrees with its wing. -/
def State.acceptsView (s : State) (source wing view : Nat) : Bool :=
  s.beat.anchor == some source && decide (view ≤ 0x10) && (view == 0x10 || view == wing)

/-- CATALOGUE_FORWARD (R36, R616): the request waits while another is under way or comes before it (R38). -/
def catalogueForward (source wing view : Nat) (r : Request) (highFor : Nat) (s : State) : State :=
  if !s.acceptsView source wing view then s.wingMismatch source wing 4
  else
    let a : Ask := ⟨torusCaller view, r, .torus source (fnOfView view), none⟩
    if s.paused || s.obj 0xA000 1 == 0x0F then s.replyTo a.back rcUnavailable []
    else if 32768 < r.length ∨ 32768 < r.data.length then s.replyTo a.back rcLength []
    else if r.op = 6 then s.replyTo a.back rcAccess []
    else if s.turn s.torusOrder then (s.unawait (.torus source wing view r)).serveHere a highFor
    else s.await (.torus source wing view r)

/-- CATALOGUE_FORWARD (R616). -/
def execCatalogueForward (source wing view : Nat) (req : Request) (highFor : Nat) (s : State) : Host.Outcome State Fault Refusal :=
  .next (keepQueue s (catalogueForward source wing view req highFor s))

/-- JOB_DISTRIBUTION (R517, R522, R523): commands 2-4 of R506, a BAR4 read (0x10) or write (0x11) against the wing's window, a function's reset (0x20), SHIP_CANCEL (0x21). RUN_JOB itself starts by the job start of R232. -/
def jobDistribution (source wing view kind address : Nat) (data : List Byte) (s : State) : State :=
  let fn := fnOfView view
  if !s.acceptsView source wing view then s.wingMismatch source wing 5
  else match kind with
    | 2 =>
      let r := s.loadHere wing (leAt data 0 4) address (leAt data 4 4)
      r.1.send (.result source (.image wing (leAt data 0 4) r.2))
    | 3 => (s.unloadHere wing (leAt data 0 4)).send (.result source (.command wing 3 0))
    | 4 => s.shipAt wing address source
    | 0x10 =>
      let r := s.barReach fn 0 address
      let n := leAt data 0 4
      if r.2 < r.1 + n then s.send (.result source (.bar4 fn cplUr []))
      else
        let x := s.hostRead fn r.1 n { upsets := [], command := 0, data := 0, failed := false }
        x.1.send (.result source (.bar4 fn x.2.1 x.2.2))
    | 0x11 => let r := s.barReach fn 0 address; s.hostWrite fn r.1 r.2 data
    | 0x20 => s.resetWing wing
    | 0x21 => s.cancelShip (if fn = 0 then none else some wing) (leAt data 0 4)
    | _ => s

/-- JOB_DISTRIBUTION (R522). -/
def execJobDistribution (source wing view kind address : Nat) (data : List Byte) (s : State) : Host.Outcome State Fault Refusal :=
  .next (keepHost s (jobDistribution source wing view kind address data s))

/-- FORWARD_RESULT (R514, R517, R522). -/
def forwardResult (source : Nat) (x : ForwardAnswer) (s : State) : State := match x with
  | .catalogue fn code data => if s.server.forwards.contains (fn, source) then s.endForward fn code (data.take (s.window fn).request.length) else s
  | .bar4 fn status data => s.send (.bar4 fn status data)
  | .image wing handle ok => s.takeAck source wing (fun p => p.kind == 2 && p.image == handle) ok
  | .command wing kind code => s.takeAck source wing (fun p => p.kind == kind) (code == 0)
  | .shipment wing ship status => s.takeShipEnd source wing ship status

/-- FORWARD_RESULT (R522). -/
def execForwardResult (source : Nat) (result : ForwardAnswer) (s : State) : Host.Outcome State Fault Refusal :=
  .next (keepHost s (forwardResult source result s))

/-! ### Registers (R42, R43, R47, R500-R504, R519) -/

/-- The bytes of an n-byte register at `base` after a write of `data` at `offset`. -/
def patchReg (base n old offset : Nat) (data : List Byte) : Nat :=
  leNat ((List.range n).map (fun i =>
    if offset ≤ base + i ∧ base + i < offset + data.length then (data[base + i - offset]?).getD 0#8 else BitVec.ofNat 8 (old / 2 ^ (8 * i))))

/-- A write touches a register. -/
def touches (base n offset len : Nat) : Bool := meet base (base + n) offset (offset + len)

/-- A write to a function's Catalogue window (R42, R43, R47): CAT_REQ, CAT_OFFSET, NOTE_TAIL and the data buffer. -/
def Window.hostWrite (w : Window) (offset : Nat) (data : List Byte) : Window :=
  let v := if touches 0x100 16 offset data.length then patchReg 0x108 8 w.noteTail offset data % 256 else w.noteTail
  let lo := max offset 0x8000
  let hi := min (offset + data.length) 0x10000
  let part := (data.drop (lo - offset)).take (hi - lo)
  { (if lo < hi then w.fill (lo - 0x8000) part else w) with
    req := patchReg 0x8 8 w.req offset data, offset := patchReg 0x10 8 w.offset offset data, noteTail := v }

/-- The registers of a function's Catalogue window as a host read sees them (R42, R46, R47): CAT_ID, CAT_REQ, CAT_OFFSET, CAT_DOORBELL, CAT_STATUS, NOTE_HEAD, NOTE_TAIL by their 8-byte words; offsets not listed read as zero. -/
def Window.register (w : Window) (offset : Nat) : Nat := match offset with
  | 0x00 => 0x4354 + 0x0400 * 2 ^ 16
  | 0x08 => w.req
  | 0x10 => w.offset
  | 0x20 => b2n w.busy + 2 * b2n w.done + w.result % 256 * 2 ^ 8 + w.returned % 2 ^ 16 * 2 ^ 16
  | 0x100 => w.noteHead
  | 0x108 => w.noteTail
  | _ => 0

/-- A byte that a host read of the window returns: a register's, the notification ring's, the data buffer's. -/
def Window.byteAt (w : Window) (offset : Nat) : Byte :=
  if 0x1000 ≤ offset ∧ offset < 0x2000 then BitVec.ofNat 8 (mget 0 w.ring ((offset - 0x1000) / 16) >>> (8 * (offset % 16)))
  else if 0x8000 ≤ offset ∧ offset < 0x10000 then mget 0#8 w.buffer (offset - 0x8000)
  else BitVec.ofNat 8 (w.register (offset / 8 * 8) >>> (8 * (offset % 8)))

/-- A write to a wing's BAR2 region (R503, R504): queue entries, and CQ_BASE while its queue is disabled. -/
def State.regionWrite (s : State) (fn wing offset : Nat) (data : List Byte) : State :=
  if !s.owns fn wing then s
  else if offset < 0x100000 then
    let q := offset / 0x4000
    let at_ := offset % 0x4000
    let ids := (List.range ((at_ + data.length + 63) / 64 - at_ / 64)).map (· + at_ / 64)
    let x := s.sq wing q
    s.setSq wing q { x with entries := (ids.filter (fun i => decide (i < 256))).foldl (fun m i => mset 0 m i (patchReg (64 * i) 64 (mget 0 m i) at_ data)) x.entries }
  else if 0x101000 ≤ offset ∧ offset < 0x102000 then
    let q := (offset - 0x101000) / 64
    let at_ := (offset - 0x101000) % 64
    if touches 0x10 8 at_ data.length then
      if (s.cq wing q).enable then s.ignored else s.setCq wing q { s.cq wing q with base := patchReg 0x10 8 (s.cq wing q).base at_ data }
    else s
  else s

/-- A write to a function's configuration, which the manual does not lay out (log entry 19). Offset 4: Bus Master Enable in bit 2. On the physical function, offset 8: VF Enable in bit 0, and offset 10: NumVFs, which stays while VF Enable is set. From 0x1000 + 16v on: entry v of the MSI-X table. -/
def State.configWrite (s : State) (fn offset : Nat) (data : List Byte) : State :=
  let v := leNat data
  if offset = 4 then { s with host := { s.host with busMaster := mset 0 s.host.busMaster fn (b2n (bitOf v 2)) } }
  else if offset = 8 ∧ fn = 0 then (if bitOf v 0 then { s with host := { s.host with vfEnable := true } } else s)
  else if offset = 10 ∧ fn = 0 then (if s.host.vfEnable then s else { s with host := { s.host with numVfs := v % 65536 } })
  else if 0x1000 ≤ offset then
    let at_ := offset - 0x1000
    let ids := (List.range ((at_ + data.length + 15) / 16 - at_ / 16)).map (· + at_ / 16)
    (ids.filter (fun i => decide (i < if fn = 0 then 2048 else 64))).foldl
      (fun t i => t.setVector fn i (patchReg (16 * i) 16 (t.vectorEntry fn i) at_ data)) s
  else s

/-- A register write that no other row takes (R43, R501-R504): BAR0, BAR2, or (bar 6) configuration. -/
def registerWrite (fn bar offset : Nat) (data : List Byte) (s : State) : State :=
  if bar = 6 then s.configWrite fn offset data
  else if !s.fnActive fn || data.isEmpty then s
  else if bar = 0 then s.setWindow fn ((s.window fn).hostWrite offset data)
  else if bar = 2 then (if fn = 0 then s.regionWrite 0 (offset / 0x200000) (offset % 0x200000) data else s.regionWrite fn (fn - 1) offset data)
  else s

/-- REGISTER_WRITE (R43). -/
def execRegisterWrite (fn bar offset : Nat) (data : List Byte) (s : State) : Host.Outcome State Fault Refusal :=
  .next (keepHost s (registerWrite fn bar offset data s))

/-- A GO (R42, R43): ignored while BUSY is 1; an operation that the manual does not name ends with ACCESS. -/
def catDoorbellGo (fn : Nat) (s : State) : State :=
  let w := s.window fn
  if !s.fnActive fn || w.busy then s
  else
    let t := s.setWindow fn { w with busy := true, done := false }
    if [1, 2, 3, 4, 6].contains (bits w.req 7 0) || s.paused then t else t.answerWindow fn rcAccess []

/-- CAT_DOORBELL_GO (R43). -/
def execCatDoorbellGo (fn : Nat) (s : State) : Host.Outcome State Fault Refusal := .next (keepRead s (catDoorbellGo fn s))

/-! ### Flash and the field network -/

/-- The flash write of an object is done (R30, R381); PERSIST_PENDING reads 1 while another is due. -/
def persistWriteComplete (key : Nat) (s : State) : State := match s.flash.queue.find? (fun e => e.1 == key) with
  | none => s
  | some e =>
    let q := s.flash.queue.filter (fun x => x.1 != key)
    let n := key / 256 - 0x7300
    let t := s.storeNow key e.2
    let remap := if 0x7300 ≤ key / 256 ∧ key / 256 < 0x7308 ∧ key % 256 = 8 then
        (List.range 256).foldl (fun m i => mset 0 m (n * 256 + i) (mget 0 s.mem.remap (n * 256 + i))) t.flash.remap
      else t.flash.remap
    State.setObj { t with flash := { t.flash with queue := q, remap := remap } } 0x1020 0xB (b2n !q.isEmpty)

/-- PERSIST_WRITE_COMPLETE (R30). -/
def execPersistWriteComplete (key : Nat) (s : State) : Host.Outcome State Fault Refusal :=
  .next (keepRead { s with flash := (persistWriteComplete key s).flash } (persistWriteComplete key s))

/-- FIELD_NETWORK_NEIGHBOUR_DISCOVERY (R49): solicitations for the device's link-local address are answered, another node's probe among them; nothing else is. While the device's own probe is out, a packet that shows the address to be another node's leaves it unused; the first solicitation from a node that addresses it ends the probe. -/
def fieldNeighbour (frame : List Byte) (s : State) : State :=
  let i := s.fieldIface
  let own := i.addrs.headD noAddress
  match i.accept frame with
  | none => s
  | some p =>
    if s.server.duplicate then s
    else if s.server.tentative && p.claims own then { s with server := { s.server with tentative := false, duplicate := true } }
    else match i.icmp false p with
      | some f => State.send { s with server := { s.server with tentative := false } } (.field f)
      | none => s

/-- FIELD_NETWORK_NEIGHBOUR_DISCOVERY (R49). -/
def execFieldNetworkNeighbourDiscovery (frame : List Byte) (s : State) : Host.Outcome State Fault Refusal :=
  .next (keepRead s (fieldNeighbour frame s))

end Sys2Proof.Machine
end

