-- ==== Sys2Proof/Machine/Dispatch.lean ====
section
/-! DEFINITION. One arm per command: each calls the command's meaning, or rejects it by name. -/

namespace Sys2Proof.Machine

open Sys2Proof

def exec (i : Instr) (s : State) : Host.Outcome State Fault Refusal :=
  match i with
  | .read src => Sys2Proof.Machine.execRead src s
  | .describe src => Sys2Proof.Machine.execDescribe src s
  | .snapshot src => Sys2Proof.Machine.execSnapshot src s
  | .write src => Sys2Proof.Machine.execWrite src s
  | .readBlock src => Sys2Proof.Machine.execReadBlock src s
  | .writeBlock src => Sys2Proof.Machine.execWriteBlock src s
  | .sessionOpenPhase1 src => Sys2Proof.Machine.execSessionOpenPhase1 src s
  | .sessionOpenPhase3 src => Sys2Proof.Machine.execSessionOpenPhase3 src s
  | .sessionClose src => Sys2Proof.Machine.execSessionClose src s
  | .halfOpenTimeout session => Sys2Proof.Machine.execHalfOpenTimeout session s
  | .sessionIdleTimeout session => Sys2Proof.Machine.execSessionIdleTimeout session s
  | .domainClaimExpiry key => Sys2Proof.Machine.execDomainClaimExpiry key s
  | .catalogueForwardTimeout fn => Sys2Proof.Machine.execCatalogueForwardTimeout fn s
  | .catalogueForward source wing view req highFor => Sys2Proof.Machine.execCatalogueForward source wing view req highFor s
  | .persistWriteComplete key => Sys2Proof.Machine.execPersistWriteComplete key s
  | .registerWrite fn bar offset data => Sys2Proof.Machine.execRegisterWrite fn bar offset data s
  | .catDoorbellGo fn => Sys2Proof.Machine.execCatDoorbellGo fn s
  | .halt src => Sys2Proof.Machine.execHalt src s
  | .run src => Sys2Proof.Machine.execRun src s
  | .clearFatal src => Sys2Proof.Machine.execClearFatal src s
  | .restoreDefaults src => Sys2Proof.Machine.execRestoreDefaults src s
  | .windowWrite src => Sys2Proof.Machine.execWindowWrite src s
  | .hallStoreShareWrite src => Sys2Proof.Machine.execHallStoreShareWrite src s
  | .beatBoundary => Sys2Proof.Machine.execBeatBoundary s
  | .streamStall hall ring => Sys2Proof.Machine.execStreamStall hall ring s
  | .beatMarker beat advance period master skew => Sys2Proof.Machine.execBeatMarker beat advance period master skew s
  | .markerMissed => Sys2Proof.Machine.execMarkerMissed s
  | .markerLossElection => Sys2Proof.Machine.execMarkerLossElection s
  | .masterElection anchor => Sys2Proof.Machine.execMasterElection anchor s
  | .timingFrame device roundTrip => Sys2Proof.Machine.execTimingFrame device roundTrip s
  | .beatInEdge departure => Sys2Proof.Machine.execBeatInEdge departure s
  | .beatInLost departure => Sys2Proof.Machine.execBeatInLost departure s
  | .masterDecision => Sys2Proof.Machine.execMasterDecision s
  | .overrunLimit => Sys2Proof.Machine.execOverrunLimit s
  | .ready device beat slack ceiling power => Sys2Proof.Machine.execReady device beat slack ceiling power s
  | .notReady device beat recovering ceiling power => Sys2Proof.Machine.execNotReady device beat recovering ceiling power s
  | .workFinished slack => Sys2Proof.Machine.execWorkFinished slack s
  | .readyCutoff => Sys2Proof.Machine.execReadyCutoff s
  | .stageGroupStart hall leader => Sys2Proof.Machine.execStageGroupStart hall leader s
  | .sealBegin lockstep => Sys2Proof.Machine.execSealBegin lockstep s
  | .commitToken device beat => Sys2Proof.Machine.execCommitToken device beat s
  | .withdrawToken device beat => Sys2Proof.Machine.execWithdrawToken device beat s
  | .sparingComplete => Sys2Proof.Machine.execSparingComplete s
  | .matmul hall slot lockstep => Sys2Proof.Machine.execMatmul hall slot lockstep s
  | .chain hall slot => Sys2Proof.Machine.execChain hall slot s
  | .attend hall slot => Sys2Proof.Machine.execAttend hall slot s
  | .vectorAdd hall slot => Sys2Proof.Machine.execVectorAdd hall slot s
  | .vectorSub hall slot => Sys2Proof.Machine.execVectorSub hall slot s
  | .vectorMul hall slot => Sys2Proof.Machine.execVectorMul hall slot s
  | .vectorDiv hall slot => Sys2Proof.Machine.execVectorDiv hall slot s
  | .vectorMax hall slot => Sys2Proof.Machine.execVectorMax hall slot s
  | .vectorMin hall slot => Sys2Proof.Machine.execVectorMin hall slot s
  | .vectorCmpLt hall slot => Sys2Proof.Machine.execVectorCmpLt hall slot s
  | .vectorCmpEq hall slot => Sys2Proof.Machine.execVectorCmpEq hall slot s
  | .vectorFma hall slot => Sys2Proof.Machine.execVectorFma hall slot s
  | .vectorRowscale hall slot => Sys2Proof.Machine.execVectorRowscale hall slot s
  | .vectorColscale hall slot => Sys2Proof.Machine.execVectorColscale hall slot s
  | .vectorConvert hall slot => Sys2Proof.Machine.execVectorConvert hall slot s
  | .vectorSqrt hall slot => Sys2Proof.Machine.execVectorSqrt hall slot s
  | .vectorExp2 hall slot => Sys2Proof.Machine.execVectorExp2 hall slot s
  | .vectorLog2 hall slot => Sys2Proof.Machine.execVectorLog2 hall slot s
  | .vectorRecip hall slot => Sys2Proof.Machine.execVectorRecip hall slot s
  | .vectorRsqrt hall slot => Sys2Proof.Machine.execVectorRsqrt hall slot s
  | .vectorTanh hall slot => Sys2Proof.Machine.execVectorTanh hall slot s
  | .vectorSum hall slot => Sys2Proof.Machine.execVectorSum hall slot s
  | .vectorLineMax hall slot => Sys2Proof.Machine.execVectorLineMax hall slot s
  | .vectorLineMin hall slot => Sys2Proof.Machine.execVectorLineMin hall slot s
  | .vectorSumsq hall slot => Sys2Proof.Machine.execVectorSumsq hall slot s
  | .rowstatReset hall slot => Sys2Proof.Machine.execRowstatReset hall slot s
  | .rowstatRead hall slot => Sys2Proof.Machine.execRowstatRead hall slot s
  | .rowstatLoad hall slot => Sys2Proof.Machine.execRowstatLoad hall slot s
  | .move hall slot => Sys2Proof.Machine.execMove hall slot s
  | .moveZero hall slot => Sys2Proof.Machine.execMoveZero hall slot s
  | .moveIndexed hall slot => Sys2Proof.Machine.execMoveIndexed hall slot s
  | .folioGather hall slot => Sys2Proof.Machine.execFolioGather hall slot s
  | .folioCopy hall slot => Sys2Proof.Machine.execFolioCopy hall slot s
  | .folioLoanTake hall slot => Sys2Proof.Machine.execFolioLoanTake hall slot s
  | .folioLoanRelease hall slot => Sys2Proof.Machine.execFolioLoanRelease hall slot s
  | .folioLoanChecks => Sys2Proof.Machine.execFolioLoanChecks s
  | .streamOpen hall slot => Sys2Proof.Machine.execStreamOpen hall slot s
  | .streamOpenGranted hall slot waited => Sys2Proof.Machine.execStreamOpenGranted hall slot waited s
  | .streamClose hall slot => Sys2Proof.Machine.execStreamClose hall slot s
  | .streamCloseDone hall slot => Sys2Proof.Machine.execStreamCloseDone hall slot s
  | .streamCancel hall slot => Sys2Proof.Machine.execStreamCancel hall slot s
  | .streamCancelDone hall slot => Sys2Proof.Machine.execStreamCancelDone hall slot s
  | .claim hall slot => Sys2Proof.Machine.execClaim hall slot s
  | .counterWait hall slot => Sys2Proof.Machine.execCounterWait hall slot s
  | .counterWaitSatisfied hall slot => Sys2Proof.Machine.execCounterWaitSatisfied hall slot s
  | .signalLocal hall slot => Sys2Proof.Machine.execSignalLocal hall slot s
  | .signalRemote hall slot => Sys2Proof.Machine.execSignalRemote hall slot s
  | .remoteFlag source wing flag add => Sys2Proof.Machine.execRemoteFlag source wing flag add s
  | .flagWait hall slot => Sys2Proof.Machine.execFlagWait hall slot s
  | .flagWaitSatisfied hall slot => Sys2Proof.Machine.execFlagWaitSatisfied hall slot s
  | .phase hall slot => Sys2Proof.Machine.execPhase hall slot s
  | .seal hall slot => Sys2Proof.Machine.execSeal hall slot s
  | .broadcast hall slot => Sys2Proof.Machine.execBroadcast hall slot s
  | .allGather hall slot => Sys2Proof.Machine.execAllGather hall slot s
  | .reduceScatter hall slot => Sys2Proof.Machine.execReduceScatter hall slot s
  | .allReduce hall slot => Sys2Proof.Machine.execAllReduce hall slot s
  | .barrier hall slot => Sys2Proof.Machine.execBarrier hall slot s
  | .allToAll hall slot => Sys2Proof.Machine.execAllToAll hall slot s
  | .allToAllV hall slot => Sys2Proof.Machine.execAllToAllV hall slot s
  | .courierAllReduce hall slot => Sys2Proof.Machine.execCourierAllReduce hall slot s
  | .collectWait hall slot => Sys2Proof.Machine.execCollectWait hall slot s
  | .collectWaitDone hall slot => Sys2Proof.Machine.execCollectWaitDone hall slot s
  | .dependencyWaitEnd hall slot cycles => Sys2Proof.Machine.execDependencyWaitEnd hall slot cycles s
  | .arrayInstruction hall slot flips => Sys2Proof.Machine.execArrayInstruction hall slot flips s
  | .tileLoaded hall slot => Sys2Proof.Machine.execTileLoaded hall slot s
  | .resultRowLeaves hall slot upset => Sys2Proof.Machine.execResultRowLeaves hall slot upset s
  | .arrayIdle hall slot => Sys2Proof.Machine.execArrayIdle hall slot s
  | .rowstatPartialArrival hall slot => Sys2Proof.Machine.execRowstatPartialArrival hall slot s
  | .adapterInstruction hall slot => Sys2Proof.Machine.execAdapterInstruction hall slot s
  | .peerSend hall slot => Sys2Proof.Machine.execPeerSend hall slot s
  | .peerDataArrival source wing hall ring beat data => Sys2Proof.Machine.execPeerDataArrival source wing hall ring beat data s
  | .ringAnnouncement source wing hall ring slots expected slotSize => Sys2Proof.Machine.execRingAnnouncement source wing hall ring slots expected slotSize s
  | .peerCredit source hall ring credits voided => Sys2Proof.Machine.execPeerCredit source hall ring credits voided s
  | .fillLineLands hall ring fill => Sys2Proof.Machine.execFillLineLands hall ring fill s
  | .consumerTakesSlot hall slot => Sys2Proof.Machine.execConsumerTakesSlot hall slot s
  | .hbmRequestAdmitted hall index waited elapsed => Sys2Proof.Machine.execHbmRequestAdmitted hall index waited elapsed s
  | .lightPathComplete hall slot => Sys2Proof.Machine.execLightPathComplete hall slot s
  | .jobAccept wing => Sys2Proof.Machine.execJobAccept wing s
  | .jobStart wing startBeat image record => Sys2Proof.Machine.execJobStart wing startBeat image record s
  | .jobDistribution source wing view kind address data => Sys2Proof.Machine.execJobDistribution source wing view kind address data s
  | .scrubRead stack elapsed parity => Sys2Proof.Machine.execScrubRead stack elapsed parity s
  | .lapOverdue stack seconds => Sys2Proof.Machine.execLapOverdue stack seconds s
  | .hallStoreScrubRead hall parity => Sys2Proof.Machine.execHallStoreScrubRead hall parity s
  | .mergeEntryWrite stack sector => Sys2Proof.Machine.execMergeEntryWrite stack sector s
  | .mode src => Sys2Proof.Machine.execMode src s
  | .doorDetectDone door lanes => Sys2Proof.Machine.execDoorDetectDone door lanes s
  | .doorSignalLocked door lanes => Sys2Proof.Machine.execDoorSignalLocked door lanes s
  | .doorAlignDone door lanes => Sys2Proof.Machine.execDoorAlignDone door lanes s
  | .linkControlFlit door flit => Sys2Proof.Machine.execLinkControlFlit door flit s
  | .doorCreditReceived door => Sys2Proof.Machine.execDoorCreditReceived door s
  | .doorTrainingFailed door => Sys2Proof.Machine.execDoorTrainingFailed door s
  | .doorRetrain door => Sys2Proof.Machine.execDoorRetrain door s
  | .flitReceived door flit fecCorrected fecUncorrectable => Sys2Proof.Machine.execFlitReceived door flit fecCorrected fecUncorrectable s
  | .resendTimeout door => Sys2Proof.Machine.execResendTimeout door s
  | .doorDown door cause => Sys2Proof.Machine.execDoorDown door cause s
  | .laneFailure door lane cause => Sys2Proof.Machine.execLaneFailure door lane cause s
  | .laneSpared door lane cause => Sys2Proof.Machine.execLaneSpared door lane cause s
  | .routerForward port channel => Sys2Proof.Machine.execRouterForward port channel s
  | .linkCut device yLink => Sys2Proof.Machine.execLinkCut device yLink s
  | .deviceMissing device => Sys2Proof.Machine.execDeviceMissing device s
  | .neighbourSilent direction => Sys2Proof.Machine.execNeighbourSilent direction s
  | .linkRestored device link => Sys2Proof.Machine.execLinkRestored device link s
  | .errorRecordAnnouncement record => Sys2Proof.Machine.execErrorRecordAnnouncement record s
  | .laserFeedLost module removed => Sys2Proof.Machine.execLaserFeedLost module removed s
  | .prepareRemoval src => Sys2Proof.Machine.execPrepareRemoval src s
  | .returnToService src => Sys2Proof.Machine.execReturnToService src s
  | .laserPresent module => Sys2Proof.Machine.execLaserPresent module s
  | .laserEnable module => Sys2Proof.Machine.execLaserEnable module s
  | .laserOutputInRange module power temperature => Sys2Proof.Machine.execLaserOutputInRange module power temperature s
  | .groupDefine src => Sys2Proof.Machine.execGroupDefine src s
  | .groupDelete src => Sys2Proof.Machine.execGroupDelete src s
  | .launch source wing payload => Sys2Proof.Machine.execLaunch source wing payload s
  | .courierData source wing payload => Sys2Proof.Machine.execCourierData source wing payload s
  | .abort source wing payload => Sys2Proof.Machine.execAbort source wing payload s
  | .collectivePiece source wing packet residueFault => Sys2Proof.Machine.execCollectivePiece source wing packet residueFault s
  | .reductionSlotsTaken group sequence => Sys2Proof.Machine.execReductionSlotsTaken group sequence s
  | .collectiveTimeout group sequence => Sys2Proof.Machine.execCollectiveTimeout group sequence s
  | .runJob wing queue => Sys2Proof.Machine.execRunJob wing queue s
  | .loadImage wing queue => Sys2Proof.Machine.execLoadImage wing queue s
  | .unloadImage wing queue => Sys2Proof.Machine.execUnloadImage wing queue s
  | .ship wing queue => Sys2Proof.Machine.execShip wing queue s
  | .nop wing queue => Sys2Proof.Machine.execNop wing queue s
  | .sqTail fn wing queue tail => Sys2Proof.Machine.execSqTail fn wing queue tail s
  | .cqHead fn wing queue head => Sys2Proof.Machine.execCqHead fn wing queue head s
  | .sqEnable fn wing queue value => Sys2Proof.Machine.execSqEnable fn wing queue value s
  | .sqDisable fn wing queue value => Sys2Proof.Machine.execSqDisable fn wing queue value s
  | .cqEnable fn wing queue value => Sys2Proof.Machine.execCqEnable fn wing queue value s
  | .cqDisable fn wing queue value => Sys2Proof.Machine.execCqDisable fn wing queue value s
  | .completionWrite wing queue => Sys2Proof.Machine.execCompletionWrite wing queue s
  | .coalesceTimer wing queue => Sys2Proof.Machine.execCoalesceTimer wing queue s
  | .msixUnmask fn vector => Sys2Proof.Machine.execMsixUnmask fn vector s
  | .aperture fn wing value => Sys2Proof.Machine.execAperture fn wing value s
  | .bar4Read fn address length parity => Sys2Proof.Machine.execBar4Read fn address length parity s
  | .bar4Write fn address data poisoned => Sys2Proof.Machine.execBar4Write fn address data poisoned s
  | .flr fn => Sys2Proof.Machine.execFlr fn s
  | .vfEnableClear fn => Sys2Proof.Machine.execVfEnableClear fn s
  | .hotReset => Sys2Proof.Machine.execHotReset s
  | .doeDiscovery index => Sys2Proof.Machine.execDoeDiscovery index s
  | .getVersion transport request => Sys2Proof.Machine.execGetVersion transport request s
  | .getCapabilities transport request => Sys2Proof.Machine.execGetCapabilities transport request s
  | .negotiateAlgorithms transport request => Sys2Proof.Machine.execNegotiateAlgorithms transport request s
  | .getDigests transport request => Sys2Proof.Machine.execGetDigests transport request s
  | .getCertificate transport request => Sys2Proof.Machine.execGetCertificate transport request s
  | .challenge transport request => Sys2Proof.Machine.execChallenge transport request s
  | .getMeasurements transport request => Sys2Proof.Machine.execGetMeasurements transport request s
  | .openResend session => Sys2Proof.Machine.execOpenResend session s
  | .ailasOpen source wing frame => Sys2Proof.Machine.execAilasOpen source wing frame s
  | .accept frame => Sys2Proof.Machine.execAccept frame s
  | .chunkSend session chunk => Sys2Proof.Machine.execChunkSend session chunk s
  | .chunk source wing frame => Sys2Proof.Machine.execChunk source wing frame s
  | .ack frame => Sys2Proof.Machine.execAck frame s
  | .retransmissionTimeout session => Sys2Proof.Machine.execRetransmissionTimeout session s
  | .noRoute session => Sys2Proof.Machine.execNoRoute session s
  | .close frame => Sys2Proof.Machine.execClose frame s
  | .closeAck frame => Sys2Proof.Machine.execCloseAck frame s
  | .shipCancel src => Sys2Proof.Machine.execShipCancel src s
  | .ailasFragment source wing packet => Sys2Proof.Machine.execAilasFragment source wing packet s
  | .ethernetFrame door frame fcsGood => Sys2Proof.Machine.execEthernetFrame door frame fcsGood s
  | .ethDoorDown door cause => Sys2Proof.Machine.execEthDoorDown door cause s
  | .powerWindow => Sys2Proof.Machine.execPowerWindow s
  | .powerCalibration readings => Sys2Proof.Machine.execPowerCalibration readings s
  | .divergenceClear src => Sys2Proof.Machine.execDivergenceClear src s
  | .voltageSettled hall millivolts => Sys2Proof.Machine.execVoltageSettled hall millivolts s
  | .shareUpdate beat shares cap => Sys2Proof.Machine.execShareUpdate beat shares cap s
  | .sensorRead temperatures hbmStacks => Sys2Proof.Machine.execSensorRead temperatures hbmStacks s
  | .thermalCeilingStep hall => Sys2Proof.Machine.execThermalCeilingStep hall s
  | .thermalTrip sensor temperature => Sys2Proof.Machine.execThermalTrip sensor temperature s
  | .coolantOkFall => Sys2Proof.Machine.execCoolantOkFall s
  | .coolantStop => Sys2Proof.Machine.execCoolantStop s
  | .hbmSelfRefreshEntered => Sys2Proof.Machine.execHbmSelfRefreshEntered s
  | .coolantOkRise => Sys2Proof.Machine.execCoolantOkRise s
  | .coolantCommand src highFor => Sys2Proof.Machine.execCoolantCommand src highFor s
  | .coreTestComplete hall core passed failedStep => Sys2Proof.Machine.execCoreTestComplete hall core passed failedStep s
  | .rotationStep hall => Sys2Proof.Machine.execRotationStep hall s
  | .rotationTestComplete hall passed failedStep => Sys2Proof.Machine.execRotationTestComplete hall passed failedStep s
  | .packageFatal code unit index detail => Sys2Proof.Machine.execPackageFatal code unit index detail s
  | .curatorWatchdog sinceLast => Sys2Proof.Machine.execCuratorWatchdog sinceLast s
  | .curatorReturn elapsed => Sys2Proof.Machine.execCuratorReturn elapsed s
  | .activate src => Sys2Proof.Machine.execActivate src s
  | .confirm src => Sys2Proof.Machine.execConfirm src s
  | .revert src => Sys2Proof.Machine.execRevert src s
  | .removalPrepare src => Sys2Proof.Machine.execRemovalPrepare src s
  | .removalAfterStop src => Sys2Proof.Machine.execRemovalAfterStop src s
  | .removalCancel src => Sys2Proof.Machine.execRemovalCancel src s
  | .reset src => Sys2Proof.Machine.execReset src s
  | .quickTestComplete failed => Sys2Proof.Machine.execQuickTestComplete failed s
  | .stopWithSelfTest src => Sys2Proof.Machine.execStopWithSelfTest src s
  | .stopWithoutSelfTest src => Sys2Proof.Machine.execStopWithoutSelfTest src s
  | .selfTestRailCheck rails clocks => Sys2Proof.Machine.execSelfTestRailCheck rails clocks s
  | .selfTestComplete failed sectorsFailed time => Sys2Proof.Machine.execSelfTestComplete failed sectorsFailed time s
  | .slotWrite src => Sys2Proof.Machine.execSlotWrite src s
  | .debugOpen src => Sys2Proof.Machine.execDebugOpen src s
  | .ethDoorUp door => Sys2Proof.Machine.execEthDoorUp door s
  | .pcieLinkTrained rate width flitMode => Sys2Proof.Machine.execPcieLinkTrained rate width flitMode s
  | .forwardResult source result => Sys2Proof.Machine.execForwardResult source result s
  | .badOpcode hall slot => Sys2Proof.Machine.execBadOpcode hall slot s
  | .fieldNetworkNeighbourDiscovery frame => Sys2Proof.Machine.execFieldNetworkNeighbourDiscovery frame s
  | .forwardingStop => Sys2Proof.Machine.execForwardingStop s
  | .firmwareActivationComplete => Sys2Proof.Machine.execFirmwareActivationComplete s
  | .trialTimeExpiry => Sys2Proof.Machine.execTrialTimeExpiry s
  | .resetNRise => Sys2Proof.Machine.execResetNRise s
  | .resetNFall => Sys2Proof.Machine.execResetNFall s
  | .powerOff => Sys2Proof.Machine.execPowerOff s
  | .reportWritten => Sys2Proof.Machine.execReportWritten s
  | .refclkLockLoss => Sys2Proof.Machine.execRefclkLockLoss s

end Sys2Proof.Machine
end

