-- ==== Sys2Proof/Safety.lean ====
section
/-! DEFINITION. What counts as a safe step, and the terms in which the statements speak of a command that takes effect. -/

namespace Sys2Proof

open Machine

/-- A state whose next step gives a next state. -/
def Safe (s : State) : Prop := ∃ t, step s = .next t

/-- The command gives a next state, and P holds of it. -/
def Gives (c : Instr) (s : State) (P : State → Prop) : Prop := ∃ t, exec c s = .next t ∧ P t

/-- The sequencer of a slot stands at a descriptor that it decodes next: its opcode is op (R174, R175). Its core meets no failure there (R157, R163). -/
def At (s : State) (hall slot op : Nat) (c : Ctx) : Prop :=
  s.ready hall slot = some c ∧ c.op = op ∧ s.slipAt hall slot c.pos = none

/-- Where the sequencer goes after a descriptor (R208): to the next one, or from the end of a claim body back to its CLAIM. -/
def nextPos (s : State) (c : Ctx) : Nat := match (s.seq c.hall c.slot).loop with
  | some (start, last) => if c.pos = last then start else c.pos + 1
  | none => c.pos + 1

/-- The sequencer has gone on past the descriptor and runs. -/
def WentOn (s t : State) (c : Ctx) : Prop :=
  (t.seq c.hall c.slot).pos = nextPos s c ∧ (t.seq c.hall c.slot).hold = .none ∧ (t.seq c.hall c.slot).status = .running

/-- The sequencer holds at the descriptor for a reason. -/
def HeldFor (s t : State) (c : Ctx) (h : Hold) : Prop :=
  (t.seq c.hall c.slot).hold = h ∧ (t.seq c.hall c.slot).pos = (s.seq c.hall c.slot).pos

/-- Every byte of memory that a read delivers is as it was, but for those that lie in one of the ranges. -/
def SameMemory (s t : State) (ranges : List (Nat × Nat)) : Prop :=
  ∀ a, (∀ r ∈ ranges, ¬(r.1 ≤ a ∧ a < r.1 + r.2)) → t.mem.deliver a = s.mem.deliver a

/-- Reading the ranges changes nothing and finds no error: every word was written and reads good, in HBM every word of the sectors it reads whole (R373, R377, R389). -/
def Clean (s : State) (xs : List (Nat × Nat)) : Prop :=
  ∀ x ∈ xs, (∀ w ∈ wordsOf x.1 x.2, s.mem.unwritten w = false ∧ ∃ d, s.mem.see w = .good d) ∧
    (isHbm x.1 = true → ∀ k ∈ sectorsOf x.1 x.2, ∀ i, i < 8 → ∃ d, s.mem.see (8 * k + i) = .good d)

/-- Nothing of the package but its sequencing, its streams and the Catalogue's counters has changed. -/
def OnlyWorkAndCounts (s t : State) : Prop := t = { s with work := t.work, cat := t.cat }

/-- Nothing of the package but its sequencing and streams has changed. -/
def OnlyWork (s t : State) : Prop := t = { s with work := t.work }

end Sys2Proof
end

