-- ==== Sys2Proof/Certificates/Slice0/Obligations.lean ====
section
/-! DEFINITION. The statements for the provers. -/

open Sys2Proof Sys2Proof.Machine

/-! ### The block and its queue -/

/-- A step runs the command at the front of the queue on the state with the rest of the queue. -/
def Obligations.StepRunsTheFront : Prop :=
  ∀ (c : Instr) (rest : List Instr) (s : State), step { s with pending := c :: rest } = exec c { s with pending := rest }

/-- No command stops the package, and none touches the queue: what waits behind it waits still (log entries 1 and 2 are the model's choice for the queue). -/
def Obligations.EveryCommandCompletes : Prop :=
  ∀ (c : Instr) (s : State), ∃ t, exec c s = .next t ∧ t.pending = s.pending

/-! ### Work sharing, waiting, flags -/

/-- CLAIM, COUNTER_WAIT and its release, SIGNAL, the remote flag, WAIT and its release, SEAL, the end of a dependency hold and the start of a stage group do what R208-R216, R148 and R81 say, and nothing outside sequencing changes. -/
def Obligations.SequencingCompletes : Prop :=
  ∀ (s : State) (hall slot : Nat) (c : Ctx),
    (At s hall slot 0x18 c → s.claimFault c = none →
      ∀ n, s.refLen c (c.fld 135 128) c.clLimit = .ok n → (n ≠ 0 ∨ c.fld 135 128 = 0xFF) →
        Gives (.claim hall slot) s fun t =>
          OnlyWork s t ∧ t.counter c c.clCounter = min (s.counter c c.clCounter + c.clStep) (2 ^ 32 - 1) ∧
          (n ≤ s.counter c c.clCounter → (t.seq hall slot).pos = c.pos + c.clBody + 1 ∧ (t.seq hall slot).cregs = (s.seq hall slot).cregs) ∧
          (s.counter c c.clCounter < n → (t.seq hall slot).pos = c.pos + 1 ∧
            (t.seq hall slot).cregs = (s.seq hall slot).cregs.set c.clReg (s.counter c c.clCounter))) ∧
    (At s hall slot 0x19 c → s.counterWaitFault c = none →
      ∀ n, s.refLen c (c.fld 135 128) c.cwValue = .ok n → n ≠ 0 →
        Gives (.counterWait hall slot) s fun t => OnlyWork s t ∧
          (n ≤ s.watched c → WentOn s t c) ∧ (s.watched c < n → HeldFor s t c .counter)) ∧
    (s.held hall slot .counter = some c → ∀ n, s.refLen c (c.fld 135 128) c.cwValue = .ok n → n ≤ s.watched c →
      Gives (.counterWaitSatisfied hall slot) s fun t => OnlyWork s t ∧ WentOn s t c) ∧
    (At s hall slot 0x28 c → c.sgKind = 0 → s.signalFault c = none →
      Gives (.signalLocal hall slot) s fun t => OnlyWork s t ∧ WentOn s t c ∧
        ∀ k, mget 0 t.work.flags k =
          if k = hall * 64 + c.sgFlag then min (mget 0 s.work.flags k + c.sgAdd) (2 ^ 32 - 1) else mget 0 s.work.flags k) ∧
    (At s hall slot 0x28 c → c.sgKind = 1 → s.signalFault c = none →
      Gives (.signalRemote hall slot) s fun t => OnlyWork s t ∧ WentOn s t c ∧ t.work.remote = s.work.remote ∧
        t.work.signals = s.work.signals ++ [(c.sgTarget, c.wing, c.sgFlag, c.sgAdd, c.account)]) ∧
    (∀ source wing flag add, Gives (.remoteFlag source wing flag add) s fun t =>
      t = { s with work := { s.work with remote := t.work.remote } } ∧
        ∀ k, mget 0 t.work.remote k =
          if k = wing * 64 + flag then min (mget 0 s.work.remote k + add) (2 ^ 32 - 1) else mget 0 s.work.remote k) ∧
    (At s hall slot 0x29 c → s.flagWaitFault c = none →
      Gives (.flagWait hall slot) s fun t => OnlyWork s t ∧
        (c.sgAdd ≤ s.flagOf c → WentOn s t c) ∧ (s.flagOf c < c.sgAdd → HeldFor s t c .flag)) ∧
    (s.held hall slot .flag = some c → c.sgAdd ≤ s.flagOf c →
      Gives (.flagWaitSatisfied hall slot) s fun t => OnlyWork s t ∧ WentOn s t c) ∧
    (At s hall slot 0x3F c → s.headerFault c [(80, 511)] [] false false = none → c.fld 79 64 = (s.seq hall slot).program.length →
      c.pos + 1 = (s.seq hall slot).program.length →
      Gives (.seal hall slot) s fun t => OnlyWork s t ∧ (t.seq hall slot).status = .sealed) ∧
    (s.held hall slot .dependency = some c → s.depends c (s.seq hall slot).dep = false →
      ∀ cycles, Gives (.dependencyWaitEnd hall slot cycles) s fun t => OnlyWork s t ∧
        (t.seq hall slot).hold = .none ∧ (t.seq hall slot).pos = (s.seq hall slot).pos) ∧
    (∀ g : GroupStart, s.beat.finished = false → s.cur.hallsStopped = false → slot < 40 → (s.seq hall slot).status = .waiting →
      (s.seq hall slot).leader = g.leader →
      s.inputsFull hall ((List.range 40).filter fun x => (s.seq hall x).status == .waiting && (s.seq hall x).leader == g.leader) = true →
      Gives (.stageGroupStart hall g) s fun t => OnlyWork s t ∧
        (t.seq hall slot).status = .running ∧ (t.seq hall slot).pos = (s.seq hall slot).pos)

namespace Sys2Proof.Claims

/-- The record of a descriptor's fault (R179): it names the wing, and its detail begins with TAG, opcode, hall and logical slot. While the firmware is paused it waits (R582). -/
def FaultRecord (s t : State) (c : Ctx) (code : Nat) : Prop :=
  s.obj 0x5300 2 ≠ 1 → ∃ r ∈ t.cur.records, r.code = code ∧ r.wing = some c.wing ∧
    r.detail.take 5 = leBytes 2 c.tag ++ leBytes 1 c.op ++ leBytes 1 c.hall ++ leBytes 1 c.slot

end Sys2Proof.Claims

open Sys2Proof.Claims

/-- A descriptor that fails a decode check writes nothing and stops its core: the beat's check fails, the wing of the descriptor becomes fatal, and the F3 record carries TAG, opcode, hall and slot (R178, R179); an opcode outside the table is such a fault (R175). -/
def Obligations.DecodeFaults : Prop :=
  ∀ (s : State) (hall slot : Nat) (c : Ctx),
    (At s hall slot c.op c → opcodes.contains c.op = false →
      Gives (.badOpcode hall slot) s fun t =>
        (t.seq hall slot).status = .stopped ∧ .fault c.wing 0x3601 ∈ t.beat.checks ∧ (t.wing c.wing).fatal ≠ none ∧ t.folio = s.folio ∧
          FaultRecord s t c 0x3601) ∧
    (∀ d : DFault, d.code ≠ fUnreadable → d.code ≠ fSource → d.code ≠ fUnwritten → classOf d.code = 3 →
      ((At s hall slot 0x18 c ∧ s.claimFault c = some d →
          Gives (.claim hall slot) s fun t =>
            (t.seq hall slot).status = .stopped ∧ .fault c.wing d.code ∈ t.beat.checks ∧ (t.wing c.wing).fatal ≠ none ∧
              t.work.counters = s.work.counters ∧ t.folio = s.folio ∧ FaultRecord s t c d.code) ∧
       (At s hall slot 0x19 c ∧ s.counterWaitFault c = some d →
          Gives (.counterWait hall slot) s fun t =>
            (t.seq hall slot).status = .stopped ∧ .fault c.wing d.code ∈ t.beat.checks ∧ (t.wing c.wing).fatal ≠ none ∧
              t.work.counters = s.work.counters ∧ t.folio = s.folio ∧ FaultRecord s t c d.code) ∧
       (At s hall slot 0x29 c ∧ s.flagWaitFault c = some d →
          Gives (.flagWait hall slot) s fun t =>
            (t.seq hall slot).status = .stopped ∧ .fault c.wing d.code ∈ t.beat.checks ∧ (t.wing c.wing).fatal ≠ none ∧
              t.work.flags = s.work.flags ∧ t.folio = s.folio ∧ FaultRecord s t c d.code)))

/-! ### VECTOR, ROWSTAT and MOVE -/

namespace Sys2Proof.Claims

/-- VOP of each VECTOR row (R195). -/
def vectorRows : List (Nat × (Nat → Nat → Instr)) :=
  [(0x01, .vectorAdd), (0x02, .vectorSub), (0x03, .vectorMul), (0x04, .vectorDiv), (0x05, .vectorMax), (0x06, .vectorMin),
   (0x07, .vectorCmpLt), (0x08, .vectorCmpEq), (0x09, .vectorFma), (0x0A, .vectorRowscale), (0x0B, .vectorColscale),
   (0x10, .vectorConvert), (0x11, .vectorSqrt), (0x12, .vectorExp2), (0x13, .vectorLog2), (0x14, .vectorRecip),
   (0x15, .vectorRsqrt), (0x16, .vectorTanh), (0x20, .vectorSum), (0x21, .vectorLineMax), (0x22, .vectorLineMin), (0x23, .vectorSumsq)]

/-- One element of an elementwise operation, in the working format's rounding (R136, R137, R139, R195, R196). -/
def elementOf (v : Nat) (round : Val → Val) (imm a b : Val) : Val := match v with
  | 0x01 => round (a.add b)
  | 0x02 => round (a.sub b)
  | 0x03 => round (a.mul b)
  | 0x04 => f32div a b
  | 0x05 => round (a.max b)
  | 0x06 => round (a.min b)
  | 0x07 => if a.lt b then .one else .zero false
  | 0x08 => if a.eqv b then .one else .zero false
  | 0x09 => round ((a.mul imm).add b)
  | 0x0A => round (a.mul b)
  | 0x0B => round (a.mul b)
  | 0x10 => round a
  | 0x11 => f32sqrt a
  | 0x12 => f32exp2 a
  | 0x13 => f32log2 a
  | 0x14 => f32recip a
  | 0x15 => f32rsqrt a
  | _ => f32tanh a

/-- A line reduced in ascending element order, one rounding for each addition (R138). -/
def reduceLine (v : Nat) (round : Val → Val) (xs : List Val) : Val := match v with
  | 0x20 => xs.foldl (fun acc x => round (acc.add x)) (.zero false)
  | 0x23 => xs.foldl (fun acc x => round (acc.add (x.mul x))) (.zero false)
  | 0x21 => xs.tail.foldl (fun acc x => round (acc.max x)) (round (xs.headD (.zero false)))
  | _ => xs.tail.foldl (fun acc x => round (acc.min x)) (round (xs.headD (.zero false)))

/-- What stands at SRC1 for element j of line i: IMMEDIATE, element i or j of the single line, or SRC1's own element (R195, R196). -/
def secondOf (c : Ctx) (src1 : List (List Val)) (i j : Nat) : Val :=
  if bitOf c.desc 73 then c.vImm
  else if c.vop = 0x0A then ((src1.headD [])[i]?).getD (.zero false)
  else if c.vop = 0x0B then ((src1.headD [])[j]?).getD (.zero false)
  else (((src1[i]?).getD [])[j]?).getD (.zero false)

/-- The values of output line i (R195, R196). -/
def outputLine (c : Ctx) (src0 src1 : List (List Val)) (i : Nat) : List Val :=
  let round := if c.vXf then roundXf else round32
  let line := (src0[i]?).getD []
  if 0x20 ≤ c.vop then [reduceLine c.vop round line]
  else line.mapIdx (fun j a => elementOf c.vop round c.vImm a (secondOf c src1 i j))

/-- The values of source lines of `cols` planned elements at addresses. -/
def sourceLines (s : State) (o : Opnd) (cols : Nat) (xs : List Nat) : List (List Val) :=
  xs.map (fun a => lineVals o.fmt o.scaled (s.mem.deliverRange a (lineBytes o.fmt o.scaled cols)) cols)

/-- A VECTOR that names no ring, waits for nothing and reads clean memory: its run-time row count. -/
def VectorRuns (s : State) (hall slot : Nat) (c : Ctx) (rows : Nat) : Prop :=
  At s hall slot 0x04 c ∧ s.vectorFault c = none ∧ s.lens c [(c.fld 279 272, c.vRows)] = .ok [rows] ∧ s.vectorRings c = [] ∧
    let x := c.vReads rows (s.space c c.vSrc0 c.slot + c.vSrc0.off) (s.space c c.vSrc1 c.slot + c.vSrc1.off)
    s.depends c (x.1 ++ x.2) = false ∧ s.dataFault (x.1 ++ x.2) = none ∧ Clean s (x.1 ++ x.2)

end Sys2Proof.Claims

open Sys2Proof.Claims

/-- Every VECTOR row computes its lines from the source lines as they stood, writes them to DST, goes on, and leaves every other byte as it was (R195, R196 with R136-R139); no ring is involved. -/
def Obligations.VectorsComplete : Prop :=
  ∀ e ∈ vectorRows, ∀ (s : State) (hall slot : Nat) (c : Ctx) (rows : Nat), c.vop = e.1 → VectorRuns s hall slot c rows →
    let x := c.vLines rows (s.space c c.vSrc0 c.slot + c.vSrc0.off) (s.space c c.vSrc1 c.slot + c.vSrc1.off)
    let dst := s.space c c.vDst c.slot + c.vDst.off
    let n := lineBytes c.vDst.fmt c.vDst.scaled c.vDstCols
    Gives (e.2 hall slot) s fun t => WentOn s t c ∧
      (∀ i, i < rows → t.mem.deliverRange (dst + i * (64 * c.fld 239 224)) n =
        (encodeLine c.vDst.fmt c.vDst.scaled
          (outputLine c (sourceLines s c.vSrc0 c.vCols x.1) (sourceLines s c.vSrc1 c.vSrc1Len x.2) i)).bytes) ∧
      SameMemory s t ((List.range rows).map fun i => (dst + i * (64 * c.fld 239 224), n))

/-- ROWSTAT: RESET sets the named registers to +0, LOAD takes them from LOC, READ writes them to LOC as XF values; every other register, and every other byte, stays (R197). -/
def Obligations.RowstatCompletes : Prop :=
  ∀ (s : State) (hall slot : Nat) (c : Ctx) (n : Nat), At s hall slot 0x05 c → s.rowstatFault c = none →
    s.lens c [(c.fld 119 112, c.rsPlan)] = .ok [n] →
    let loc := s.space c c.rsLoc c.slot + c.rsLoc.off
    (c.rsop = 1 → Gives (.rowstatReset hall slot) s fun t => OnlyWork s t ∧ WentOn s t c ∧
      ∀ row, (t.slotCore hall slot).rsCode row =
        if c.rsFirst ≤ row ∧ row < c.rsFirst + n then 0 else (s.slotCore hall slot).rsCode row) ∧
    (c.rsop = 2 → s.depends c [statPlace hall slot] = false → Gives (.rowstatRead hall slot) s fun t => WentOn s t c ∧
      (∀ i, i < n → t.mem.deliverRange (loc + 16 * i) 16 =
        leBytes 16 (convert .xf false ((s.slotCore hall slot).rsVal (c.rsFirst + i))).code) ∧
      SameMemory s t [(loc, 16 * n)] ∧ ∀ row, (t.slotCore hall slot).rsCode row = (s.slotCore hall slot).rsCode row) ∧
    (c.rsop = 3 → s.depends c [(loc, 16 * n)] = false → s.dataFault [(loc, 16 * n)] = none → Clean s [(loc, 16 * n)] →
      Gives (.rowstatLoad hall slot) s fun t => WentOn s t c ∧ SameMemory s t [] ∧
        ∀ row, (t.slotCore hall slot).rsCode row =
          if c.rsFirst ≤ row ∧ row < c.rsFirst + n then
            (convert .xf false (decodeElem .xf (leNat (s.mem.deliverRange (loc + 16 * (row - c.rsFirst)) 16) % 2 ^ 83))).code
          else (s.slotCore hall slot).rsCode row)

namespace Sys2Proof.Claims

/-- Where row i of a MOVE to memory goes, part by part (R199, R642). -/
def moveTo (s : State) (c : Ctx) (i : Nat) : List (Nat × Nat) := (s.resolveParts c.wing (c.mvDst + i * c.mvDstPitch) c.mvLen).getD []

/-- Where the row at an address of SRC lies. -/
def moveFromParts (s : State) (c : Ctx) (a : Nat) : List (Nat × Nat) := (s.resolveParts c.wing a c.mvLen).getD []

/-- The bytes that stand at ranges, one range after another. -/
def bytesAt (s : State) (xs : List (Nat × Nat)) : List Byte := xs.flatMap fun x => s.mem.deliverRange x.1 x.2

/-- A MOVE to memory at its first attempt, from no ring, with rows that do not overlap and room on the light path. -/
def MoveRuns (s : State) (hall slot : Nat) (c : Ctx) (rows : Nat) : Prop :=
  At s hall slot 0x08 c ∧ (s.seq hall slot).iter = 0 ∧ (s.seq hall slot).taken = none ∧ s.moveFault c = none ∧
    s.lens c [(c.fld 247 240, c.mvRows)] = .ok [rows] ∧ c.mvToRing = false ∧ s.mvSrcRing c = none ∧
    ((List.range rows).flatMap (moveTo s c)).Pairwise (fun x y => x.1 + x.2 ≤ y.1 ∨ y.1 + y.2 ≤ x.1) ∧
    (256 < c.mvLen ∨ rows ≤ s.lightRoom c)

/-- The command of a MOVE descriptor. -/
def moveCommand (c : Ctx) (hall slot : Nat) : Instr :=
  if c.mvZero then .moveZero hall slot else if c.mvIndexed then .moveIndexed hall slot else .move hall slot

/-- The rows that a MOVE writes, read before anything is written: zeros for ZERO (R198). -/
def rowData (s : State) (c : Ctx) (addrs : List Nat) (i : Nat) : List Byte :=
  if c.mvZero then List.replicate c.mvLen 0#8 else bytesAt s (moveFromParts s c (addrs.getD i 0))

/-- The sources of a MOVE's rows can be read now. -/
def MoveReads (s : State) (c : Ctx) (rows : Nat) (addrs : List Nat) : Prop :=
  ∃ reads, s.moveRows c rows c.mvSrc = .ok (addrs, reads) ∧ s.readFault reads = none ∧ Clean s reads ∧
    (c.mvZero = false → (∀ a ∈ addrs, (s.resolveParts c.wing a c.mvLen).isSome) ∧
      let src := addrs.flatMap (moveFromParts s c)
      s.depends c src = false ∧ s.dataFault src = none ∧ Clean s src)

end Sys2Proof.Claims

/-- MOVE, MOVE_ZERO and MOVE_INDEXED write each row of the source (zeros for ZERO), read before anything is written, to its row of DST, and go on (R198, R200). SRAM takes the rows at once; whole sectors of HBM are held pending and no read sees them before the seal (R247). Every other byte stays. -/
def Obligations.MovesComplete : Prop :=
  ∀ (s : State) (hall slot : Nat) (c : Ctx) (rows : Nat) (addrs : List Nat), MoveRuns s hall slot c rows → MoveReads s c rows addrs →
    ((∀ i, i < rows → ∀ x ∈ moveTo s c i, usableBytes ≤ x.1) →
      Gives (moveCommand c hall slot) s fun t => WentOn s t c ∧
        (∀ i, i < rows → bytesAt t (moveTo s c i) = rowData s c addrs i) ∧
        SameMemory s t ((List.range rows).flatMap (moveTo s c))) ∧
    ((∀ i, i < rows → c.mvDst + i * c.mvDstPitch + c.mvLen ≤ usableBytes ∧ (c.mvDst + i * c.mvDstPitch) % 64 = 0) → c.mvLen % 64 = 0 →
      Gives (moveCommand c hall slot) s fun t => WentOn s t c ∧ SameMemory s t [] ∧
        t.mem.writes = s.mem.writes ++ (List.range rows).flatMap fun i => (List.range (c.mvLen / 64)).map fun k =>
          ⟨s.beat.attempt, c.mvDst + i * c.mvDstPitch + 64 * k, ((rowData s c addrs i).drop (64 * k)).take 64⟩)

/-! ### Stream rings -/

/-- A ring is opened when context and entries are free together, and held otherwise (R344, R345); CLOSE and CANCEL empty it once nothing uses it (R346, R360); a line of a fill lands in its slot, and the last one makes the slot full (R348); a sender's data, announcement and credits arrive (R355); a completed light-path request makes room (R361). -/
def Obligations.StreamsComplete : Prop :=
  ∀ (s : State) (hall slot : Nat) (c : Ctx),
    (At s hall slot 0x10 c → s.openFault c = none →
      Gives (.streamOpen hall slot) s fun t => OnlyWorkAndCounts s t ∧
        (s.openRoom c = true → s.firstOpen hall slot = true → WentOn s t c ∧ (t.ring hall c.ringId).isOpen = true ∧ (t.ring hall c.ringId).wing = c.wing ∧
          (t.ring hall c.ringId).base = c.soBase.off ∧ (t.ring hall c.ringId).gen = 0 ∧ (t.ring hall c.ringId).head = 0 ∧
          (t.ring hall c.ringId).tail = 0 ∧ (t.ring hall c.ringId).slots.map RSlot.st = List.replicate c.soSlots 0) ∧
        (s.openRoom c = false ∨ s.firstOpen hall slot = false → HeldFor s t c .openRing ∧ t.work.rings = s.work.rings)) ∧
    (s.held hall slot .openRing = some c → s.openRoom c = true → s.firstOpen hall slot = true → s.openFault c = none → ∀ waited,
      Gives (.streamOpenGranted hall slot waited) s fun t => OnlyWorkAndCounts s t ∧ WentOn s t c ∧ (t.ring hall c.ringId).isOpen = true ∧
        (t.ring hall c.ringId).slots.map RSlot.st = List.replicate c.soSlots 0 ∧
        (hall < 8 → t.obj (0xC1C0 + hall) 5 = (s.obj (0xC1C0 + hall) 5 + waited) % 2 ^ 64 ∧
          t.obj (0xC190 + hall) 6 = (s.obj (0xC190 + hall) 6 + ((s.opensAsking hall slot).length - 1)) % 2 ^ 64)) ∧
    (At s hall slot 0x11 c → s.closeFault c = none →
      Gives (.streamClose hall slot) s fun t =>
        (s.closeBusy c = false → WentOn s t c ∧ (t.ring hall c.ringId).closing = true ∧
          ∀ x ∈ (t.ring hall c.ringId).slots, x.st ≠ 2) ∧
        (s.closeBusy c = true → HeldFor s t c .closeRing ∧ t.work.rings = s.work.rings)) ∧
    (s.held hall slot .closeRing = some c → s.closeBusy c = false →
      Gives (.streamCloseDone hall slot) s fun t => WentOn s t c ∧ (t.ring hall c.ringId).closing = true ∧
        ∀ x ∈ (t.ring hall c.ringId).slots, x.st ≠ 2) ∧
    (At s hall slot 0x12 c → s.closeFault c = none →
      Gives (.streamCancel hall slot) s fun t =>
        (s.cancelBusy c = false → WentOn s t c ∧ (t.ring hall c.ringId).head = (s.ring hall c.ringId).tail ∧
          (t.ring hall c.ringId).gen = ((s.ring hall c.ringId).gen + 1) % 256 ∧
          ∀ x ∈ (t.ring hall c.ringId).slots, x.st ≠ 1 ∧ x.st ≠ 2) ∧
        (s.cancelBusy c = true → HeldFor s t c .cancelRing ∧ t.work.rings = s.work.rings)) ∧
    (s.held hall slot .cancelRing = some c → s.cancelBusy c = false →
      Gives (.streamCancelDone hall slot) s fun t => WentOn s t c ∧ (t.ring hall c.ringId).head = (s.ring hall c.ringId).tail ∧
        (t.ring hall c.ringId).gen = ((s.ring hall c.ringId).gen + 1) % 256 ∧
        ∀ x ∈ (t.ring hall c.ringId).slots, x.st ≠ 1 ∧ x.st ≠ 2) ∧
    (∀ ring fill f off bs, (s.fillsOf hall ring).find? (fun x => x.id == fill) = some f → f.lines = [(off, bs)] → f.dropped = false →
      (s.ring hall ring).isOpen = true → (s.ring hall ring).gen = f.tag →
      Gives (.fillLineLands hall ring fill) s fun t =>
        t.mem.deliverRange (s.ringSlotAddr hall (s.ring hall ring) f.slot + off) bs.length = bs ∧
        SameMemory s t [(s.ringSlotAddr hall (s.ring hall ring) f.slot + off, bs.length)] ∧
        (t.work.fills.all fun x => x.id != fill) = true ∧
        (∀ x, (s.ring hall ring).slots[f.slot]? = some x → ∃ y, (t.ring hall ring).slots[f.slot]? = some y ∧ y.st = 2 ∧ y.len = x.len)) ∧
    (∀ source wing ring beat data, (s.ring hall ring).isOpen = true → (s.ring hall ring).source = 1 → (s.ring hall ring).closing = false →
      (s.ring hall ring).peer = source → (s.ring hall ring).wing = wing → 0 < (s.ring hall ring).credit → (s.ring hall ring).tailEmpty = true →
      data.length ≤ (s.ring hall ring).slotSize →
      Gives (.peerDataArrival source wing hall ring beat data) s fun t =>
        t.mem.deliverRange (s.ringSlotAddr hall (s.ring hall ring) (s.ring hall ring).tail) data.length = data ∧
        SameMemory s t [(s.ringSlotAddr hall (s.ring hall ring) (s.ring hall ring).tail, data.length)] ∧
        (∃ y, (t.ring hall ring).slots[(s.ring hall ring).tail]? = some y ∧ y.len = data.length ∧ y.sender = source ∧
          (s.knowsCommit source beat = true → y.st = 2 ∧ y.ok = true) ∧ (s.knowsCommit source beat = false → y.st = 1 ∧ y.ok = false)) ∧
        (t.ring hall ring).credit = (s.ring hall ring).credit - 1 ∧
        (t.ring hall ring).tail = ((s.ring hall ring).tail + 1) % (s.ring hall ring).slots.length) ∧
    (∀ source wing ring slots expected size, Gives (.ringAnnouncement source wing hall ring slots expected size) s fun t => OnlyWork s t ∧
      (t.peer source hall ring).granted = decide (expected = s.device) ∧
      (expected = s.device → (t.peer source hall ring).credits = slots ∧ (t.peer source hall ring).slotSize = size)) ∧
    (∀ source ring credits, (s.peer source hall ring).granted = true →
      (Gives (.peerCredit source hall ring credits false) s fun t => OnlyWork s t ∧
        (t.peer source hall ring).credits = (s.peer source hall ring).credits + credits) ∧
      (Gives (.peerCredit source hall ring credits true) s fun t => OnlyWork s t ∧ (t.peer source hall ring).granted = false)) ∧
    (0 < mget 0 s.work.lightPath (slotKey hall slot) →
      Gives (.lightPathComplete hall slot) s fun t =>
        mget 0 t.work.lightPath (slotKey hall slot) = mget 0 s.work.lightPath (slotKey hall slot) - 1 ∧
        (s.held hall slot .lightPath = none → OnlyWork s t))

/-- STREAM_STALL completes: its own effect is that a ring whose stall count has reached 2 faults the first descriptor that waits on it, and the stall is counted and ends (R362, R363). -/
def Obligations.StallFaults : Prop :=
  ∀ (s : State) (hall ring : Nat) (c : Ctx), 2 ≤ (s.ring hall ring).stallCount → (List.range 40).findSome? (s.waitsOn hall ring) = some c →
    hall < 8 → Gives (.streamStall hall ring) s fun t =>
      (t.seq c.hall c.slot).status = .stopped ∧ .fault c.wing 0x360D ∈ t.beat.checks ∧ (t.wing c.wing).fatal ≠ none ∧
        (t.ring hall ring).stall = 0 ∧ t.obj (0xC1C0 + hall) 8 = (s.obj (0xC1C0 + hall) 8 + 1) % 2 ^ 64

/-! ### MATMUL, CHAIN and the arrays -/

namespace Sys2Proof.Claims

/-- The members of a heavy descriptor, all at its barrier, and their run-time lengths (R167, R242). -/
def HeavyReady (s : State) (c : Ctx) (cs : List Ctx) (m k : Nat) (runs : List Run) (reads : List (Nat × Nat)) : Prop :=
  s.barrier c (fun s h sl => s.ready h sl) = some cs ∧ cs ≠ [] ∧ (cs.map Ctx.slot).Nodup ∧ (∀ x ∈ cs, s.heavyFault x = none ∧ s.slipAt x.hall x.slot x.pos ≠ some .lockstep) ∧
    (∃ lens, s.heavyLens c = .ok lens ∧ m = lens.headD 0 ∧ k = if isChain c.desc then hK c.desc else (lens[1]?).getD (hK c.desc)) ∧
    s.heavyRuns c m = .ok (runs, reads) ∧ (∀ x ∈ cs, s.heavyRingIds x = [])

/-- What a heavy descriptor reads in all, waiting for nothing and meeting no fault. -/
def HeavyReads (s : State) (cs : List Ctx) (c : Ctx) (m k : Nat) (reads : List (Nat × Nat)) : Prop :=
  let its := s.iters (cs.headD c)
  (∀ x ∈ cs, s.depends x (cs.flatMap fun y => its.flatMap fun i => s.heavyReads y m k (s.bases y i)) = false) ∧
    s.readFault (memOnly reads) = none ∧ ∀ x ∈ cs, s.dataFault (memOnly (its.flatMap fun i => s.heavyReads x m k (s.bases x i))) = none

end Sys2Proof.Claims

/-- MATMUL and CHAIN put into each member's arrays one array instruction for every iteration, row pass and K tile, and go on (R235); a disagreement of the lockstep sequencers stops the core instead (R163). -/
def Obligations.HeavyCompletes : Prop :=
  ∀ (s : State) (hall slot : Nat) (c : Ctx),
    (∀ cs m k runs reads, HeavyReady s c cs m k runs reads → HeavyReads s cs c m k reads →
      (At s hall slot 0x01 c → Gives (.matmul hall slot false) s fun t => ∀ x ∈ cs, WentOn s t x ∧
        ((memberCols x.desc (s.rankOf x)).2 ≠ 0 ∨ holdsTile x.desc (s.rankOf x) = true →
          (t.engine x.hall x.slot).queue.length = (s.engine x.hall x.slot).queue.length +
            (s.iters (cs.headD c)).length * ((runPasses runs).length * ceilDiv k 64))) ∧
      (At s hall slot 0x02 c → Gives (.chain hall slot) s fun t => ∀ x ∈ cs, WentOn s t x ∧
        ((memberCols x.desc (s.rankOf x)).2 ≠ 0 ∨ holdsTile x.desc (s.rankOf x) = true →
          (t.engine x.hall x.slot).queue.length = (s.engine x.hall x.slot).queue.length +
            (s.iters (cs.headD c)).length * ((runPasses runs).length * ceilDiv k 64)))) ∧
    (∀ core, At s hall slot 0x01 c → s.coreOf hall slot = some core → hall < 8 → slot < 40 →
      Gives (.matmul hall slot true) s fun t => (t.seq hall slot).status = .stopped ∧ (t.core hall core).stopped = true ∧
        .lockstep ∈ t.beat.checks ∧ (t.engine hall slot).queue = []) ∧
    (∀ core, s.ready hall slot = some c → c.op = 0x02 → s.slipAt hall slot c.pos = some .lockstep → s.coreOf hall slot = some core → hall < 8 → slot < 40 →
      Gives (.chain hall slot) s fun t => (t.seq hall slot).status = .stopped ∧ (t.core hall core).stopped = true ∧
        .lockstep ∈ t.beat.checks ∧ (t.engine hall slot).queue = [])

/-- A tile loads into the shadow registers, an adapter's column tile with it; an array instruction swaps it in and streams its rows, whose broadcast words are corrected or fail the core; a row that leaves is folded, and its last K tile ends it; a row whose check column disagrees, or whose duplicate differs, stops the core; an idle array stops streaming; the adapter instruction streams the rows of u (R143-R146, R153-R157, R236, R272, R273, R376, R546). -/
def Obligations.ArraysComplete : Prop :=
  ∀ (s : State) (hall slot : Nat), s.halted hall slot = false → hall < 8 → slot < 40 →
    (∀ a rest, (s.engine hall slot).queue = a :: rest → (s.engine hall slot).shadow = none → s.slipAt hall slot a.pos ≠ some .weightRow →
      Gives (.tileLoaded hall slot) s fun t => ∃ tile, (t.engine hall slot).shadow = some tile ∧
        (t.engine hall slot).queue = a :: rest ∧ (t.engine hall slot).active = (s.engine hall slot).active ∧
        tile.cols = ((List.range (memberCols a.desc a.rank).2).map fun j =>
            (s.tileLine a (hB a.desc).fmt (hB a.desc).scaled (a.bAddr + j * bPitch a.desc)).1) ++
          (s.adapterColumns a).map fun l => (s.tileLine a ((Fmt.ofCode (s.projOf a).aFmt).getD .int8) (s.projOf a).aScaled l).1) ∧
    (∀ a rest tile flips, (s.engine hall slot).queue = a :: rest → (s.engine hall slot).shadow = some tile →
      let heard := (linkRun (s.mem.linkEnds (64 + hall) slot) (fun _ => 0) (a.rows * (hA a.desc).fmt.width) flips).2
      ((∀ h ∈ heard, h = .corrected) →
        Gives (.arrayInstruction hall slot flips) s fun t => (t.engine hall slot).queue = rest ∧ (t.engine hall slot).shadow = none ∧
          (t.engine hall slot).active = some tile ∧ (t.engine hall slot).streaming = true ∧
          (t.engine hall slot).rows = (s.engine hall slot).rows ++ (List.range a.rows).map fun i =>
            rowOut a tile (i + a.row0) (s.actRow a (i + a.row0)).1) ∧
      (∀ n core, .failed n ∈ heard → s.coreOf hall slot = some core →
        Gives (.arrayInstruction hall slot flips) s fun t => (t.seq hall slot).status = .stopped ∧ (t.core hall core).stopped = true ∧
          .fabric ∈ t.beat.checks)) ∧
    (∀ o rest, (s.engine hall slot).rows = o :: rest → (∀ x ∈ o.compared o.sums, x.2.2.ok = true) → o.instr.term = false → o.instr.lastK = false →
      Gives (.resultRowLeaves hall slot .none) s fun t => (t.engine hall slot).rows = rest ∧
        (t.engine hall slot).acc o.instr o.row =
          o.fold o.sums (if o.instr.ktile = 0 then [] else (s.engine hall slot).acc o.instr o.row)) ∧
    (∀ o rest, (s.engine hall slot).rows = o :: rest → (∀ x ∈ o.compared o.sums, x.2.2.ok = true) → o.instr.term = false → o.instr.lastK = true →
      let cols := (memberCols o.instr.desc o.instr.rank).2
      Gives (.resultRowLeaves hall slot .none) s fun t => (t.engine hall slot).rows = rest ∧
        (∀ f ∈ (t.engine hall slot).folds, ¬(f.recId = o.instr.recId ∧ f.pass = o.instr.pass ∧ f.row = o.row)) ∧
        (o.instr.adapter ≠ 0 → cols ≠ 0 → (t.engine hall slot).waits = (s.engine hall slot).waits ++
          [⟨o.instr, o.row, (o.fold o.sums (if o.instr.ktile = 0 then [] else (s.engine hall slot).acc o.instr o.row)).take cols⟩]) ∧
        (o.instr.adapter = 0 ∨ cols = 0 → (t.engine hall slot).waits = (s.engine hall slot).waits)) ∧
    (∀ o rest w, (s.engine hall slot).rows = o :: rest → (∀ x ∈ o.compared o.sums, x.2.2.ok = true) → o.instr.term = true →
      let mine := fun (x : WaitRow) => x.instr.gid == o.instr.gid && x.instr.pass == o.instr.pass && x.row == o.row
      (s.engine hall slot).waits.find? mine = some w →
      Gives (.resultRowLeaves hall slot .none) s fun t => (t.engine hall slot).rows = rest ∧
        (t.engine hall slot).waits = (s.engine hall slot).waits.filter fun x => !mine x) ∧
    (∀ o rest u core, (s.engine hall slot).rows = o :: rest → s.coreOf hall slot = some core →
      (∃ x ∈ o.compared (upsetSums u o.sums), x.2.2.ok = false) → (∀ n, u ≠ .duplicate n) →
      Gives (.resultRowLeaves hall slot u) s fun t => (t.seq hall slot).status = .stopped ∧ (t.core hall core).stopped = true ∧
        .column ∈ t.beat.checks) ∧
    (∀ o rest n core, (s.engine hall slot).rows = o :: rest → s.coreOf hall slot = some core →
      Gives (.resultRowLeaves hall slot (.duplicate n)) s fun t => (t.seq hall slot).status = .stopped ∧ (t.core hall core).stopped = true ∧
        .duplicate ∈ t.beat.checks) ∧
    ((s.engine hall slot).shadow = none → Gives (.arrayIdle hall slot) s fun t => OnlyWork s t ∧
      t.engine hall slot = { s.engine hall slot with streaming := false, taken := 0 }) ∧
    (∀ w, (s.engine hall slot).termDue = some w →
      let a := w.instr
      let p := s.projOf a
      let fb := (Fmt.ofCode p.bFmt).getD .int8
      let rows := ((s.engine hall slot).waits.filter fun x => x.instr.gid == a.gid && x.instr.pass == a.pass).map WaitRow.row
      let us := rows.filterMap fun r => (s.uRow hall a slot r).map fun u => (r, u)
      let lines := (List.range (memberCols a.desc a.rank).2).map fun j =>
        adapterLine (a.adapter + p.bOff) fb p.bScaled a.aRank ((memberCols a.desc a.rank).1 + j)
      a.rows ≤ us.length → s.dataFault (lines.map fun l => (l, lineBytes fb p.bScaled a.aRank)) = none →
      Gives (.adapterInstruction hall slot) s fun t => (t.engine hall slot).waits = (s.engine hall slot).waits ∧
        ∃ tile : Tile, (tile.cols = lines.map fun l => lineCodes fb (s.mem.deliverRange l (lineBytes fb p.bScaled a.aRank)) a.aRank) ∧
          (t.engine hall slot).rows = (s.engine hall slot).rows ++ us.map fun u =>
            rowOut { a with ktile := 0, lastK := true, k := a.aRank, inverts := false, term := true } tile u.1 u.2) ∧
    (∀ p rest, (s.engine hall slot).partials = p :: rest →
      let lead := (s.groupSlots hall slot).headD slot
      let u := s.setEngine hall slot { s.engine hall slot with partials := rest }
      u.partialNext hall slot p = true → (u.engine hall lead).region = [] →
      Gives (.rowstatPartialArrival hall slot) s fun t => OnlyWork s t ∧ (t.engine hall slot).partials = rest ∧
        (t.slotCore hall lead).rsCode p.row = (convert .xf false (foldXf ((s.slotCore hall lead).rsVal p.row) p.val)).code) ∧
    (∀ p rest, (s.engine hall slot).peers = p :: rest → bitOf p.desc 49 = false → (memberCols p.desc 0).2 ≠ 0 → p.full = true →
      (hasStep p.desc .T = false ∨ matchSep p.desc = true) →
      let dev := bits p.desc 301 296
      let ph := bits p.desc 314 312
      let pr := bits p.desc 311 304
      let body := p.segs.foldl (fun b g => overlay b g.1 g.2)
        (List.replicate (linesExtent p.rows (heavyDPitch p.desc) (lineBytes (hD p.desc).fmt (hD p.desc).scaled (outN p.desc))) 0#8)
      (s.peer dev ph pr).credits ≠ 0 → body.length ≤ (s.peer dev ph pr).slotSize →
      Gives (.peerSend hall slot) s fun t => (t.engine hall slot).peers = rest ∧
        (t.peer dev ph pr).credits = (s.peer dev ph pr).credits - 1 ∧
        t.out = s.out ++ (peerPackets ph pr s.beat.doing body).map fun b => .packet dev (s.seq hall slot).wing 0x01 1 b)

/-! ### Attention, ring consumers and phases -/

/-- ATTEND over folio tables: with every iteration free of faults, exactly the lines that the iterations give are written, and the sequencer goes on (R288, R297). A consumer whose head slot is full takes it: the slot drains, the head advances, and a VECTOR runs on it (R350, R351). PHASE changes the slot's phase, and every hall's requested point follows it (R215, R535, R536). -/
def Obligations.AttendAndConsumers : Prop :=
  ∀ (s : State) (hall slot : Nat) (c : Ctx),
    (∀ (lens : List Nat) (j : Job) (rows : List ARow) (os : List AttOut), At s hall slot 0x03 c → s.attendFault c = none →
      s.lens c [(c.fld 215 208, c.atM), (c.fld 223 216, c.atKeys)] = .ok lens → s.jobOf c = some j →
      s.attendRows c j (lens.headD 0) ((lens[1]?).getD 0) = .ok rows → c.atRing = 0xFF →
      let its := s.iters c
      let xs := its.flatMap (s.attendReads c (lens.headD 0))
      let seqs := (rows.map ARow.seq).eraseDups
      let reads := s.segReads j ++ [(j.layerTable + 16 * c.atLayer, 16)] ++ seqs.flatMap (fun q => s.dirReads j q c.atLayer) ++
        (((its.map (fun i => c.atHead + adv2 i)).eraseDups).flatMap (s.attendTables c j rows)) ++
        globalReads ((s.segs j).filter (fun g => decide (g.first < lens.headD 0)))
      let lines := os.flatMap AttOut.lines
      s.depends c xs = false → s.dataFault xs = none →
      (∀ i ∈ its, s.attendDirs c j rows (c.atHead + adv2 i) = none) →
      its.map (fun i => s.attendIter c j rows i (.tables (c.atHead + adv2 i))) = os.map Except.ok →
      s.readFault reads = none → s.dataFault (os.flatMap fun o => o.acc.reads) = none →
      Clean s (reads ++ xs ++ os.flatMap fun o => o.acc.reads) → (∀ l ∈ lines, usableBytes ≤ l.1) →
      Gives (.attend hall slot) s fun t => WentOn s t c ∧
        SameMemory s t (lines.map fun l => (l.1, l.2.bytes.length)) ∧
        (lines.Pairwise (fun a b => a.1 + a.2.bytes.length ≤ b.1 ∨ b.1 + b.2.bytes.length ≤ a.1) →
          ∀ l ∈ lines, t.mem.deliverRange l.1 l.2.bytes.length = l.2.bytes)) ∧
    (∀ id rows, s.held hall slot .ringSlot = some c → c.op = 0x04 → s.vRings c = (some (some id), some none) →
      s.lens c [(c.fld 279 272, c.vRows)] = .ok [rows] → (s.ring hall id).headFull = true →
      let x := c.vReads rows (s.ringSlotAddr hall (s.ring hall id) (s.ring hall id).head) (s.space c c.vSrc1 c.slot + c.vSrc1.off)
      s.dataFault (x.1 ++ x.2) = none →
      Gives (.consumerTakesSlot hall slot) s fun t => WentOn s t c ∧
        (t.ring hall id).head = ((s.ring hall id).head + 1) % (s.ring hall id).slots.length ∧
        ∃ y, (t.ring hall id).slots[(s.ring hall id).head]? = some y ∧ y.st = 3) ∧
    (At s hall slot 0x2C c → s.headerFault c [(68, 511)] [] false false = none → c.version = 3 →
      Gives (.phase hall slot) s fun t => WentOn s t c ∧ (t.seq hall slot).phase = c.fld 67 64 ∧
        ∀ h, h < 8 → t.obj (0x4110 + h) 2 = t.requested h)

/-! ### Folios -/

/-- FOLIO_COPY and FOLIO_LOAN complete when their checks at decode pass: the operation is queued in order and the sequencer goes on, which is their own effect there (R205), and the change of loans is due when the package's beat programs have finished: FOLIO_LOAN_CHECKS applies it in order. A TAKE adds a loan, a RELEASE takes one away and frees the folio at 0, a COPY takes a folio of the wing with the source's side record (R202-R205). FOLIO_GATHER fills a ring slot with whole folios (R354). -/
def Obligations.FoliosComplete : Prop :=
  ∀ (s : State) (hall slot : Nat) (c : Ctx),
    (∀ (f : Nat) (e : Option Nat) (reads : List (Nat × Nat)), At s hall slot 0x0A c → s.headerFault c [(162, 511)] [] false false = none → (c.fcUpdate = true ∨ c.complete = true) →
      s.copySource c = .ok (f, e, reads) → s.folioBad c.wing f = false →
      s.readFault (reads ++ s.sideRead f) = none → s.dataFault (s.folioRead f) = none →
      Gives (.folioCopy hall slot) s fun t => WentOn s t c ∧ t.folio.now = s.folio.now ∧
        t.folio.ops = s.folio.ops ++ [⟨hall, slot, c.pos, (s.seq hall slot).nextRec, c.wing, c.desc⟩]) ∧
    (∀ cmd : Instr, (cmd = .folioLoanTake hall slot ∧ c.flOp = 1 ∨ cmd = .folioLoanRelease hall slot ∧ c.flOp = 2) →
      At s hall slot 0x0B c → s.headerFault c [(104, 111), (144, 159), (224, 511)] [] false false = none →
      (c.flFolio ≠ noFolio → c.fld 223 112 = 0) → (c.flFolio = noFolio → 0 < c.flCount ∧ c.flCount ≤ 262144) →
      ∀ es reads, s.loanEntries c = .ok (es, reads) → (∀ e ∈ es, s.folioBad c.wing e.folio = false) →
      s.readFault (reads ++ es.flatMap fun e => s.sideRead e.folio) = none →
      Gives cmd s fun t => WentOn s t c ∧ t.folio.now = s.folio.now ∧
        t.folio.ops = s.folio.ops ++ [⟨hall, slot, c.pos, (s.seq hall slot).nextRec, c.wing, c.desc⟩]) ∧
    (∀ o : LoanOp, s.programsDone = true → s.folio.settled = false → s.folio.ops = [o] → s.folio.changes = [] → s.gatherChanges = [] →
      c = ⟨o.hall, o.slot, o.wing, o.pos, o.desc⟩ →
      (c.op = 0x0B → c.flFolio ≠ noFolio → c.flOp = 1 → 0 < (s.side c.flFolio).loans → (s.side c.flFolio).loans < 65534 →
        Gives .folioLoanChecks s fun t => t.folio.ops = [] ∧
          (t.side c.flFolio).loans = (s.side c.flFolio).loans + 1 ∧ ∀ f, f ≠ c.flFolio → t.side f = s.side f) ∧
      (c.op = 0x0B → c.flFolio ≠ noFolio → c.flOp = 2 → (s.side c.flFolio).loans ≠ 0 → Gives .folioLoanChecks s fun t => t.folio.ops = [] ∧
        (t.side c.flFolio).loans = (s.side c.flFolio).loans - 1 ∧ (∀ f, f ≠ c.flFolio → t.side f = s.side f) ∧
        ((s.side c.flFolio).loans = 1 →
          (t.freeList (folioWing c.flFolio) (folioHalf c.flFolio)).stack =
            folioIndex c.flFolio :: (s.freeList (folioWing c.flFolio) (folioHalf c.flFolio)).stack)) ∧
      (∀ f e reads g u, c.op = 0x0A → s.copySource c = .ok (f, e, reads) → (s.side f).loans ≠ 0 →
        s.copyFolio c f (s.copyTable c) = some (g, u) → (c.fcRelease = true → (u.side f).loans ≠ 0) →
        Gives .folioLoanChecks s fun t => t.folio.ops = [] ∧
          t.folio.edits = s.folio.edits ++ (if c.fcUpdate then e.toList.map fun a => ⟨a, g⟩ else []) ∧
          (u.side g).loans = 1 ∧ (u.side g).scales = (s.side f).scales ∧ (u.side g).format = (s.side f).format ∧
          (c.fcRelease = false → t.folio.now = u.folio.now) ∧
          (c.fcRelease = true → (t.side f).loans = (u.side f).loans - 1))) ∧
    (∀ (rows : Nat) (fs : List Nat) (reads : List (Nat × Nat)), At s hall slot 0x09 c → s.gatherFault c = none → s.lens c [(c.fld 167 160, c.fgPlan)] = .ok [rows] →
      s.gatherList c rows = .ok (fs, reads) → s.readFault (reads ++ fs.flatMap s.sideRead) = none →
      s.dataFault (fs.map fun f => (s.folioAddr f, folioBytes f)) = none →
      (s.seq hall slot).iter = 0 → c.gatherSlots (s.ring hall c.fgRing).slotSize fs = [fs] → (s.ring hall c.fgRing).tailEmpty = true →
      Gives (.folioGather hall slot) s fun t => WentOn s t c ∧ t.folio = s.folio ∧
        (t.ring hall c.fgRing).tail = ((s.ring hall c.fgRing).tail + 1) % (s.ring hall c.fgRing).slots.length ∧
        ∃ f, t.work.fills = s.work.fills ++ [f] ∧ f.hall = hall ∧ f.ring = c.fgRing ∧ f.folios = fs ∧
          f.slot = (s.ring hall c.fgRing).tail)

/-! ### Collectives -/

namespace Sys2Proof.Claims

/-- COP of each COLLECT_START row (R448). -/
def collectRows : List (Nat × (Nat → Nat → Instr)) :=
  [(1, .broadcast), (2, .allGather), (3, .reduceScatter), (4, .allReduce), (5, .barrier), (6, .allToAll), (7, .allToAllV), (8, .courierAllReduce)]

/-- A launch with what its identity holds (R465); the other fields say nothing here. -/
def launchOf (g : Group) (c : Ctx) (rank count : Nat) : Launch :=
  { group := c.csGroup, wing := c.wing, hall := c.hall, slot := c.slot, inst := c.csInst, seq := g.nextSeq c.hall, rank := rank, cop := c.csCop
    dtype := c.csDtype, narrow := if c.csNarrow then some c.csNarrowFmt else none, count := count, capacity := c.csCap, root := c.csRoot
    src := 0, dst := 0, ring := none, tag := c.tag, account := c.account, beat := 0, committed := false, waited := false, drops := 0, dropDests := 0 }

/-- What a COLLECT_START reads at decode: its source elements and, for ALL_TO_ALL_V, its sizes (R242, R450). -/
def collectReads (s : State) (c : Ctx) (g : Group) (rank count : Nat) : List (Nat × Nat) :=
  let n := g.members.length
  (match if count = 0 then none else c.csSrcElems n rank count with
    | some e => if e = 0 then [] else [((s.resolve c.wing c.csSrc (dtBytes c.csDtype e)).getD 0, dtBytes c.csDtype e)]
    | none => []) ++
  (if c.csCop = 7 ∧ count ≠ 0 then [((s.resolve c.wing c.csSizes (4 * n)).getD 0, 4 * n)] else [])

/-- The frames of a launch with a member's own in its place. -/
def withFrame (r : CollRun) (rank : Nat) (identity : List Byte) (empty : Bool) : List (Nat × List Byte × Bool) :=
  r.frames.filter (fun f => f.1 != rank) ++ [(rank, identity, empty)]

/-- Identities of a launch that agree in every field of R466. -/
def Agree (fs : List (Nat × List Byte × Bool)) : Prop := ∀ a ∈ fs, ∀ b ∈ fs, identityDiff a.2 b.2 = none

/-- A COLLECT_START that passes its checks, waits for nothing and meets no disagreement. -/
def Launches (s : State) (hall slot : Nat) (c : Ctx) (g : Group) (rank count : Nat) : Prop :=
  At s hall slot 0x20 c ∧ s.collectFault c = none ∧ s.refLen c (c.fld 119 112) c.csPlan = .ok count ∧ s.group c.csGroup = some g ∧
    g.rankOf s.device c.hall = some rank ∧ ((dtypeFmt c.csDtype).width = 4 → c.csCop ≠ 7 → c.csCop ≠ 5 → count % 2 = 0) ∧
    s.depends c (collectReads s c g rank count) = false ∧ s.dataFault (collectReads s c g rank count) = none ∧
    (s.runOf c.csGroup (g.nextSeq c.hall)).aborted = none ∧
    Agree (withFrame (s.runOf c.csGroup (g.nextSeq c.hall)) rank (launchIdentity g (launchOf g c rank count) c.csNarrowFmt) (count == 0))

/-- A record of the fault code stands in the package, written or held while the firmware is paused (R574, R582). -/
def Raised (t : State) (code : Nat) : Prop := ∃ r, r.code = code ∧ (r ∈ t.cur.records ∨ r ∈ t.cur.heldRecords)

/-- A counter object has advanced by n, modulo its width (R25). -/
def Counted (s t : State) (acc sub n : Nat) : Prop := t.obj acc sub = (s.obj acc sub + n) % 2 ^ (8 * objLen acc sub)

end Sys2Proof.Claims

/-- COLLECT_START completes in each of its eight operations by launching, its own effect: the hall's member takes its sequence number and the next one follows, its launch is outstanding, its LAUNCH frame with the identity of R465 goes to every package, and the sequencer goes on (R444, R447, R464-R466). -/
def Obligations.CollectivesLaunch : Prop :=
  ∀ e ∈ collectRows, ∀ (s : State) (hall slot : Nat) (c : Ctx) (g : Group) (rank count : Nat), c.csCop = e.1 → Launches s hall slot c g rank count →
    Gives (e.2 hall slot) s fun t => WentOn s t c ∧
      (∃ g', t.group c.csGroup = some g' ∧ g'.members = g.members ∧ g'.nextSeq c.hall = (g.nextSeq c.hall + 1) % 2 ^ 32) ∧
      (∃ l ∈ t.coll.launches, l.group = c.csGroup ∧ l.hall = c.hall ∧ l.inst = c.csInst ∧ l.seq = g.nextSeq c.hall ∧ l.rank = rank ∧
        l.cop = c.csCop ∧ l.count = count ∧ l.committed = false) ∧
      .courier none (.collective 0 c.wing (launchFrame (launchIdentity g (launchOf g c rank count) c.csNarrowFmt) rank (count == 0))) ∈ t.out

/-- COLLECT_WAIT goes on once its launch is complete and frees the instance, else it holds until then (R445); frames of LAUNCH and COURIER_DATA are kept for their run (R463, R464), identities that differ abort the launch (R466), an ABORT stops every local member of it (R464). -/
def Obligations.CollectivesGoOn : Prop :=
  ∀ (s : State) (hall slot : Nat) (c : Ctx) (g : Group) (l : Launch),
    (At s hall slot 0x21 c → s.headerFault c [(88, 511)] [] false false = none → s.group c.csGroup = some g → g.wing = c.wing →
      (g.rankOf s.device c.hall).isSome → s.waitLaunch c = some l → (l.committed = true ∨ l.slot ≠ c.slot) →
      (s.runOf l.group l.seq).aborted = none →
      Gives (.collectWait hall slot) s fun t =>
        (s.launchDone g l = true → WentOn s t c ∧
          t.coll.launches = updFirst (fun x => x == l) (fun x => { x with waited := true }) s.coll.launches) ∧
        (s.launchDone g l = false → HeldFor s t c .collect ∧ t.coll = s.coll)) ∧
    (s.held hall slot .collect = some c → s.group c.csGroup = some g → s.waitLaunch c = some l → s.launchDone g l = true →
      Gives (.collectWaitDone hall slot) s fun t => WentOn s t c ∧
        t.coll.launches = updFirst (fun x => x == l) (fun x => { x with waited := true }) s.coll.launches) ∧
    (∀ source wing payload, let id := slice payload 0 32; let group := leAt id 0 2; let seq := leAt id 24 4; let rank := leAt payload 40 2
      s.group group = some g → g.wing = wing → rank < g.members.length → g.path.contains s.device = true →
      let fs := withFrame (s.runOf group seq) rank id (bitOf (leAt payload 42 1) 0)
      Gives (.launch source wing payload) s fun t =>
        ((Agree fs ∨ g.devices.contains s.device = false) → (t.runOf group seq).frames = fs ∧ (t.runOf group seq).aborted = (s.runOf group seq).aborted) ∧
        (∀ k f, g.devices.contains s.device = true → ({ s.runOf group seq with frames := fs } : CollRun).mismatch = some (k, f) → (s.runOf group seq).aborted = none →
          (t.runOf group seq).aborted = some (0x3613, leBytes 1 f ++ leBytes 2 0 ++ leBytes 2 k))) ∧
    (∀ source wing payload, let group := leAt payload 0 2; let seq := leAt payload 2 4
      s.group group = some g → g.wing = wing → g.devices.contains source = true → g.devices.contains s.device = true →
      (s.runOf group seq).aborted = none →
      Gives (.courierData source wing payload) s fun t =>
        (source, leAt payload 6 1, slice payload 8 48) ∈ (t.runOf group seq).courier) ∧
    (∀ source wing payload, let group := leAt payload 0 2; let seq := leAt payload 2 4
      s.group group = some g → g.wing = wing → (s.runOf group seq).aborted = none →
      Gives (.abort source wing payload) s fun t => (t.runOf group seq).aborted = some (leAt payload 6 2, slice payload 8 8) ∧
        ∀ m ∈ s.launchesOf group seq, .fault m.wing (leAt payload 6 2) ∈ t.beat.checks ∧
          ((s.seq m.hall m.slot).wing = m.wing → (s.seq m.hall m.slot).status ≠ .idle → (t.seq m.hall m.slot).status = .stopped))

/-- Pieces, slots and timeouts: a package on the path keeps a piece for its run, committed or not as the tokens say (R459, R460); one that has no member passes a piece of the way up on once it holds its slots (R441, R455); a residue fault fails the beat's check (R462); a launch takes its reduction slots in sequence order, CONCURRENCY at once of those that are not over (R455); one that has waited COLLECTIVE_TIMEOUT beats is aborted (R456). -/
def Obligations.PiecesAndTimeouts : Prop :=
  ∀ (s : State) (g : Group),
    (∀ source wing packet, let h := PieceHead.of packet; let r := s.runOf h.group h.seq
      s.group h.group = some g → g.wing = wing → r.aborted = none → g.path.contains s.device = true → h.back = false → h.narrowed = false →
      (g.devices.contains s.device = true ∨ h.origin = 0xFFFF) →
      (g.devices.contains s.device = false ∨ (r.frames.any fun f => (g.ranksOn s.device).contains f.1) = false ∨ fingerprint (s.runIdentity r g) = h.print) →
      Gives (.collectivePiece source wing packet false) s fun t => ∃ p ∈ (t.runOf h.group h.seq).pieces,
        p.origin = h.origin ∧ p.dest = h.dest ∧ p.index = h.index ∧ p.level = h.level ∧ p.beat = h.beat ∧ p.sender = source ∧
          p.codes = lineCodes (dtypeFmt h.dtype) (packet.drop 60) h.elems ∧ p.ok = s.pieceOk g r p) ∧
    (∀ source wing packet, let h := PieceHead.of packet; let r := s.runOf h.group h.seq; let id := s.runIdentity r g
      s.group h.group = some g → g.wing = wing → r.aborted = none → g.path.contains s.device = true → g.ranksOn s.device = [] →
      g.devices.contains s.device = false → h.origin = 0xFFFF → h.back = false → h.level = 1 → h.beat = s.beat.doing →
      s.mayForm = true → r.slots = true → r.framesAll g = true → chained (idCop id) = true → s.launchesOf h.group h.seq = [] →
      h.index < pieceCountOf (idDtype id) r.count → s.partialIn r 1 h.index = none → (r.made.all fun m => m.1 != stageRow || m.2.1 != h.index) = true →
      1 < g.devices.length → g.rows.contains (devY s.device) = true → devX s.device < g.xLast →
      Gives (.collectivePiece source wing packet false) s fun t => ∃ body,
        .packet (devAt (devX s.device + 1) (devY s.device)) g.wing 0x02 3 body ∈ t.out ∧ (PieceHead.of body).index = h.index ∧
          (PieceHead.of body).level = 1 ∧ (stageRow, h.index, s.beat.doing) ∈ (t.runOf h.group h.seq).made) ∧
    (∀ source wing packet, let h := PieceHead.of packet
      s.group h.group = some g → g.wing = wing → (s.runOf h.group h.seq).aborted = none →
      Gives (.collectivePiece source wing packet true) s fun t => .residue ∈ t.beat.checks ∧ Counted s t 0xC230 4 1 ∧ Raised t 0x1E01 ∧
        t.coll = s.coll) ∧
    (∀ group seq r, s.group group = some g → s.run group seq = some r → r ∈ s.chainRuns group → r.slots = false →
      (∀ x ∈ s.chainRuns group, x.seq < seq → x.slots = true) → ((s.chainRuns group).filter fun x => x.slots && !s.runOver g x).length < g.conc →
      Gives (.reductionSlotsTaken group seq) s fun t => (t.runOf group seq).slots = true) ∧
    (∀ group seq r, s.group group = some g → s.run group seq = some r → r.waits g s.device = true → s.obj 0x9000 3 ≤ r.waited →
      Gives (.collectiveTimeout group seq) s fun t => (∃ d, (t.runOf group seq).aborted = some (0x3612, d)) ∧
        ∀ m ∈ s.launchesOf group seq, .fault m.wing 0x3612 ∈ t.beat.checks ∧
          ((s.seq m.hall m.slot).wing = m.wing → (s.seq m.hall m.slot).status ≠ .idle → (t.seq m.hall m.slot).status = .stopped))

/-! ### The beat -/

namespace Sys2Proof.Claims

/-- A job completes at the open of beat n (R234). -/
def JobEnds (s : State) (n : Nat) : Prop :=
  ∃ w, w < 16 ∧ ∃ j, (s.wing w).job = some j ∧ j.beatCount < (n + 2 ^ 48 - j.start) % 2 ^ 48 ∧ (n + 2 ^ 48 - j.start) % 2 ^ 48 < 2 ^ 47

/-- The package takes part in the beat and no F4 record stands (R571). -/
def InBeat (s : State) : Prop := s.beat.synced = true ∧ s.obj 0x5000 8 = 0

/-- A beat is under way: it has neither passed nor been withheld. -/
def UnderWay (s : State) : Prop := InBeat s ∧ s.beat.committed = false ∧ s.beat.dead = false

/-- No merge entry of the beat's own programs waits (R383). -/
def NoBeatEntries (s : State) : Prop := ∀ e ∈ s.mem.merges, e.owner ≠ 0

end Sys2Proof.Claims

/-- A boundary gives the package the beat that the marker named and its period; work opens when the beat before has passed, else the package goes on with the beat it does; a stretch is counted and alters no input, output or order of the beat's work; two markers in a row missed lead to an election, whose master resumes after the last beat that every member has committed; the master's frames measure latency and set the lead; BEAT_IN gives a master its boundaries until an edge comes late or none comes (R69, R72, R74-R80, R89, R90, R96). -/
def Obligations.BoundariesAndMarkers : Prop :=
  ∀ s : State,
    (∀ adv, s.boundaryFalls = true → s.beat.action = some adv → s.beat.nextBeat < 2 ^ 48 →
      ¬(s.beat.committed = true ∧ s.beat.doing ≠ s.beat.nextBeat) → ¬JobEnds s s.beat.nextBeat →
      Gives .beatBoundary s fun t => t.beatNo = s.beat.nextBeat ∧ t.obj 0x6000 2 = s.beat.nextPeriod ∧ Counted s t 0x6000 9 1 ∧
        t.beat.action = none ∧ t.beat.doing = s.beat.doing ∧ t.beat.attempt = s.beat.attempt ∧
        (adv = false → Counted s t 0x6000 0xA 1)) ∧
    (∀ adv, s.boundaryFalls = true → s.beat.action = some adv → s.beat.nextBeat < 2 ^ 48 →
      s.beat.committed = true → s.beat.doing ≠ s.beat.nextBeat → s.beat.doing ≠ (s.beat.nextBeat + 1) % 2 ^ 48 → ¬JobEnds s s.beat.nextBeat →
      Gives .beatBoundary s fun t => t.beat.doing = s.beat.nextBeat ∧ t.beat.committed = false ∧ t.beat.attempt = 1 ∧ t.inUse = []) ∧
    (s.boundaryFalls = true → (s.beat.action = none ∨ s.beat.action = some false ∧ s.beat.nextBeat = s.beatNo) →
      ¬(s.beat.committed = true ∧ s.beat.doing ≠ s.beatNo ∧ s.beat.doing ≠ (s.beatNo + 1) % 2 ^ 48) →
      Gives .beatBoundary s fun t => Counted s t 0x6000 0xA 1 ∧ t.beatNo = s.beatNo ∧
        t = { s with cat := t.cat, beat := t.beat, work := t.work, out := s.out ++ [.pin "BEAT_OUT" true, .pin "BEAT_OUT" false] } ∧
        t.beat.doing = s.beat.doing ∧ t.beat.attempt = s.beat.attempt ∧ t.beat.committed = s.beat.committed ∧ t.beat.checks = s.beat.checks ∧
        t.work = { s.work with rings := t.work.rings } ∧
        ∀ hall id, (t.ring hall id).slots = (s.ring hall id).slots ∧ (t.ring hall id).head = (s.ring hall id).head ∧
          (t.ring hall id).tail = (s.ring hall id).tail) ∧
    (s.boundaryFalls = false → Gives .beatBoundary s fun t => t = s) ∧
    (∀ beat adv period master skew, 3 ≤ s.obj 0xA000 1 → s.obj 0xA000 1 ≠ 0x0F → s.obj 0x5000 8 = 0 →
      ¬(s.beat.synced = true ∧ adv = true ∧ beat = s.beatNo) →
      Gives (.beatMarker beat adv period master skew) s fun t => t.beat.action = some adv ∧ t.beat.nextBeat = beat ∧
        t.beat.nextPeriod = period ∧ t.beat.missed = 0 ∧ t.beat.synced = true ∧ t.obj 0x6000 4 = master) ∧
    (s.beat.synced = true → s.isMaster = false → Gives .markerMissed s fun t => t.beat.missed = s.beat.missed + 1 ∧
      t.beat.action = some false ∧ t.beat.nextBeat = s.beatNo ∧ t.cat = s.cat) ∧
    (s.beat.synced = true → 2 ≤ s.beat.missed → Gives .markerLossElection s fun t =>
      t.obj 0x6000 4 = s.elected ∧ Counted s t 0x6000 0xE 1 ∧ .courier none .timing ∈ t.out ∧ t.beat.missed = 0 ∧
        t.obj 0x6000 8 = s.groupCommitted) ∧
    (∀ anchor, s.obj 0xA000 1 = 3 → s.obj 0x5000 8 = 0 → Gives (.masterElection anchor) s fun t =>
      t.beat.anchor = anchor ∧ t.obj 0x6000 4 = ({ s with beat := { s.beat with anchor := anchor } } : State).elected ∧
        .courier none .timing ∈ t.out) ∧
    (∀ device frame, (mget [] s.beat.trips device).length ≠ 15 → Gives (.timingFrame device frame) s fun t =>
      mget [] t.beat.trips device = mget [] s.beat.trips device ++ [frame.trip] ∧ t.beat.latencies = s.beat.latencies ∧
      (s.isMaster = false → device = s.obj 0x6000 4 % 64 → t.obj 0x6000 5 = frame.lead % 65536)) ∧
    (∀ device frame, (mget [] s.beat.trips device).length = 15 → Gives (.timingFrame device frame) s fun t =>
      mget [] t.beat.trips device = [] ∧ mget 0 t.beat.latencies device = halfTrip (mget [] s.beat.trips device ++ [frame.trip]) ∧
      (s.isMaster = false → t.beat.latency = mget 0 t.beat.latencies (s.obj 0x6000 4 % 64)) ∧
      (s.isMaster = true → (∀ x ∈ t.beat.latencies, x.2 + 110 ≤ 65536) → ∀ x ∈ t.beat.latencies, x.2 + 100 ≤ t.obj 0x6000 5)) ∧
    (∀ departure, s.beatInUsed = true → Gives (.beatInEdge departure) s fun t => t.beat.beatInDue = true ∧
      (100 * departure.natAbs ≤ s.obj 0x6000 2 * 250 → t = { s with beat := { s.beat with beatInDue := true } }) ∧
      (s.obj 0x6000 2 * 250 < 100 * departure.natAbs → t.beat.ownTimer = true ∧ Raised t 0x0602)) ∧
    (∀ departure, s.beatInUsed = true →
      ((∃ d : Int, departure = some d ∧ s.obj 0x6000 2 * 250 < 100 * d.natAbs) ∨ departure = none ∧ s.beat.beatInDue = false) →
      Gives (.beatInLost departure) s fun t => t.beat.ownTimer = true ∧ Raised t 0x0602)

/-- READY goes out when the work of the beat is done and not before; a package that cannot send it says so at the cutoff; the master advances the beat when every package present has reported, and stretches it otherwise; OVERRUN_LIMIT ends the wings that have not finished (R82, R93-R95). -/
def Obligations.ReadyAndDecision : Prop :=
  ∀ s : State,
    (∀ device beat slack ceiling power, s.isMaster = true → beat = s.beatNo → s.beat.ready.contains device = false →
      Gives (.ready device beat slack ceiling power) s fun t => t.beat.ready = s.beat.ready ++ [device] ∧ t.cat = s.cat ∧
        mget 0 t.beat.slackSum device = mget 0 s.beat.slackSum device + slack) ∧
    (∀ device beat recovering ceiling power, s.isMaster = true → beat = s.beatNo →
      Gives (.notReady device beat recovering ceiling power) s fun t => (device, recovering) ∈ t.beat.notReady ∧ t.beat.ready = s.beat.ready ∧
        t.cat = s.cat) ∧
    (∀ slack, InBeat s → s.beat.committed = false → s.workDone = true → s.beat.checks = [] → NoBeatEntries s →
      Gives (.workFinished slack) s fun t => t.beat.finished = true ∧
        (s.beat.doing = s.beatNo → s.curatorAway = false → s.beat.missed = 0 → s.beat.readySent = false → t.beat.readySent = true ∧
          (s.isMaster = false → .courier (some (s.obj 0x6000 4 % 64)) (.ready s.beatNo slack (s.obj 0x4120 6) (s.obj 0x4140 1)) ∈ t.out) ∧
          (s.isMaster = true → s.device ∈ t.beat.ready))) ∧
    (InBeat s → s.beat.readySent = false → s.canReady = false →
      let rec_ := s.beat.recovering || !s.beat.checks.isEmpty || s.beat.doing != s.beatNo || s.curatorAway
      Gives .readyCutoff s fun t => t.beat.readySent = false ∧
        (s.isMaster = false → .courier (some (s.obj 0x6000 4 % 64)) (.notReady s.beatNo rec_ (s.obj 0x4120 6) (s.obj 0x4140 1)) ∈ t.out) ∧
        (s.isMaster = true → (s.device, rec_) ∈ t.beat.notReady)) ∧
    (InBeat s → s.isMaster = true → s.beat.action = none → (∀ d ∈ s.members, d ∈ s.beat.ready) →
      Gives .masterDecision s fun t => t.beat.action = some true ∧ t.beat.nextBeat = (s.beatNo + 1) % 2 ^ 48 ∧ t.cat = s.cat ∧
        t.out = s.out ++ [.courier none (.marker ((s.beatNo + 1) % 2 ^ 48) true (s.obj 0x6000 1) s.device false),
          .courier none (.marker ((s.beatNo + 1) % 2 ^ 48) true (s.obj 0x6000 1) s.device true)]) ∧
    (InBeat s → s.isMaster = true → s.beat.action = none → (∃ d ∈ s.members, d ∉ s.beat.ready) →
      Gives .masterDecision s fun t => t.beat.action = some false ∧ t.beat.nextBeat = s.beatNo ∧
        (∀ yx, .courier none (.marker s.beatNo false (s.obj 0x6000 1) s.device yx) ∈ t.out) ∧
        t.obj 0x6000 0xF = deviceMask (s.members.filter fun d => !s.beat.ready.contains d)) ∧
    (s.obj 0x6000 0xD ≤ s.beat.overrun → Gives .overrunLimit s fun t =>
      ∀ w, w < 16 → (s.wing w).fatal = none → (t.wing w).fatal = if s.wingUnfinished w then some (0x3502, s.device) else none)

/-- The seal: a beat whose work is done and whose checks hold commits, with its token to every package it sent data to; one with a failed check is withheld and its withdraw token goes out, and the fourth withholding in a row stops the package; one that is not finished stretches (R83, R84, R88, R91). -/
def Obligations.SealVerdict : Prop :=
  ∀ s : State, UnderWay s → NoBeatEntries s →
    (s.beat.checks = [] → (s.beat.finished = true ∨ s.workDone = true) → (s.workDone = true → s.settleLoans.beat.checks = []) →
      Gives (.sealBegin []) s fun t => t.beat.committed = true ∧ t.beat.attempt = s.beat.attempt ∧ t.catSeal = t.cat ∧
        ∀ d ∈ s.tokenDevices, .courier (some d) (.commit s.beat.doing) ∈ t.out) ∧
    (s.beat.checks ≠ [] →
      Gives (.sealBegin []) s fun t => t.beat.committed = false ∧ t.beat.recovering = true ∧ t.beat.fails = s.beat.fails + 1 ∧
        (s.beat.fails = 3 → t.obj 0x5000 8 = 1) ∧
        ∀ d ∈ s.tokenDevices, .courier (some d) (.withdraw s.beat.doing) ∈ t.out) ∧
    (s.beat.checks = [] → s.beat.finished = false → s.workDone = false →
      Gives (.sealBegin []) s fun t => t.beat.committed = false ∧ t.beat.attempt = s.beat.attempt ∧ t.beat.fails = s.beat.fails ∧
        t.beat.dead = false)

/-- A commit token makes the sender's data of the beat full in every ring that it fills, a withdraw token empties those slots (R85); when a sparing is complete the withheld beat is replayed as a further attempt (R88). -/
def Obligations.TokensAndSparing : Prop :=
  ∀ (s : State) (device beat hall id i : Nat) (x : RSlot),
    ((s.work.rings.map Prod.fst).Nodup → (s.ring hall id).source = 1 → (s.ring hall id).closing = false →
      (s.ring hall id).slots[i]? = some x → x.landed = true → x.ok = false → x.sender = device → x.beat = beat → x.st = 1 →
      (∀ l ∈ s.coll.launches, ∀ r, l.ring = some r → l.hall * 256 + r ≠ hall * 256 + id) →
      Gives (.commitToken device beat) s fun t => (device, beat) ∈ t.coll.tokens ∧
        ∃ y, (t.ring hall id).slots[i]? = some y ∧ y = { x with st := 2, ok := true }) ∧
    ((s.work.rings.map Prod.fst).Nodup → (s.ring hall id).source = 1 → (s.ring hall id).slots[i]? = some x → x.landed = true → x.ok = false →
      x.sender = device → x.beat = beat → x.st = 1 →
      Gives (.withdrawToken device beat) s fun t => (∃ y, (t.ring hall id).slots[i]? = some y ∧ y = { x with st := 0, landed := false }) ∧
        (s.ring hall id).credit < (t.ring hall id).credit) ∧
    (s.cur.sparing ≠ [] → s.beat.committed = false → s.beat.dead = true → s.curatorAway = false → s.obj 0x5300 2 ≠ 1 → s.obj 0x5000 8 = 0 →
      Gives .sparingComplete s fun t => t.beat.attempt = s.beat.attempt + 1 ∧ t.beat.dead = false ∧ t.beat.doing = s.beat.doing ∧
        t.beat.committed = false)

/-! ### The Catalogue -/

namespace Sys2Proof.Claims

/-- The command of each row that serves a request. -/
def requestRows : List (Row × (Src → Instr)) :=
  [(.read, .read), (.describe, .describe), (.snapshot, .snapshot), (.readBlock, .readBlock), (.sessionClose, .sessionClose), (.write, .write),
   (.writeBlock, .writeBlock), (.open1, .sessionOpenPhase1), (.open3, .sessionOpenPhase3), (.halt, .halt), (.run, .run), (.clearFatal, .clearFatal),
   (.restoreDefaults, .restoreDefaults), (.window, .windowWrite), (.share, .hallStoreShareWrite), (.mode, .mode), (.prepareRemoval, .prepareRemoval),
   (.returnToService, .returnToService), (.groupDefine, .groupDefine), (.groupDelete, .groupDelete), (.shipCancel, .shipCancel),
   (.divergence, .divergenceClear), (.coolant, fun src => .coolantCommand src 0), (.activate, .activate), (.confirm, .confirm), (.revert, .revert),
   (.removalPrepare, .removalPrepare), (.removalAfterStop, .removalAfterStop), (.removalCancel, .removalCancel), (.reset, .reset),
   (.stopTest, .stopWithSelfTest), (.stopPlain, .stopWithoutSelfTest), (.slotWrite, .slotWrite), (.debugOpen, .debugOpen)]

/-- The path holds a request of a row for this package; `u` is the state once its number has been taken. -/
def Asks (s : State) (src : Src) (row : Row) (a : Ask) (u : State) : Prop := s.take src = .request a u ∧ a.row = row ∧ a.target = none

/-- A write that passes its checks with a value. -/
def Writes (s : State) (src : Src) (row : Row) (a : Ask) (u : State) (v : Nat) : Prop :=
  Asks s src row a u ∧ u.writeCheck a.caller a.req.acc a.req.sub a.req.data = .ok v

/-- The request has its answer (R33, R42, R50): in the window's registers and buffer, in the Lormal frame that an Ethernet frame holds from byte 62 on, or on its way to the anchor. -/
def Answered (t : State) (a : Ask) (rc : Nat) (data : List Byte) : Prop := match a.back with
  | .window fn => (t.window fn).busy = false ∧ (t.window fn).done = true ∧ (t.window fn).result = rc ∧ (t.window fn).returned = data.length ∧
      ∀ i, i < data.length → mget 0#8 (t.window fn).buffer i = data.getD i 0#8
  | .torus anchor fn => .result anchor (.catalogue fn rc data) ∈ t.out
  | .frame .. => ∃ f, .lormal f ∈ t.out ∧ beAt f 84 1 = rc ∧ slice f 86 data.length = data

/-- The wing of an accession of a wing-scoped record. -/
def accWing (a : Ask) : Nat := a.req.acc % 16

end Sys2Proof.Claims

/-- READ, DESCRIBE, SNAPSHOT and READ_BLOCK answer with what the object holds, cut to the length that the path carries, and change nothing outside the server (R22, R25, R40, R42); SESSION_CLOSE answers and ends the session (R44, R58); a request for another package of the torus is carried to it (R36); a window's request waits while another is under way or comes before it in the order of the beat (R38). -/
def Obligations.ReadsAnswered : Prop :=
  ∀ (s : State) (src : Src) (a : Ask) (u : State),
    (∀ o, Asks s src .read a u → a.req.op = 1 → a.caller.look a.req.acc a.req.sub = .ok o → o.hidden = false →
      let v := if cycleAcc a.req.acc then u.passCycles else u
      let x := a.trim rcOk (v.valueBytes a.caller o a.req.acc a.req.sub)
      Gives (.read src) s fun t => Answered t a x.1 x.2 ∧ t.cat = s.cat ∧ t.cur.cycles = v.cur.cycles ∧ t.free = v.free) ∧
    (∀ e, Asks s src .read a u → a.req.op = 1 → a.caller.look a.req.acc a.req.sub = .error e →
      Gives (.read src) s fun t => Answered t a e [] ∧ t.cat = s.cat) ∧
    (∀ o, Asks s src .describe a u → a.caller.look a.req.acc a.req.sub = .ok o →
      let x := a.trim (u.describeObject a.caller a.req.acc a.req.sub).1 (u.describeObject a.caller a.req.acc a.req.sub).2
      Gives (.describe src) s fun t => Answered t a x.1 x.2 ∧ t.cat = s.cat) ∧
    (∀ o, Asks s src .snapshot a u → a.caller.look a.req.acc 0 = .ok o →
      let x := a.trim (u.snapshotRecord a.caller a.req.acc).1 (u.snapshotRecord a.caller a.req.acc).2
      Gives (.snapshot src) s fun t => Answered t a x.1 x.2 ∧ t.cat = s.cat) ∧
    (∀ o, Asks s src .readBlock a u → a.caller.look a.req.acc a.req.sub = .ok o → o.ty = 0x0D → o.hidden = false →
      let n := min a.req.length (if a.caller.big then 1024 else 32768)
      let x := a.trim (u.readBlock a.caller a.req.acc a.req.sub a.req.offset n).1 (u.readBlock a.caller a.req.acc a.req.sub a.req.offset n).2
      Gives (.readBlock src) s fun t => Answered t a x.1 x.2 ∧ t.cat = s.cat) ∧
    (∀ o id, Asks s src .sessionClose a u → a.caller.look a.req.acc a.req.sub = .ok o → o.hidden = false → u.sessionOf a.caller = some id →
      Gives (.sessionClose src) s fun t => (∀ x ∈ t.server.sessions, x.id ≠ id) ∧ t.obj 0x1020 9 = t.server.sessions.length) ∧
    (∀ e ∈ requestRows, ∀ d, s.take src = .request a u → a.row = e.1 → a.target = some d →
      Gives (e.2 src) s fun t => (a.caller.fn.getD 0, d) ∈ t.server.forwards ∧
        ∃ wing view, .forward d wing view a.req ∈ t.out) ∧
    (∀ e ∈ requestRows, ∀ fn, s.paused = false → s.turn (s.windowOrder fn) = false → Gives (e.2 (.window fn)) s fun t => t = s)

/-- A session opens in four phases (R55-R58): phase 1 answers with the device's nonce, its ephemeral key and its signature and leaves a half-open session, phase 3 with a good signature opens it in the role of its key slot. -/
def Obligations.SessionsOpen : Prop :=
  ∀ (s : State) (src : Src) (a : Ask) (u : State),
    (Asks s src .open1 a u → a.req.data.length = 100 → beAt a.req.data 0 1 = 1 → (a.back.isWindow = false → beAt a.req.data 2 2 = 0) →
      1 ≤ beAt a.req.data 1 1 → beAt a.req.data 1 1 ≤ 8 → u.operatorRole (beAt a.req.data 1 1) ≠ 0 → keyPoint (slice a.req.data 36 64) ≠ none →
      u.server.sessions.length < 4 → u.server.half.length < 2 → (a.back.isWindow = true → u.windowSession = none ∧ ∀ h ∈ u.server.half, h.window = false) →
      Gives (.sessionOpenPhase1 src) s fun t => ∃ h ∈ t.server.half, h.id = u.server.nextId ∧ h.slot = beAt a.req.data 1 1 ∧
        h.window = a.back.isWindow ∧ h.phase1 = a.req.data ∧ t.server.nextId = u.server.nextId + 1 ∧ Answered t a rcOk h.phase2 ∧
        t.server.sessions.length = u.server.sessions.length) ∧
    (∀ h, Asks s src .open3 a u → a.req.data.length = 72 → (a.back.isWindow = false → beAt a.req.data 1 3 = 0) →
      u.server.half.find? (fun h => h.id == beAt a.req.data 4 4 && h.window == a.back.isWindow) = some h → u.operatorRole h.slot ≠ 0 →
      ecdsaVerify (u.operatorKey h.slot) (h.phase1 ++ h.phase2 ++ a.req.data.take 8) (slice a.req.data 8 64) = true →
      u.server.sessions.length < 4 →
      Gives (.sessionOpenPhase3 src) s fun t => h ∉ t.server.half ∧ t.obj 0x1020 9 = u.server.sessions.length + 1 ∧
        ∃ x ∈ t.server.sessions, x.id = h.id ∧ x.role = u.operatorRole h.slot ∧ x.window = a.back.isWindow ∧ x.key = h.sessionKey)

namespace Sys2Proof.Claims

/-- Objects whose write sets off nothing but the value (R28). -/
def plainObject (acc sub : Nat) : Bool :=
  !([0x300, 0x301].contains (acc / 16)) && !([0x1022, 0x2100, 0xA100, 0xB300].contains acc) && !(acc / 16 == 0x710 && decide (sub ≤ 3)) &&
    !(acc / 16 == 0x800 && sub == 1) && !(acc / 16 == 0x910 && sub == 2) && !(decide (0x8200 ≤ acc) && decide (acc < 0x8204)) &&
    !(acc == 0x5000 && decide (sub ≤ 2)) && !([(0x7000, 1), (0x4140, 6), (0x4200, 5), (0x4120, 3), (0x5300, 1), (0x5300, 4), (0x6000, 3), (0xD100, 3)].contains (acc, sub))

end Sys2Proof.Claims

/-- A WRITE that passes its checks stores the value; an object that applies at beat open keeps the value in use until then (R28). A first segment of WRITE_BLOCK is held under the path's claim until the last (R39). HALT, RUN and CLEAR_FATAL move the wing's state (R68, R568); windows and shares take their new bounds, what a window gains reads zero (R66, R67, R613); restoring defaults empties the store (R32). -/
def Obligations.WritesTakeEffect : Prop :=
  ∀ (s : State) (src : Src) (a : Ask) (u : State) (v : Nat),
    (Writes s src .write a u v → plainObject a.req.acc a.req.sub = true → Gives (.write src) s fun t => Answered t a rcOk [] ∧
      t.obj a.req.acc a.req.sub = v ∧ (bitOf (objFlags a.req.acc a.req.sub) 4 = true → t.objUsed a.req.acc a.req.sub = u.objUsed a.req.acc a.req.sub)) ∧
    (Asks s src .writeBlock a u → u.blockCheck a.caller a.req.acc a.req.sub a.req.data.length = rcOk → a.req.last = false → a.req.offset = 0 →
      u.server.claims.find? (fun x => x.key == objKey a.req.acc a.req.sub) = none →
      Gives (.writeBlock src) s fun t => Answered t a rcOk [] ∧
        ⟨objKey a.req.acc a.req.sub, a.caller.path, a.req.data⟩ ∈ t.server.claims) ∧
    (Writes s src .halt a u v → u.wingState (accWing a) = 1 → Gives (.halt src) s fun t => Answered t a rcOk [] ∧ t.wingState (accWing a) = 2) ∧
    (Writes s src .run a u v → u.wingState (accWing a) = 0 → Gives (.run src) s fun t => Answered t a rcOk [] ∧ t.wingState (accWing a) = 1 ∧
      (t.wing (accWing a)).poolStale = false) ∧
    (Writes s src .clearFatal a u v → u.wingState (accWing a) = 3 → Gives (.clearFatal src) s fun t => Answered t a rcOk [] ∧
      t.wingState (accWing a) = 0 ∧ (t.wing (accWing a)).fatal = none ∧ (t.wing (accWing a)).job = none) ∧
    (Writes s src .window a u v → (u.windowWrite (accWing a) a.req.sub v).2 = rcOk →
      Gives (.windowWrite src) s fun t => Answered t a rcOk [] ∧ t.obj a.req.acc a.req.sub = v ∧
        (let lo0 := u.obj a.req.acc 1; let hi0 := u.obj a.req.acc 2
         let lo := if a.req.sub = 1 then v else lo0; let hi := if a.req.sub = 2 then v else hi0
         lo0 % 4096 = 0 → hi0 % 4096 = 0 → v % 4096 = 0 →
         ∀ x, lo ≤ x → x < hi → ¬(lo0 ≤ x ∧ x < hi0) → t.mem.deliver x = 0#8)) ∧
    (Writes s src .share a u v → (u.shareWrite (accWing a) a.req.sub v).2 = rcOk →
      Gives (.hallStoreShareWrite src) s fun t => Answered t a rcOk [] ∧ t.obj a.req.acc a.req.sub = v) ∧
    (Writes s src .restoreDefaults a u 1 → Gives (.restoreDefaults src) s fun t => Answered t a rcOk [] ∧ t.flash.store = [] ∧ t.flash.domains = [] ∧
      t.flash.queue = [] ∧ t.obj 0x1020 0xB = 0)

/-- MODE gives a door its mode and takes it DOWN before it trains (R400); a laser module is prepared for removal or returned to service (R407); a group is defined and deleted (R437-R443); a shipment is cancelled (R493); DIVERGENCE and the coolant stop are cleared (R532, R552). -/
def Obligations.UnitRequests : Prop :=
  ∀ (s : State) (src : Src) (a : Ask) (u : State) (v : Nat),
    (Writes s src .mode a u v → u.obj a.req.acc 1 ≠ v → (v = 1 → 12 ≤ accWing a) → Gives (.mode src) s fun t => Answered t a rcOk [] ∧
      t.obj a.req.acc 1 = v ∧ t.obj a.req.acc 3 = (if v = 0 then dirOf (accWing a) else 0xFF) ∧ t.obj a.req.acc 4 = 0xFF ∧
      (t.obj a.req.acc 2 = 0 ∨ t.obj a.req.acc 2 = 1)) ∧
    (Writes s src .prepareRemoval a u v → let m := a.req.acc - 0x8200
      u.laserState (partner m) = 2 → (∀ d ∈ litDoors m, (u.door d).dark = false) →
      Gives (.prepareRemoval src) s fun t => Answered t a rcOk [] ∧ t.laserState m = 5 ∧ t.laserState (partner m) = 3 ∧ .laser m false ∈ t.out) ∧
    (Writes s src .returnToService a u v → let m := a.req.acc - 0x8200
      u.laserState m = 5 → (u.laser m).present = true →
      Gives (.returnToService src) s fun t => Answered t a rcOk [] ∧ t.laserState m = 1 ∧ (t.laser m).enabled = true ∧ .laser m true ∈ t.out) ∧
    (∀ t', Asks s src .groupDefine a u → u.blockCheck a.caller a.req.acc a.req.sub a.req.data.length = rcOk → a.req.last = true → a.req.offset = 0 →
      u.server.claims.find? (fun x => x.key == objKey a.req.acc a.req.sub) = none → u.defineGroup (accWing a) a.req.data = .ok t' →
      Gives (.groupDefine src) s fun t => Answered t a rcOk [] ∧
        t.group (groupOf (accWing a) a.req.data).1 = some (groupOf (accWing a) a.req.data).2) ∧
    (∀ g, Writes s src .groupDelete a u v → u.group v = some g → g.wing = accWing a → (∀ l ∈ u.coll.launches, l.group ≠ v) →
      Gives (.groupDelete src) s fun t => Answered t a rcOk [] ∧ t.group v = none ∧ ∀ r ∈ t.coll.runs, r.group ≠ v) ∧
    (∀ x, Writes s src .shipCancel a u v → u.ship.ships = [x] → x.st ≠ 3 → x.ship = v → u.ship.waiting = [] →
      (a.caller.fn.getD 0 ≠ 0 → x.wing + 1 = a.caller.fn.getD 0) →
      Gives (.shipCancel src) s fun t => Answered t a rcOk [] ∧ ∃ y, t.ship.ships = [y] ∧ y.session = x.session ∧ y.st = 3 ∧ y.status = shCancelled) ∧
    (Writes s src .divergence a u 1 → 50 ≤ u.power.within15 → Gives (.divergenceClear src) s fun t => Answered t a rcOk [] ∧ t.obj 0x4140 5 = 0) ∧
    (∀ highFor, Writes s src .coolant a u 1 → u.pins.coolantOk = true → 1000000 ≤ highFor →
      (∀ h, h < 8 → sext 16 (u.obj (0x4110 + h) 4) < sext 16 (u.obj 0x4200 1)) →
      Gives (.coolantCommand src highFor) s fun t => Answered t a rcOk [] ∧ t.obj 0x4200 4 = 0 ∧ t.power.coolStop = false ∧
        t.mem.selfRefresh = false)

/-- Firmware activation, its confirmation and its reversal (R581, R583, R608); preparation for removal and its cancellation (R584); orderly stops and resets (R594, R595); a written firmware slot is verified (R609); test access sets the seed lock and ends every session (R619). -/
def Obligations.ServiceRequests : Prop :=
  ∀ (s : State) (src : Src) (a : Ask) (u : State),
    (Writes s src .activate a u 1 → u.obj 0x5300 2 = 0 → u.slotPasses u.otherSlot = true → u.noRecovery = true →
      Gives (.activate src) s fun t => Answered t a rcOk [] ∧ t.obj 0x5300 2 = 1 ∧ t.cur.activating = 1) ∧
    (Writes s src .confirm a u 2 → u.obj 0x5300 2 = 2 → u.obj 0x1000 0xA ≤ 1 → Gives (.confirm src) s fun t => Answered t a rcOk [] ∧ t.obj 0x5300 2 = 0 ∧
      (t.slot u.activeSlot).confirmed = true ∧ (t.slot u.activeSlot).trial = false ∧ (t.slot u.otherSlot).confirmed = false ∧
      t.sec.rollback = max u.sec.rollback (min (u.slot u.activeSlot).svn 64) ∧ t.obj 0xB000 2 = t.sec.rollback) ∧
    (Writes s src .revert a u 3 → u.obj 0x5300 2 = 2 → Gives (.revert src) s fun t => Answered t a rcOk [] ∧ t.obj 0x5300 2 = 1 ∧ t.cur.activating = 2) ∧
    (Writes s src .removalPrepare a u 1 → (∀ w, w < 16 → u.wingState w ≠ 1 ∧ u.wingState w ≠ 2) → u.groupBusy = false → u.obj 0x5000 8 = 0 →
      u.obj 0xA100 3 = 0 → Gives (.removalPrepare src) s fun t => Answered t a rcOk [] ∧ t.obj 0x5000 8 = 2 ∧ t.cur.removing = true ∧
        t.cur.hallsStopped = true ∧ .courier none (.deviceMissing u.device) ∈ t.out) ∧
    (Writes s src .removalAfterStop a u 2 → (∀ w, w < 16 → u.wingState w ≠ 1 ∧ u.wingState w ≠ 2) → u.groupBusy = false → u.obj 0x5000 8 = 0 →
      u.obj 0xA100 3 = 0 → Gives (.removalAfterStop src) s fun t => Answered t a rcOk [] ∧ t.obj 0xA100 3 = 1 ∧ t.cur.stopKind = 3) ∧
    (Writes s src .removalCancel a u 3 → (∀ w, w < 16 → u.wingState w ≠ 1 ∧ u.wingState w ≠ 2) → u.groupBusy = false → u.obj 0x5000 8 = 2 →
      Gives (.removalCancel src) s fun t => Answered t a rcOk [] ∧ t.obj 0x5000 8 = 0 ∧ t.cur.removing = false ∧
        .courier none (.restored u.device none) ∈ t.out) ∧
    (∀ v, Writes s src .stopTest a u v → u.groupBusy = false → u.obj 0xA100 3 = 0 →
      Gives (.stopWithSelfTest src) s fun t => Answered t a rcOk [] ∧ t.obj 0xA100 3 = 1 ∧ t.cur.stopKind = 1 ∧ t.flash.queue = [] ∧
        t.cur.stopBeat = u.beatNo) ∧
    (∀ v, Writes s src .stopPlain a u v → u.groupBusy = false → u.obj 0xA100 3 = 0 →
      Gives (.stopWithoutSelfTest src) s fun t => Answered t a rcOk [] ∧ t.obj 0xA100 3 = 1 ∧ t.cur.stopKind = 2 ∧ t.flash.queue = [] ∧
        t.cur.stopBeat = u.beatNo) ∧
    (Writes s src .reset a u 1 → Gives (.reset src) s fun t => t.pins.startFlag = true ∧ t.pins.resetN = u.pins.resetN ∧ t.work = {} ∧ t.coll = {} ∧
      t.ship = {} ∧ t.host = {} ∧ t.sec.rollback = u.sec.rollback ∧ t.sec.revoked = u.sec.revoked) ∧
    (Asks s src .slotWrite a u → u.blockCheck a.caller a.req.acc a.req.sub a.req.data.length = rcOk → a.req.last = true → a.req.offset = 0 →
      u.server.claims.find? (fun x => x.key == objKey a.req.acc a.req.sub) = none → u.obj 0x1000 0xA ≤ 1 → u.obj 0xA000 1 ≠ 0x0F →
      Gives (.slotWrite src) s fun t => Answered t a rcOk [] ∧ t.slot u.otherSlot = u.verifyImage a.req.data) ∧
    (Writes s src .debugOpen a u 1 → u.debugRefused = false → Gives (.debugOpen src) s fun t =>
      t.sec.debug = true ∧ t.sec.seedLock = true ∧ t.server.sessions = [] ∧ t.server.half = [] ∧ t.obj 0xB000 1 = 1)

/-- The server's timers: a half-open session, an idle session, a claim and a forwarded request end (R33, R39, R57, R58). A request carried from the anchor is served with its function's view and answered to the anchor; one with a view that is not its wing's is dropped and counted (R36, R616). -/
def Obligations.ServerTimersAndForwards : Prop :=
  ∀ s : State,
    (∀ id, Gives (.halfOpenTimeout id) s fun t => t = { s with server := t.server } ∧ (∀ h ∈ t.server.half, h.id ≠ id) ∧
      ∀ h ∈ s.server.half, h.id ≠ id → h ∈ t.server.half) ∧
    (∀ id, Gives (.sessionIdleTimeout id) s fun t => ∀ x ∈ t.server.sessions, x.id ≠ id) ∧
    (∀ key, Gives (.domainClaimExpiry key) s fun t => t = { s with server := t.server } ∧ (∀ c ∈ t.server.claims, c.key ≠ key) ∧
      ∀ c ∈ s.server.claims, c.key ≠ key → c ∈ t.server.claims) ∧
    (∀ fn, (∃ e ∈ s.server.forwards, e.1 = fn) → (s.window fn).busy = true → Gives (.catalogueForwardTimeout fn) s fun t =>
      (∀ e ∈ t.server.forwards, e.1 ≠ fn) ∧ (t.window fn).busy = false ∧ (t.window fn).done = true ∧ (t.window fn).result = 0x09) ∧
    (∀ source wing view r o highFor, s.acceptsView source wing view = true → s.paused = false → s.obj 0xA000 1 ≠ 0x0F → r.length ≤ 32768 →
      r.data.length ≤ 32768 → r.op = 1 → r.describe = false → r.snapshot = false → ¬(r.acc = 0x1022 ∧ r.sub = 2) →
      (torusCaller view).look r.acc r.sub = .ok o → o.hidden = false → cycleAcc r.acc = false → s.turn s.torusOrder = true →
      Gives (.catalogueForward source wing view r highFor) s fun t => let u := s.unawait (.torus source wing view r)
        t = { u with out := s.out ++ [.result source (.catalogue (fnOfView view) 0 ((u.valueBytes (torusCaller view) o r.acc r.sub).take r.length))] }) ∧
    (∀ source wing view r highFor, s.acceptsView source wing view = false → Gives (.catalogueForward source wing view r highFor) s fun t =>
      Counted s t 0xB000 6 1 ∧ t.server.sessions.length = s.server.sessions.length) ∧
    (∀ source fn code data, s.server.forwards.contains (fn, source) = true → (s.window fn).busy = true →
      Gives (.forwardResult source (.catalogue fn code data)) s fun t => (∀ e ∈ t.server.forwards, e.1 ≠ fn) ∧ (t.window fn).busy = false ∧
        (t.window fn).result = code ∧ (t.window fn).returned = min (s.window fn).request.length data.length) ∧
    (∀ source fn status data, Gives (.forwardResult source (.bar4 fn status data)) s fun t =>
      t = { s with out := s.out ++ [.bar4 fn status data] }) ∧
    (∀ source wing view address data, s.acceptsView source wing view = true → Gives (.jobDistribution source wing view 3 address data) s fun t =>
      t.image wing (leAt data 0 4) = none ∧
        .result source (.command wing 3 0) ∈ t.out) ∧
    (∀ source wing view address data, s.acceptsView source wing view = true → let r := s.loadHere wing (leAt data 0 4) address (leAt data 4 4)
      Gives (.jobDistribution source wing view 2 address data) s fun t => .result source (.image wing (leAt data 0 4) r.2) ∈ t.out ∧
        (r.2 = true → (t.image wing (leAt data 0 4)).isSome)) ∧
    (∀ source wing view address data, s.acceptsView source wing view = true → let r := s.barReach (fnOfView view) 0 address
      r.2 < r.1 + leAt data 0 4 → Gives (.jobDistribution source wing view 0x10 address data) s fun t =>
        t = { s with out := s.out ++ [.result source (.bar4 (fnOfView view) 1 [])] })

/-- A write to a Catalogue window sets its registers; CAT_ID names the window and its layout; a GO makes the window busy, and one of an operation that the Catalogue does not have ends with ACCESS (R42, R43); the configuration's Bus Master Enable follows bit 2 (log entry 19 for its place); a flash write ends what it wrote (R30); solicitations for the device's address are answered, other frames are not, and an address that is another node's is not used (R49). -/
def Obligations.RegistersAndFlash : Prop :=
  ∀ s : State,
    (∀ fn offset data, s.fnActive fn = true → data ≠ [] → Gives (.registerWrite fn 0 offset data) s fun t => t = { s with server := t.server } ∧
      t.window fn = (s.window fn).hostWrite offset data ∧ ∀ g, g ≠ fn → t.window g = s.window g) ∧
    (∀ fn data, Gives (.registerWrite fn 6 4 data) s fun t => t = { s with host := t.host } ∧
      mget 0 t.host.busMaster fn = b2n (bitOf (leNat data) 2)) ∧
    (∀ fn, s.fnActive fn = true → (s.window fn).busy = false → ([1, 2, 3, 4, 6].contains (bits (s.window fn).req 7 0) || s.paused) = true →
      Gives (.catDoorbellGo fn) s fun t => t = { s with server := t.server } ∧ (t.window fn).busy = true ∧ (t.window fn).done = false) ∧
    (∀ fn, s.fnActive fn = true → (s.window fn).busy = false → [1, 2, 3, 4, 6].contains (bits (s.window fn).req 7 0) = false → s.paused = false →
      Gives (.catDoorbellGo fn) s fun t => t = { s with server := t.server } ∧ (t.window fn).busy = false ∧ (t.window fn).done = true ∧
        (t.window fn).result = rcAccess) ∧
    (∀ fn, s.fnActive fn = true → (s.window fn).busy = true → Gives (.catDoorbellGo fn) s fun t => t = s) ∧
    (∀ fn, (s.window fn).register 0 % 2 ^ 16 = 0x4354 ∧ (s.window fn).register 0 / 2 ^ 16 = 0x0400) ∧
    (∀ key v, s.flash.queue.find? (fun e => e.1 == key) = some (key, v) → Gives (.persistWriteComplete key) s fun t =>
      (∀ e ∈ t.flash.queue, e.1 ≠ key) ∧ mget 0 t.flash.store key = v + 1 ∧
        (t.obj 0x1020 0xB = 0 ↔ t.flash.queue = []) ∧ ∀ k, k ≠ key → mget 0 t.flash.store k = mget 0 s.flash.store k) ∧
    (∀ frame p r, s.fieldIface.accept frame = some p → s.fieldIface.icmp false p = some r → s.server.duplicate = false →
      (s.server.tentative = true → p.claims (s.fieldIface.addrs.headD noAddress) = false) →
      Gives (.fieldNetworkNeighbourDiscovery frame) s fun t =>
        t = { s with out := s.out ++ [.field r], server := { s.server with tentative := false } }) ∧
    (∀ frame p, s.fieldIface.accept frame = some p → s.server.duplicate = false → s.server.tentative = true →
      p.claims (s.fieldIface.addrs.headD noAddress) = true →
      Gives (.fieldNetworkNeighbourDiscovery frame) s fun t => t = { s with server := { s.server with tentative := false, duplicate := true } }) ∧
    (∀ frame, s.fieldIface.accept frame = none → Gives (.fieldNetworkNeighbourDiscovery frame) s fun t => t = s)

/-! ### Attestation and firmware -/

namespace Sys2Proof.Claims

/-- What SPDM requests answer with: response code, what the body holds, whether it is signed (R520, R604, R605, R610, R611). -/
def spdmRows (s : State) : List ((Nat → List Byte → Instr) × Nat × List Byte × Bool) :=
  [(.getCapabilities, 0x61, [], false), (.negotiateAlgorithms, 0x63, ascii "ECDSA P-256 SHA-256", false), (.getDigests, 0x01, sha256 s.certChain, false),
   (.getCertificate, 0x02, s.certChain, false), (.challenge, 0x03, sha256 s.certChain ++ s.measurements.flatten, true),
   (.getMeasurements, 0x60, s.measurements.flatten, true)]

end Sys2Proof.Claims

/-- GET_VERSION starts the connection again; every further request of an accepted version is answered by its response code, on the mailbox at once and in a session for its READ_BLOCK, and CHALLENGE and GET_MEASUREMENTS are signed by the Alias key (R520, R604, R605, R610, R611). The bodies' layouts are SPDM's own: a free value of what they hold, and the layout of a DOE Discovery entry is the family's (log entry 145). -/
def Obligations.AttestationAnswers : Prop :=
  ∀ s : State,
    (∀ tr request c, s.spdmOf tr = some c → Gives (.getVersion tr request) s fun t => ∃ c', t.spdmOf tr = some c' ∧ c'.version = 0 ∧
      c'.capsDone = false ∧ c'.algsDone = false ∧ leAt c'.response 1 1 = 0x04 ∧ (tr = 0 → .spdm 0 c'.response ∈ t.out)) ∧
    (∀ e ∈ spdmRows s, ∀ tr request c, s.spdmOf tr = some c → (leAt request 0 1 = 0x11 ∨ leAt request 0 1 = 0x12) →
      Gives (e.1 tr request) s fun t => ∃ c' body sig st, t.spdmOf tr = some c' ∧ c'.response = leBytes 1 (leAt request 0 1) ++ leBytes 1 e.2.1 ++ body ++ sig ∧
        body = Config.spdmBody e.2.1 (Spdm.state st ++ request ++ e.2.2.1) ∧
        sig = (if e.2.2.2 then ecdsaSign s.sec.aliasKey (Config.freeRandom s.free) (request ++ body) else []) ∧
        (tr = 0 → .spdm 0 c'.response ∈ t.out) ∧ t.sec = s.sec ∧ t.cat = s.cat) ∧
    (∀ index, Gives (.doeDiscovery index) s fun t => t = { s with out := s.out ++ [.spdm 0
      (if index = 0 then [1, 0, 0, 1] else if index = 1 then [1, 0, 1, 0] else [0xFF, 0xFF, 0, 0])] })

/-- An activation ends with the services on the other slot's image, in trial until it is confirmed (R581, R583); without confirmation it goes back (R583). -/
def Obligations.ActivationEnds : Prop :=
  ∀ s : State,
    (s.obj 0x5300 2 = 2 → Gives .trialTimeExpiry s fun t => t.obj 0x5300 2 = 1 ∧ t.cur.activating = 3) ∧
    (s.obj 0x5300 2 = 1 → s.obj 0x1000 0xA ≤ 1 → s.cur.activating = 1 → Gives .firmwareActivationComplete s fun t =>
      t.obj 0x5300 2 = 2 ∧ t.obj 0x1000 0xA = s.otherSlot ∧ (t.slot s.otherSlot).trial = true ∧ t.cur.heldRecords = [] ∧ t.cur.activating = 0 ∧
        t.sec.digest = (s.slot s.otherSlot).digest) ∧
    (s.obj 0x5300 2 = 1 → s.obj 0x1000 0xA ≤ 1 → s.cur.activating ≠ 1 → Gives .firmwareActivationComplete s fun t =>
      t.obj 0x5300 2 = 0 ∧ t.obj 0x1000 0xA = s.otherSlot ∧ (t.slot s.activeSlot).trial = false ∧ t.cur.heldRecords = [])

/-! ### Memory on its own -/

/-- A waiting request is admitted when the bucket holds its bytes and it is first in the order of its beat, those that have lost 64 cycles in a row before the others (R248, R249, R365); its words cross the fabric between hall and stack, and one that is lost on the way fails the beat (R375, R376, R394); a full or due merge entry is written, with its sector read first where it does not cover it (R383, R384); the conservator reads sector after sector, corrects what it finds, and reports a lap that takes too long (R385, R386); the hall stores are read word by word and corrected words written back (R387). -/
def Obligations.MemoryEvents : Prop :=
  ∀ s : State,
    (∀ hall index waited x r, s.mem.waiting.find? (fun r => r.hall == hall && r.index == index) = some r → s.mem.selfRefresh = false →
      r.bytes ≤ s.level hall x.ns → arbFirst s.beatNo 42 (fun j => mget 0 s.mem.losses (hall * 64 + j)) (s.asking hall) index = true →
      x.parity = ⟨[], 0, 0, false⟩ → x.slips = [] → (∀ link channel, (s.mem.linkEnds link channel).1 = (s.mem.linkEnds link channel).2) →
      Gives (.hbmRequestAdmitted hall index waited x) s fun t => t.mem.waiting = s.mem.waiting.erase r ∧
        (waited ≠ 0 → Counted s t (0x7200 + hall) 3 waited) ∧ mget 0 t.mem.bucket hall = s.level hall x.ns - r.bytes + 1 ∧
        mget 0 t.mem.losses (hall * 64 + index) = 0 ∧ t.mem.cells = s.mem.cells ∧ t.cur = s.cur ∧ t.beat = s.beat ∧ t.work = s.work ∧
        ∀ link channel, (t.mem.linkEnds link channel).1 = (t.mem.linkEnds link channel).2) ∧
    (∀ hall index waited x r, s.mem.waiting.find? (fun r => r.hall == hall && r.index == index) = some r → s.mem.selfRefresh = false →
      r.bytes ≤ s.level hall x.ns → arbFirst s.beatNo 42 (fun j => mget 0 s.mem.losses (hall * 64 + j)) (s.asking hall) index = true →
      r.index ≠ 40 → r.write = false → fabricRoute (stackOf r.address) hall = [(stackOf r.address, hall)] → hall < 8 →
      x.parity = ⟨[], 0, 0, false⟩ → x.slips = [(0, 0, .lost)] → 8 < r.bytes → r.bytes ≤ 64 →
      (∀ link channel, (s.mem.linkEnds link channel).1 = (s.mem.linkEnds link channel).2) →
      Gives (.hbmRequestAdmitted hall index waited x) s fun t => Raised t 0x1C03 ∧ Counted s t (0xC1E0 + hall) 5 1 ∧ .fabric ∈ t.beat.checks) ∧
    (∀ stack sector, stackOf (64 * sector) = stack → s.mem.parts sector ≠ [] →
      s.mergeDue (s.allStill && s.work.engines.all (fun x => x.2.empty)) sector = true →
      (coversSector (s.mem.parts sector) = true ∨ Clean s [(64 * sector, 64)]) →
      Gives (.mergeEntryWrite stack sector) s fun t => t.mem.parts sector = [] ∧ t.work = s.work ∧
        (coversSector (s.mem.parts sector) = false → Counted s t (0xC1D0 + stack) 8 1) ∧
        ((∀ e ∈ s.mem.parts sector, e.owner = 0) → t.mem.cells = s.mem.cells ∧
          t.mem.writes = s.mem.writes ++ (s.mem.parts sector).flatMap (fun e => e.runs.map fun r => ⟨s.beat.attempt, 64 * sector + r.1, r.2⟩))) ∧
    (∀ stack elapsed p x, s.obj (0x7300 + stack) 1 ≠ 0 → s.mem.selfRefresh = false → p.upsets = [] →
      s.mem.nextWritten stack (max (mget 0 s.mem.scrubPos stack) (stack * stackSectors)) = some x →
      Gives (.scrubRead stack elapsed p) s fun t => mget 0 t.mem.scrubPos stack = x + 1 ∧ t.work = s.work ∧
        mget 0 t.mem.lapTime stack = mget 0 s.mem.lapTime stack + elapsed) ∧
    (∀ stack elapsed p, stack < 8 → s.obj (0x7300 + stack) 1 ≠ 0 → s.mem.selfRefresh = false → p.upsets = [] →
      s.mem.nextWritten stack (max (mget 0 s.mem.scrubPos stack) (stack * stackSectors)) = none →
      Gives (.scrubRead stack elapsed p) s fun t => mget 0 t.mem.scrubPos stack = 0 ∧ Counted s t (0x7300 + stack) 3 1 ∧
        t.obj (0x7300 + stack) 4 = (mget 0 s.mem.lapTime stack + elapsed) % 2 ^ 32 ∧ t.mem.cells = s.mem.cells) ∧
    (∀ stack seconds, s.obj (0x7300 + stack) 6 < seconds → s.mem.lapNoted.contains stack = false →
      Gives (.lapOverdue stack seconds) s fun t => stack ∈ t.mem.lapNoted ∧ Raised t 0x0C07) ∧
    (∀ hall p d syn, hall < 8 → p.upsets = [] → s.obj 0x5000 1 + 64 * s.obj 0x5000 2 ≤ usableBytes → let pos := mget 0 s.mem.storePos hall; let w := hallAddr hall / 8 + pos
      s.mem.unwritten w = false → s.mem.read w = .corrected d syn →
      Gives (.hallStoreScrubRead hall p) s fun t => t.mem.read w = .good d ∧ Counted s t (0xC1E0 + hall) 1 1 ∧ Raised t 0x0C03 ∧
        mget 0 t.mem.storePos hall = (pos + 1) % (hallSize / 8)) ∧
    (∀ hall p, p.upsets = [] → let pos := mget 0 s.mem.storePos hall; let w := hallAddr hall / 8 + pos
      (s.mem.unwritten w = true ∨ ∃ d, s.mem.read w = .good d) →
      Gives (.hallStoreScrubRead hall p) s fun t => t = { s with mem := { s.mem with storePos := t.mem.storePos }, power := t.power } ∧
        mget 0 t.mem.storePos hall = (pos + 1) % (hallSize / 8))

/-! ### Command queues, completions and the aperture -/

/-- A submission queue is enabled at its size with a completion queue that is, is disabled, and takes a doorbell's tail; a completion queue likewise; disabling one puts the submission queues that name it into the error state (R504, R505, R507, R510-R512). A doorbell writes what the function's merge entries hold first (R383). -/
def Obligations.QueuesConfigured : Prop :=
  ∀ (s : State) (fn wing q v : Nat), s.owns fn wing = true →
    ((s.sq wing q).enable = false → bits v 4 1 ≠ 0 → bits v 4 1 ≤ 8 → (s.cq wing (bits v 21 16)).enable = true →
      Gives (.sqEnable fn wing q v) s fun t => (t.sq wing q).enable = true ∧ (t.sq wing q).st = 1 ∧ (t.sq wing q).size = bits v 4 1 ∧
        (t.sq wing q).cq = bits v 21 16 ∧ (t.sq wing q).head = 0 ∧ (t.sq wing q).tail = 0) ∧
    ((s.sq wing q).enable = false → (bits v 4 1 = 0 ∨ 8 < bits v 4 1) →
      Gives (.sqEnable fn wing q v) s fun t => (t.sq wing q).st = 2 ∧ (t.sq wing q).cause = 1) ∧
    ((s.sq wing q).enable = true → Gives (.sqDisable fn wing q v) s fun t => (t.sq wing q).enable = false ∧ (t.sq wing q).st = 0 ∧
      (t.sq wing q).size = (s.sq wing q).size) ∧
    ((s.cq wing q).enable = false → bits v 4 1 ≠ 0 → bits v 4 1 ≤ 12 → s.vectorOk wing (bits v 26 16) = true → (s.cq wing q).base % 4096 = 0 →
      Gives (.cqEnable fn wing q v) s fun t => (t.cq wing q).enable = true ∧ (t.cq wing q).tail = 0 ∧ (t.cq wing q).head = 0 ∧ (t.cq wing q).phase = true ∧
        (t.cq wing q).size = bits v 4 1 ∧ (t.cq wing q).vector = bits v 26 16) ∧
    ((s.cq wing q).enable = true → Gives (.cqDisable fn wing q v) s fun t => (t.cq wing q).enable = false ∧
      ∀ i, i < 64 → ((s.sq wing i).enable = true → (s.sq wing i).cq = q → (t.sq wing i).st = 2 ∧ (t.sq wing i).cause = 5) ∧
        ((s.sq wing i).enable = false ∨ (s.sq wing i).cq ≠ q → t.sq wing i = s.sq wing i)) ∧
    ((s.sq wing q).enable = true → v < 2 ^ (s.sq wing q).size → (s.sq wing q).st ≠ 2 →
      Gives (.sqTail fn wing q v) s fun t => (t.sq wing q).tail = v ∧ (t.sq wing q).head = (s.sq wing q).head ∧ t.host.bells = s.host.bells + 1 ∧
        ∀ e ∈ t.mem.merges, e.owner ≠ fn + 1) ∧
    ((s.sq wing q).enable = true → 2 ^ (s.sq wing q).size ≤ v → Gives (.sqTail fn wing q v) s fun t => (t.sq wing q).st = 2 ∧ (t.sq wing q).cause = 4) ∧
    ((s.cq wing q).enable = true → v < 2 ^ (s.cq wing q).size → Gives (.cqHead fn wing q v) s fun t => (t.cq wing q).head = v ∧
      (t.cq wing q).tail = (s.cq wing q).tail ∧ ∀ e ∈ t.mem.merges, e.owner ≠ fn + 1) ∧
    (Gives (.aperture fn wing v) s fun t => t = { s with host := t.host } ∧ mget 0 t.host.aperture fn = v % 2 ^ 64 ∧
      ∀ g, g ≠ fn → mget 0 t.host.aperture g = mget 0 s.host.aperture g)

/-- A waiting completion is written to its queue in host memory with the phase of the pass, and the phase turns at the end of the queue; a full queue waits; interrupts go out by the queue's count and time, and a masked one once it is unmasked (R508, R510, R519). -/
def Obligations.CompletionsWritten : Prop :=
  ∀ (s : State) (wing q : Nat),
    (∀ e rest, (s.cq wing q).waiting = e :: rest → (s.cq wing q).enable = true → mget 0 s.host.busMaster (s.fnOf wing) ≠ 0 →
      (s.cq wing q).isFull = false → Gives (.completionWrite wing q) s fun t => (t.cq wing q).waiting = rest ∧
        (t.cq wing q).tail = ((s.cq wing q).tail + 1) % 2 ^ (s.cq wing q).size ∧
        ((t.cq wing q).phase = (s.cq wing q).phase ↔ (s.cq wing q).tail + 1 ≠ 2 ^ (s.cq wing q).size) ∧
        .hostWrite (s.fnOf wing) ((s.cq wing q).base + 64 * (s.cq wing q).tail)
          (leBytes 64 (e + b2n (s.cq wing q).phase * 2 ^ 40 + ((s.sq wing (bits e 37 32)).head % 2 ^ 16) * 2 ^ 48)) ∈ t.out) ∧
    (∀ e rest, (s.cq wing q).waiting = e :: rest → (s.cq wing q).enable = true → mget 0 s.host.busMaster (s.fnOf wing) ≠ 0 →
      (s.cq wing q).isFull = true → (s.cq wing q).fullWait = false → Gives (.completionWrite wing q) s fun t =>
        (t.cq wing q).fullWait = true ∧ (t.cq wing q).waiting = e :: rest ∧ Counted s t 0xC260 4 1 ∧ t.out = s.out) ∧
    ((s.cq wing q).unsignalled ≠ 0 → (s.cq wing q).time ≠ 0 → mget 0 s.host.busMaster (s.fnOf wing) ≠ 0 →
      s.vectorMasked (s.fnOf wing) (s.cq wing q).vector = false → Gives (.coalesceTimer wing q) s fun t =>
        (t.cq wing q).unsignalled = 0 ∧ t.out = s.out ++ [s.message (s.fnOf wing) (s.cq wing q).vector]) ∧
    (∀ fn v, mget 0 s.host.pendingMsi (fn * 4096 + v) = 1 → mget 0 s.host.busMaster fn ≠ 0 → Gives (.msixUnmask fn v) s fun t =>
      t.out = s.out ++ [s.message fn v] ∧ t.vectorMasked fn v = false ∧ mget 0 t.host.pendingMsi (fn * 4096 + v) = 0)

/-- A queue's next entry is taken and its command begins: a NOP completes, a RUN_JOB waits for its acceptance, an image is loaded or withdrawn here and on every other package, a shipment is carried to every package; an entry the device does not accept completes BAD_ENTRY (R506-R508, R513, R514, R521, R522). -/
def Obligations.EntriesTaken : Prop :=
  ∀ (s : State) (wing q e : Nat), s.nextEntry wing q = some e →
    let p := (s.takeEntry wing q e).2
    let t0 := (s.takeEntry wing q e).1
    let cq := (s.sq wing q).cq
    let taken := fun (t : State) => (t.sq wing q).head = ((s.sq wing q).head + 1) % 2 ^ (s.sq wing q).size
    let posted := fun (t : State) (status : Nat) => ∃ c, (t.cq wing cq).waiting = (s.cq wing cq).waiting ++ [c] ∧ bits c 31 24 = status ∧ bits c 15 0 = bits e 31 16
    (entryKind e = 5 → s.entryBad wing e = false → Gives (.nop wing q) s fun t => taken t ∧ posted t 0) ∧
    (s.entryBad wing e = true → (entryKind e = 5 ∨ s.isAnchor = true) →
      ((entryKind e = 0 ∨ 5 ≤ entryKind e) → Gives (.nop wing q) s fun t => taken t ∧ posted t 1) ∧
      (entryKind e = 1 → Gives (.runJob wing q) s fun t => taken t ∧ posted t 1) ∧
      (entryKind e = 2 → Gives (.loadImage wing q) s fun t => taken t ∧ posted t 1) ∧
      (entryKind e = 3 → Gives (.unloadImage wing q) s fun t => taken t ∧ posted t 1) ∧
      (entryKind e = 4 → Gives (.ship wing q) s fun t => taken t ∧ posted t 1)) ∧
    (entryKind e ≠ 5 → s.isAnchor = false →
      (entryKind e = 1 → Gives (.runJob wing q) s fun t => taken t ∧ posted t 2) ∧
      (entryKind e = 2 → Gives (.loadImage wing q) s fun t => taken t ∧ posted t 2) ∧
      (entryKind e = 3 → Gives (.unloadImage wing q) s fun t => taken t ∧ posted t 2) ∧
      (entryKind e = 4 → Gives (.ship wing q) s fun t => taken t ∧ posted t 2)) ∧
    (s.isAnchor = true → s.entryBad wing e = false →
      (entryKind e = 1 → Gives (.runJob wing q) s fun t => taken t ∧ (t.wing wing).waiting = (s.wing wing).waiting ++ [p] ∧
        (wing < 16 → t.obj (0x3100 + wing) 1 ≠ 0)) ∧
      (entryKind e = 2 → (t0.loadHere wing (entryImage e) (entryAddress e) (entryLength e)).2 = true → Gives (.loadImage wing q) s fun t => taken t ∧
        (t.image wing (entryImage e)).isSome ∧ (s.others = [] → posted t 0) ∧
        (∀ d ∈ s.others, .distribute d wing (viewOf (s.fnOf wing)) 2 (entryAddress e) p.data ∈ t.out) ∧
        (s.others ≠ [] → { p with acks := s.others } ∈ (t.wing wing).commands)) ∧
      (entryKind e = 2 → (t0.loadHere wing (entryImage e) (entryAddress e) (entryLength e)).2 = false → Gives (.loadImage wing q) s fun t => taken t ∧ posted t 4) ∧
      (entryKind e = 3 → t0.imageInUse wing (entryImage e) = false → Gives (.unloadImage wing q) s fun t => taken t ∧ t.image wing (entryImage e) = none ∧
        (s.others = [] → posted t 0) ∧ (s.others ≠ [] → { p with acks := s.others } ∈ (t.wing wing).commands)) ∧
      (entryKind e = 3 → t0.imageInUse wing (entryImage e) = true → Gives (.unloadImage wing q) s fun t => taken t ∧ posted t 5 ∧ t.work = s.work) ∧
      (entryKind e = 4 → Gives (.ship wing q) s fun t => taken t ∧
        ∀ d ∈ s.others, .distribute d wing (viewOf (s.fnOf wing)) 4 (entryAddress e) p.data ∈ t.out))

/-- The anchor accepts the first waiting job of a running wing that has none, for the beat JOB_START_LEAD ahead, and every package hears of it (R231, R232); a package that takes a job start clears the wing's remote flags and either has the job or a fatal wing (R212, R222, R252). -/
def Obligations.JobsAccepted : Prop :=
  ∀ (s : State) (wing : Nat), wing < 16 →
    (∀ p, (s.wing wing).nextJob = some p → s.isAnchor = true → s.wingState wing = 1 → (s.wing wing).job = none → (s.wing wing).running = none →
      (∀ i, s.image wing (s.rdNat p.address 4) = some i → s.jobFits wing i = true) →
      Gives (.jobAccept wing) s fun t => (t.wing wing).running = some p ∧ p ∉ (t.wing wing).waiting ∧ t.obj (0x3100 + wing) 1 = 2 ∧
        .courier none (.jobStart wing ((s.beatNo + s.obj 0x6010 1) % 2 ^ 48) (s.rdNat p.address 4) p.address) ∈ t.out) ∧
    (∀ start image record, s.wingState wing = 1 → (s.wing wing).job = none →
      Gives (.jobStart wing start image record) s fun t => t.obj (0x3100 + wing) 3 = start % 2 ^ 48 ∧
        (∀ f, f < 64 → mget 0 t.work.remote (wing * 64 + f) = 0) ∧
        ((∃ j, (t.wing wing).job = some j ∧ j.start = start ∧ j.record = record) ∨ (t.wing wing).fatal ≠ none))

/-- A BAR4 read of a range that the function reaches answers with what memory delivers, one beyond it with Unsupported Request; a write is taken as it stands, and leaves every other byte; one that reaches a folio pool or is poisoned is dropped and counted, a poisoned one reported through AER (R499, R515-R518). -/
def Obligations.HostReachesMemory : Prop :=
  ∀ (s : State) (fn a : Nat), s.fnActive fn = true → s.remoteTarget (mget 0 s.host.aperture fn) = none →
    let r := s.barReach fn (mget 0 s.host.aperture fn) a
    (∀ n p, p.upsets = [] → p.failed = false → r.1 + n ≤ r.2 → Clean s [(r.1, n)] → Gives (.bar4Read fn a n p) s fun t =>
      t.out = s.out ++ [.bar4 fn 0 (s.mem.deliverRange r.1 n)] ∧ t.mem = s.mem) ∧
    (∀ n p, r.2 < r.1 + n → Gives (.bar4Read fn a n p) s fun t => t = { s with out := s.out ++ [.bar4 fn 1 []] }) ∧
    (∀ data, r.1 + data.length ≤ r.2 → r.1 + data.length ≤ usableBytes → s.inPool r.1 data.length = false → s.mem.merges = [] →
      Gives (.bar4Write fn a data false) s fun t => t.mem.deliverRange r.1 data.length = data ∧ SameMemory s t [(r.1, data.length)]) ∧
    (∀ data, r.1 + data.length ≤ r.2 → s.inPool r.1 data.length = true → s.obj 0x5000 1 % 64 = 0 → Gives (.bar4Write fn a data false) s fun t =>
      Counted s t 0xC260 2 1 ∧ Raised t 0x0201 ∧ SameMemory s t [(s.obj 0x5000 1, 64 * s.obj 0x5000 2)]) ∧
    (∀ data, Gives (.bar4Write fn a data true) s fun t => Counted s t 0xC260 3 1 ∧ t.mem = s.mem ∧ .aer fn ∈ t.out)

/-- A reset of a function disables its wings' queues, discards what waits in them and stops the wings (R523); clearing VF Enable and a hot reset reach every function, and the beat and the torus go on (R15, R501, R523). -/
def Obligations.FunctionsReset : Prop :=
  ∀ s : State,
    (∀ fn wing, s.fnActive fn = true → wing ∈ s.resetWings fn → wing < 16 → Gives (.flr fn) s fun t =>
      (∀ q, q < 64 → (t.sq wing q).enable = false ∧ (t.cq wing q).enable = false ∧ (t.cq wing q).waiting = []) ∧
      (t.wing wing).waiting = [] ∧ (t.wing wing).running = none ∧ t.wingState wing ≠ 1 ∧ mget 0 t.host.aperture fn = 0 ∧ t.torus = s.torus) ∧
    (∀ fn, 1 ≤ fn → fn ≤ 16 → s.host.vfEnable = true → Gives (.vfEnableClear fn) s fun t => t.host.vfEnable = false ∧ t.torus = s.torus ∧
      ∀ w, w < 16 → s.vfActive w = true → ∀ q, q < 64 → (t.sq w q).enable = false ∧ (t.cq w q).waiting = []) ∧
    (Gives .hotReset s fun t => t.host.busMaster = [] ∧ t.host.vfEnable = false ∧ t.host.vectors = [] ∧ t.obj 0x1040 1 = 0 ∧ t.torus = s.torus ∧
      t.beat = s.beat ∧ t.mem = s.mem)

/-! ### Doors, lanes and lasers -/

namespace Sys2Proof.Claims

/-- The training commands and the state each ends (R409). -/
def trainRows : List (Nat × (Nat → Nat → Instr)) := [(1, .doorDetectDone), (2, .doorSignalLocked), (3, .doorAlignDone)]

/-- The far end of a door names itself, its shape and a version that both accept (R410, R411). -/
def Matches (s : State) (d : Nat) (flit : List Byte) (v : Nat) : Prop :=
  settleVersion (s.obj 0x1010 1) (s.obj 0x1011 1) (leAt flit 8 2) (leAt flit 10 2) = some v ∧
    leAt flit 12 1 = s.neighbourOf s.device (dirOf d) ∧ leAt flit 13 1 = s.torusX % 16 + 16 * (s.torusY % 16) ∧ leAt flit 14 1 = pairedDoor d

end Sys2Proof.Claims

/-- A torus door trains in the six states of R409: each of the first three ends with seven lanes or more, NEGOTIATE compares both ends and ends MISWIRED where they do not match (R410-R412), CREDIT ends UP on eight lanes or fewer and restores the link to the maps (R419, R431); a step that takes too long goes DOWN with its record, and a door that is DOWN trains again. -/
def Obligations.DoorsTrain : Prop :=
  ∀ (s : State) (d : Nat), d < 16 →
    (∀ e ∈ trainRows, ∀ lanes, s.doorState d = e.1 →
      (7 ≤ popcount 9 (s.goodLanes d lanes) → s.mayTrain d = true → Gives (e.2 d lanes) s fun t =>
        t.doorState d = e.1 + 1 ∧ (t.door d).locked = s.goodLanes d lanes ∧
          (e.1 = 3 → ∃ f, .flit d f ∈ t.out ∧ slice f 8 8 = t.negotiation d)) ∧
      (popcount 9 (s.goodLanes d lanes) < 7 → Gives (e.2 d lanes) s fun t => t = s)) ∧
    (∀ flit v, s.doorState d = 4 → flitGood flit = true → flitBits flit 18 17 = 2 → Matches s d flit v →
      Gives (.linkControlFlit d flit) s fun t => t.doorState d = 5 ∧ t.obj (0x8000 + d) 5 = v ∧ t.obj (0x8000 + d) 4 = leAt flit 12 1 ∧
        (t.door d).credits = [32, 48, 48, 32, 64]) ∧
    (∀ flit, s.doorState d = 4 → flitGood flit = true → flitBits flit 18 17 = 2 → (∀ v, ¬Matches s d flit v) →
      Gives (.linkControlFlit d flit) s fun t => t.doorState d = 7 ∧ Raised t 0x0D02) ∧
    (s.doorState d = 5 → Gives (.doorCreditReceived d) s fun t => t.doorState d = 6 ∧
      t.obj (0x8000 + d) 6 = (if (s.door d).locked = 511 then 255 else (s.door d).locked) ∧ t.obj (0x8000 + d) 7 = 511 - (s.door d).locked ∧
        (t.door d).spare = decide ((s.door d).locked = 511) ∧ t.present (s.neighbourOf s.device (dirOf d)) = true ∧
          t.linkBit (s.linkOf (dirOf d)).1 (s.linkOf (dirOf d)).2 = false) ∧
    (1 ≤ s.doorState d → s.doorState d ≤ 5 → Gives (.doorTrainingFailed d) s fun t => t.doorState d = 0 ∧ Raised t 0x0D01) ∧
    (s.doorState d = 0 → s.mayTrain d = true → Gives (.doorRetrain d) s fun t => t.doorState d = 1 ∧ t.obj (0x8000 + d) 6 = 0 ∧
      t.obj (0x8000 + d) 7 = 0 ∧ t.obj (0x8000 + d) 4 = 0xFF ∧ Counted s t (0xC200 + d) 7 1 ∧ (t.door d).window = [] ∧
        (t.door d).queue = (s.door d).queue)

/-- The link layer: an expected good flit is accepted, a bad or an unexpected one is answered with NAK, an acknowledgement frees the flits up to it; a timeout resends every flit that waits (R417). A door that loses its link goes down and gives what it has not had acknowledged to another of its bundle, or the link is cut (R420, R431). A lane that fails is left out, L8 takes its place, and below seven lanes the door goes down (R418, R419). -/
def Obligations.LinksHold : Prop :=
  ∀ (s : State) (d : Nat), d < 16 → s.doorState d = 6 →
    (∀ flit fixed lost, flitGood flit = false → Gives (.flitReceived d flit fixed lost) s fun t => (t.door d).nak = true ∧
      (t.door d).expect = (s.door d).expect ∧ (t.door d).window = (s.door d).window ∧ t.torus.inputs = s.torus.inputs ∧ Counted s t (0xC200 + d) 3 1) ∧
    (∀ flit, flitGood flit = true → flitBits flit 18 17 = 1 → flitBits flit 7 0 = (s.door d).expect → flitBits flit 22 22 = 1 → flitFrames flit = [] →
      (∀ e, s.hasJoin e (flitBits flit 46 35) = false) → Gives (.flitReceived d flit 0 0) s fun t => (t.door d).expect = ((s.door d).expect + 1) % 256 ∧
        (t.door d).nak = false ∧ Counted s t (0xC200 + d) 2 1 ∧ t.hasJoin d (flitBits flit 46 35) = true ∧
          mget [] t.torus.inputs (d * 8 + flitBits flit 21 19) = mget [] s.torus.inputs (d * 8 + flitBits flit 21 19) ++ [flitOf flit]) ∧
    (∀ flit, flitGood flit = true → (flitBits flit 18 17 = 1 ∨ flitBits flit 18 17 = 3) → flitBits flit 7 0 ≠ (s.door d).expect →
      Gives (.flitReceived d flit 0 0) s fun t => (t.door d).nak = true ∧ (t.door d).expect = (s.door d).expect ∧ t.torus.inputs = s.torus.inputs) ∧
    (∀ flit i, flitGood flit = true → flitBits flit 18 17 = 0 → flitBits flit 16 16 = 0 → (s.door d).queue = [] →
      (s.door d).window.findIdx? (fun e => e.1 == flitBits flit 15 8) = some i →
      Gives (.flitReceived d flit 0 0) s fun t => (t.door d).window = (s.door d).window.drop (i + 1) ∧
        (t.door d).credits = bump (s.door d).credits (flitBits flit 28 26) (flitBits flit 34 29)) ∧
    ((s.door d).window ≠ [] → Gives (.resendTimeout d) s fun t => (t.door d).window = (s.door d).window.map (fun e => (e.1, e.2.1, e.2.2 + 1)) ∧
      Counted s t (0xC200 + d) 4 (s.door d).window.length ∧ t.doorState d = 6) ∧
    (∀ cause, (cause = 0 → (s.door d).window ≠ []) → (cause = 1 → ∃ e ∈ (s.door d).window, 8 ≤ e.2.2) →
      Gives (.doorDown d cause) s fun t => t.doorState d = (if s.mayTrain d then 1 else 0) ∧
        ((∃ o ∈ s.bundle (dirOf d), o ≠ d ∧ s.doorState o = 6) → (t.door d).window = [] ∧ (t.door d).queue = []) ∧
        ((∀ o ∈ s.bundle (dirOf d), o ≠ d → s.doorState o ≠ 6) → t.linkBit (s.linkOf (dirOf d)).1 (s.linkOf (dirOf d)).2 = true ∧
          (t.door d).queue = (s.door d).window.map (fun e => e.2.1) ++ (s.door d).queue)) ∧
    (∀ lane ratio, ratio ≤ s.obj (0x8000 + d) 15 → Gives (.laneFailure d lane (.errors ratio)) s fun t => t = s) ∧
    (∀ lane cause, lane < 9 → cause.fails (s.obj (0x8000 + d) 15) = true → bitOf (s.obj (0x8000 + d) 7) lane = false → s.obj (0x8000 + d) 5 ≠ 0x0100 →
      Gives (.laneFailure d lane cause) s fun t =>
        (7 ≤ 9 - popcount 9 (s.obj (0x8000 + d) 7 + 2 ^ lane) → t.doorState d = 6 ∧ t.obj (0x8000 + d) 7 = s.obj (0x8000 + d) 7 + 2 ^ lane ∧
          ((s.door d).spare = false → Raised t 0x2D02) ∧ ((s.door d).spare = true → lane = 8 → (t.door d).spare = false)) ∧
        (9 - popcount 9 (s.obj (0x8000 + d) 7 + 2 ^ lane) < 7 → t.doorState d ≠ 6)) ∧
    (∀ lane cause, lane < 8 → (s.door d).spare = true → bitOf (s.obj (0x8000 + d) 7) lane = true →
      Gives (.laneSpared d lane cause) s fun t => (t.door d).spare = false ∧ t.doorState d = 6 ∧ Raised t 0x2D01)

/-- A laser module is seated, enabled a second later, and shares the light once it is in range; with a module lost its partner gives the light alone, and with both lost every door of theirs goes down, one that trains and an Ethernet door too (R405-R408). -/
def Obligations.LasersShare : Prop :=
  ∀ (s : State) (m : Nat), m < 4 →
    ((s.laser m).present = false → Gives (.laserPresent m) s fun t => (t.laser m).present = true ∧ (t.laser m).enabled = false ∧ t.laserState m = 1 ∧
      ∀ k, k ≠ m → t.laser k = s.laser k) ∧
    ((s.laser m).present = true → (s.laser m).enabled = false → s.laserState m = 1 →
      Gives (.laserEnable m) s fun t => (t.laser m).enabled = true ∧ t.laserState m = 1 ∧ .laser m true ∈ t.out) ∧
    (∀ power temperature, (s.laser m).enabled = true → Gives (.laserOutputInRange m power temperature) s fun t =>
      t.obj (0x8200 + m) 3 = power % 65536 ∧ t.obj (0x8200 + m) 4 = temperature % 65536 ∧
        ((s.laserState (partner m) = 2 ∨ s.laserState (partner m) = 3) → t.laserState m = 2 ∧ t.laserState (partner m) = 2) ∧
        (s.laserState (partner m) ≠ 2 → s.laserState (partner m) ≠ 3 → t.laserState m = 3)) ∧
    (∀ removed, (s.laser m).present = true → (s.laserState m = 2 ∨ s.laserState m = 3) → Gives (.laserFeedLost m removed) s fun t =>
      t.laserState m = (if removed then 0 else 4) ∧ t.obj (0x8200 + m) 3 = 0 ∧
        ((s.laserState (partner m) = 2 ∨ s.laserState (partner m) = 3) → t.laserState (partner m) = 3 ∧ Raised t 0x2D04) ∧
        (s.laserState (partner m) ≠ 2 → s.laserState (partner m) ≠ 3 → ∀ d ∈ litDoors m,
          (s.obj (0x8000 + d) 1 ≠ 1 → 1 ≤ s.doorState d → s.doorState d ≤ 6 → t.doorState d = (if s.mayTrain d then 1 else 0)) ∧
          (s.obj (0x8000 + d) 1 = 1 → 12 ≤ d → t.ethUp (d - 12) = false)))

/-! ### The router and its maps -/

/-- A head flit at an input leaves by the door that routing names, under that door's own packet number and with the courier frames that ride in it, once it may move, and its packet holds the door until the tail; a courier frame that waits for a door at corridor 1.0 goes before it; one for this package is delivered, and fails the beat where its data was lost; one that no route reaches is discarded and counted with its record (R83, R415, R421-R425, R428, R432). -/
def Obligations.RouterForwards : Prop :=
  ∀ (s : State) (port channel : Nat) (f : Flit) (rest : List Flit), s.torus.forwarding = true → port < 16 → 1 ≤ channel → channel < 8 →
    mget [] s.torus.inputs (port * 8 + channel) = f :: rest → f.kind ≠ 3 → mget 0 s.torus.holds (port * 8 + channel) = 0 →
    let w := leAt f.bytes 0 4
    let route := s.headRoute port f
    let data := [1, 2, 6].contains (bits w 23 16)
    (s.mayMove port channel f = false → Gives (.routerForward port channel) s fun t => t = s) ∧
    (route = .deliver → Gives (.routerForward port channel) s fun t => mget [] t.torus.inputs (port * 8 + channel) = rest ∧
      mget 0 t.torus.holds (port * 8 + channel) = (if f.tail then 0 else if data then 2 ^ 31 else 2 ^ 30) ∧
      (data = true → f.lost = true → s.beat.committed = false → s.beat.dead = false → .inbound ∈ t.beat.checks)) ∧
    (route = .discard → Gives (.routerForward port channel) s fun t => mget [] t.torus.inputs (port * 8 + channel) = rest ∧
      mget 0 t.torus.holds (port * 8 + channel) = (if f.tail then 0 else 2 ^ 30) ∧ Counted s t 0xC210 2 1 ∧ Raised t 0x0D05) ∧
    (∀ dir vc detour d, route = .hop dir vc detour → s.outDoor dir = some d → s.mayMove port channel f = true →
      let frames := (s.riders d f).flatMap fun r => (s.frameOuts r.1 r.2).map fun o => s.frameOn r.2 o.1 o.2.1
      Gives (.routerForward port channel) s fun t => mget [] t.torus.inputs (port * 8 + channel) = rest ∧
        (t.door d).window = (s.door d).window ++ [((s.door d).seq, { f with vc := vc, packet := (s.door d).pktId, frames := frames, lost := false }, 0)] ∧
        (t.door d).pktId = ((s.door d).pktId + 1) % 4096 ∧ (t.door d).seq = ((s.door d).seq + 1) % 256 ∧ Counted s t 0xC210 3 1 ∧
          mget 0 t.torus.holds (port * 8 + channel) = if f.tail then 0 else 1 + d * 8 + vc + 256 * (s.door d).pktId) ∧
    (∀ dir vc detour d p x xs, route = .hop dir vc detour → s.outDoor dir = some d → vc ≠ 0 → s.obj (0x8000 + d) 5 = 0x0100 →
      mget [] s.torus.inputs (p * 8) = x :: xs → x.kind = 3 → s.wants p 0 x = [(d, 0)] → s.outputFree (p * 8) (d, 0) = true →
      Gives (.routerForward port channel) s fun t => t = s)

/-- The maps change by broadcast: a cut link, a missing device and a restored one or its link (R431); a neighbour that falls silent is announced; a wing whose job needs a lost package becomes fatal (R572), as does the wing of an F3 record announced from elsewhere, which is written here too (R567, R577). -/
def Obligations.MapsChange : Prop :=
  ∀ (s : State) (device : Nat),
    (∀ y, Gives (.linkCut device y) s fun t => t.linkBit device y = true ∧ t.obj 0x8100 1 = s.obj 0x8100 1) ∧
    (∀ y, Gives (.linkRestored device (some y)) s fun t => t.linkBit device y = false ∧ t.obj 0x8100 1 = s.obj 0x8100 1) ∧
    (Gives (.linkRestored device none) s fun t => t.present device = true ∧ (∀ k, k ≠ device → t.present k = s.present k) ∧
      t.obj 0x8100 2 = s.obj 0x8100 2) ∧
    (device ≠ s.device → s.present device = true → Gives (.deviceMissing device) s fun t => t.present device = false ∧
      (∀ k, k ≠ device → t.present k = s.present k) ∧ ∀ w, w < 16 → s.jobOn w device = true → (t.wing w).fatal ≠ none) ∧
    (∀ dir, let n := s.neighbourOf s.device dir
      n ≠ s.device → s.present n = true → Gives (.neighbourSilent dir) s fun t => t.present n = false ∧ .courier none (.deviceMissing n) ∈ t.out ∧
        ∀ w, w < 16 → s.jobOn w n = true → (t.wing w).fatal ≠ none) ∧
    (∀ record w, let r := ErrRec.ofBytes record
      classOf r.code = 3 → r.wing = some w → Gives (.errorRecordAnnouncement record) s fun t => Raised t r.code ∧ (t.wing w).fatal ≠ none ∧
        ((s.wing w).fatal = none → (t.wing w).fatal = some (r.code, r.device)))

/-! ### Export -/

namespace Sys2Proof.Claims

/-- A frame of a kind that names a live session. -/
def Hears (s : State) (kind : Nat) (f : List Byte) (x : Ship) : Prop := ailasOk kind f = true ∧ s.shipOf (afSession f) = some x

/-- A shipment's part has ended here with a status and holds its unacknowledged folios for release (R480, R492). -/
def Ended (t : State) (x : Ship) (status : Nat) : Prop :=
  ∃ y ∈ t.ship.ships, y.session = x.session ∧ y.st = 3 ∧ y.status = status ∧ y.todo = [] ∧ ∀ c ∈ x.chunks, c.acked = false → ∀ f ∈ c.folios, f ∈ y.release

/-- The only session there is. -/
def Only (s : State) (x : Ship) : Prop := s.ship.ships = [x] ∧ s.ship.waiting = []

end Sys2Proof.Claims

/-- The sender's side of a session: OPEN goes out again until its eighth time, an ACCEPT begins the sending or ends it, a chunk goes out within the credit and its reads ask at the hall's index 40 (R366), an ACK frees its folios and raises the credit, the timer doubles and resends or gives up while a door can carry the session, and CLOSE ends it (R485-R493). -/
def Obligations.SendersSession : Prop :=
  ∀ (s : State) (x : Ship), Only s x → x.st ≠ 3 →
    (x.st = 0 → x.opens < 8 → recTorus x.record = true → Gives (.openResend x.session) s fun t =>
      (∃ y, t.shipOf x.session = some y ∧ y.opens = x.opens + 1 ∧ y.st = 0) ∧
        ∀ p ∈ fragments x.frames (s.openFrame { x with opens := x.opens + 1 }), .packet (recDev x.record) x.wing 0x03 4 p ∈ t.out) ∧
    (x.st = 0 → 8 ≤ x.opens → Gives (.openResend x.session) s fun t => Ended t x 2) ∧
    (∀ f, Hears s 2 f x → x.st = 0 → beAt (afBody f) 0 1 = 0 → 0x0100 ≤ beAt (afBody f) 2 2 → beAt (afBody f) 2 2 ≤ 0x0102 →
      Gives (.accept f) s fun t => t = { s with ship := t.ship } ∧ ∃ y, t.shipOf x.session = some y ∧ y.st = 1 ∧ y.version = beAt (afBody f) 2 2 ∧
        y.formats = beAt (afBody f) 4 2 ∧ y.credit = (if beAt (afBody f) 2 2 = 0x0102 then beAt (afBody f) 8 4 else 256)) ∧
    (∀ f, Hears s 2 f x → x.st = 0 → beAt (afBody f) 0 1 ≠ 0 → Gives (.accept f) s fun t => Ended t x 3) ∧
    (∀ c, x.st = 1 → x.chunks.find? (fun k => k.number == c.number) = some c → c.sends = 0 → c.acked = false →
      c.number < (if x.version = 0x0102 then x.credit else x.cum + 256) → s.shipPaused x = false → recTorus x.record = true →
      (∀ g ∈ c.folios, bitOf x.formats (s.side g).format = true) → Clean s (c.folios.flatMap s.folioRead) →
      let body := c.folios.flatMap (s.shipEntry x.record)
      Gives (.chunkSend x.session c.number) s fun t => Counted s t 0xC250 1 1 ∧
        t.mem = ((c.folios.flatMap s.folioRead).foldl (fun u e => u.request (stackOf e.1) 40 false [e]) s).mem ∧
        (∃ y, t.shipOf x.session = some y ∧ ∃ k ∈ y.chunks, k.number = c.number ∧ k.sends = 1) ∧
        ∀ p ∈ fragments x.frames (ailasFrame x.version 3 x.session c.number c.folios.length 0 body ++ beBytes 8 (crc64 body)),
          .packet (recDev x.record) x.wing 0x03 4 p ∈ t.out) ∧
    (∀ f, Hears s 4 f x → x.st = 1 → x.cum ≤ afNumber f → x.version = 0x0102 → (∀ c ∈ x.chunks, c.later = 0) →
      (x.chunks.filter fun c => !c.acked).length < 3 → x.todo ≠ [] →
      Gives (.ack f) s fun t => ∃ y, t.shipOf x.session = some y ∧ y.cum = afNumber f ∧ y.credit = max x.credit (beAt (afBody f) 0 4) ∧
        ∀ c ∈ x.chunks, c.acked = false → ackMarks x.version (afNumber f) (afBody f) c.number = true → ∀ g ∈ c.folios, g ∈ y.release) ∧
    (x.st = 1 → (∃ c ∈ x.chunks, c.sends ≠ 0 ∧ c.acked = false) → x.expiries < 7 → recTorus x.record = true →
      Clean s ((x.folios fun _ => true).flatMap s.folioRead) →
      Gives (.retransmissionTimeout x.session) s fun t => t.mem = { s.mem with waiting := t.mem.waiting } ∧
        ∃ y, t.shipOf x.session = some y ∧ y.expiries = x.expiries + 1 ∧ y.rtx = min 8000 (2 * x.rtx) ∧ y.st = 1) ∧
    (x.st = 1 → (∃ c ∈ x.chunks, c.sends ≠ 0 ∧ c.acked = false) → 7 ≤ x.expiries → s.canSend x = true → Gives (.retransmissionTimeout x.session) s fun t => Ended t x 2) ∧
    (x.st = 2 → 4 ≤ x.closes → Gives (.retransmissionTimeout x.session) s fun t => Ended t x 0) ∧
    (x.st = 1 → (∃ c ∈ x.chunks, c.sends ≠ 0 ∧ c.acked = false) → s.canSend x = false → Gives (.retransmissionTimeout x.session) s fun t => t.ship = s.ship) ∧
    (s.canSend x = false → Gives (.noRoute x.session) s fun t => Ended t x 9) ∧
    (∀ f, Hears s 5 f x → Gives (.close f) s fun t => Ended t x 5) ∧
    (∀ f, Hears s 6 f x → x.st = 2 → Gives (.closeAck f) s fun t => Ended t x 0)

/-- The receiver's side: an OPEN that a waiting record names begins a session, one that none names is refused; a good chunk is held until the seal, one whose CRC differs is dropped and counted; fragments are kept until their frame is whole (R494, R495). -/
def Obligations.ReceiversSession : Prop :=
  ∀ (s : State) (source wing : Nat),
    (∀ frame e, ailasOk 1 frame = true → s.ship.recvs.find? (fun y => y.session == afSession frame && y.source == source) = none →
      s.ship.receives.find? (fun e => e.1 == wing && recDev e.2.1 == source && slice e.2.1 48 8 == slice (afBody frame) 8 8) = some e →
      max 0x0100 (beAt (afBody frame) 2 2) ≤ min (beAt (afBody frame) 0 2) 0x0102 → s.liveShips < 256 →
      Gives (.ailasOpen source wing frame) s fun t => t.ship.receives = s.ship.receives.filter (· != e) ∧
        (∃ y ∈ t.ship.recvs, y.session = afSession frame ∧ y.source = source ∧ y.wing = wing ∧ y.record = e.2.1 ∧
          y.version = min (beAt (afBody frame) 0 2) 0x0102 ∧ y.cum = 0) ∧
        ∀ p ∈ fragments 0 (acceptFrame (afSession frame) 0 (min (beAt (afBody frame) 0 2) 0x0102) 64), .packet source wing 0x03 4 p ∈ t.out) ∧
    (∀ frame, ailasOk 1 frame = true → s.ship.recvs.find? (fun y => y.session == afSession frame && y.source == source) = none →
      s.ship.receives.find? (fun e => e.1 == wing && recDev e.2.1 == source && slice e.2.1 48 8 == slice (afBody frame) 8 8) = none →
      Gives (.ailasOpen source wing frame) s fun t => t.ship = s.ship ∧
        ∀ p ∈ fragments 0 (acceptFrame (afSession frame) 3 0 64), .packet source wing 0x03 4 p ∈ t.out) ∧
    (∀ frame y, ailasOk 3 frame = true → s.ship.recvs = [y] → y.session = afSession frame → y.source = source → y.wing = wing →
      beAt frame (16 + afLength frame) 8 = crc64 (afBody frame) → y.cum ≤ afNumber frame → y.marks.contains (afNumber frame) = false →
      afNumber frame < y.cum + 64 → (∀ h ∈ y.held, h.1 ≠ afNumber frame) →
      Gives (.chunk source wing frame) s fun t =>
        t.ship.recvs = [{ y with held := y.held ++ [(afNumber frame, afCount frame, afBody frame)] }] ∧ t.out = s.out) ∧
    (∀ frame y, ailasOk 3 frame = true → s.ship.recvs = [y] → y.session = afSession frame → y.source = source → y.wing = wing →
      beAt frame (16 + afLength frame) 8 ≠ crc64 (afBody frame) → Gives (.chunk source wing frame) s fun t => Counted s t 0xC250 6 1 ∧ t.ship = s.ship) ∧
    (∀ packet, (∃ y ∈ s.ship.recvs, y.wing = wing) → beAt packet 5 1 = 2 → s.ship.fragments = [] →
      Gives (.ailasFragment source wing packet) s fun t => t = { s with ship := t.ship } ∧
        t.ship.fragments = [(source, wing, beAt packet 0 4, beAt packet 4 1, packet.drop 8)]) ∧
    (∀ packet, (∀ y ∈ s.ship.recvs, y.wing ≠ wing) → (∀ e ∈ s.ship.receives, e.1 ≠ wing) → (∀ x ∈ s.ship.ships, x.wing ≠ wing) →
      Gives (.ailasFragment source wing packet) s fun t => Counted s t 0xB000 6 1 ∧ t.ship = s.ship)

/-- Ethernet doors: a frame with a bad FCS, or that is not for the door, is dropped and counted, and a good one is counted; a door that goes down has its record; one that trains probes its addresses, and uses none that another node claims (R472-R476). -/
def Obligations.EthernetDoors : Prop :=
  ∀ (s : State) (door : Nat), 12 ≤ door → door < 16 → s.obj (0x8000 + door) 1 = 1 →
    (∀ frame, Gives (.ethernetFrame door frame false) s fun t => Counted s t (0xC240 + (door - 12)) 4 1 ∧ Counted s t (0xC240 + (door - 12)) 3 1 ∧
      t.ship = s.ship ∧ t.out = s.out) ∧
    (∀ frame, (s.doorIface (door - 12)).accept frame = none → Gives (.ethernetFrame door frame true) s fun t =>
      Counted s t (0xC240 + (door - 12)) 3 1 ∧ t.ship = s.ship ∧ t.out = s.out) ∧
    (∀ frame p, (s.doorIface (door - 12)).accept frame = some p → p.sumOk = true → (s.doorIface (door - 12)).mine p.dst = true → p.next ≠ 17 →
      (∀ e ∈ s.ship.tentative, e.1 = door - 12 → p.claims e.2 = false) →
      Gives (.ethernetFrame door frame true) s fun t => Counted s t (0xC240 + (door - 12)) 2 1 ∧
        (∀ a mac, p.learned = some (a, mac) → (door - 12, a, mac) ∈ t.ship.neighbours) ∧
        (∀ r, (s.doorIface (door - 12)).icmp true p = some r → .eth door r ∈ t.out ∧ Counted s t (0xC240 + (door - 12)) 1 1)) ∧
    (∀ frame p a, (s.doorIface (door - 12)).accept frame = some p → (s.doorIface (door - 12)).mine p.dst = true → p.claims a = true →
      s.ship.tentative = [(door - 12, a)] → Gives (.ethernetFrame door frame true) s fun t => Counted s t (0xC240 + (door - 12)) 2 1 ∧
        (t.doorIface (door - 12)).addrs.contains a = false ∧ t.out = s.out) ∧
    (∀ cause, s.ethUp (door - 12) = true → Gives (.ethDoorDown door cause) s fun t => t.obj (0xD000 + (door - 12)) 8 = 0 ∧
      t.ethUp (door - 12) = false ∧ Raised t 0x0F02) ∧
    (Gives (.ethDoorUp door) s fun t => t.ethUp (door - 12) = true ∧ ∀ a ∈ s.doorAddrs (door - 12), (door - 12, a) ∈ t.ship.tentative)

/-! ### Power, temperature and coolant -/

/-- A power window publishes its figure, keeps the millisecond's sums and answers a peak (R527, R535, R538, R539); each millisecond the gain follows the regulators and the sums start again (R528-R530); a settled voltage gives the hall its point (R534), and shares wait for their beat (R542). -/
def Obligations.PowerFollows : Prop :=
  ∀ s : State,
    (let p := s.figure (s.estimate s.power.counts 1 s.point) 1
     Gives .powerWindow s fun t => t.obj 0x4140 1 = min (p / 10000000000) 65535 ∧ t.power.powSum = s.power.powSum + p ∧
      t.power.windows = s.power.windows + 1 ∧ t.power.counts = [] ∧
      (wattWindow (s.obj 0x4120 4) < p → Counted s t 0xC310 6 1 ∧ t.obj 0x4120 6 = max (s.obj 0x4120 6 - 2) (min (s.obj 0x4120 6) (s.obj 0x4120 5))) ∧
      (p ≤ wattWindow (s.obj 0x4120 4) → t.obj 0xC310 6 = s.obj 0xC310 6 ∧ t.obj 0x4120 6 = s.obj 0x4120 6)) ∧
    (∀ readings, Gives (.powerCalibration readings) s fun t => t.power.gain = newGain s.power.gain t.power.measured s.power.rawSum ∧
      t.obj 0x4140 3 = min t.power.measured 65535 ∧ t.obj 0x4140 4 = t.power.gain / 16 ∧ t.power.rawSum = 0 ∧ t.power.powSum = 0 ∧ t.power.windows = 0 ∧
        t.power.msTick = s.power.msTick + 1 ∧ t.power.moveDue = true) ∧
    (∀ hall mv g, mget 0 s.power.target hall = g + 1 → mv ≤ pointMv g + 10 → pointMv g ≤ mv + 10 →
      Gives (.voltageSettled hall mv) s fun t => t.point hall = g ∧ mget 0 t.power.target hall = 0) ∧
    (∀ beat shares cap, Gives (.shareUpdate beat shares cap) s fun t => t = { s with power := { s.power with coming := some (beat, shares, cap) } })

/-- Sensors give each hall its hottest reading (R548); a hot hall steps its ceiling down and a cool one up again (R549); at TRIP_TEMP the package trips (R550). -/
def Obligations.TemperatureActs : Prop :=
  ∀ s : State,
    (∀ temps hbm : List Int, temps.length = 104 → hbm.length = 8 → Gives (.sensorRead temps hbm) s fun t =>
      mget [] t.doms (objKey 0x4200 3) = fitBytes 256 (temps.flatMap fun x => leBytes 2 (twos 16 x)) ∧ t.power = s.power ∧
        ∀ h, h < 8 → ∃ x ∈ (temps.drop (13 * h)).take 13 ++ (hbm.drop h).take 1, t.obj (0x4110 + h) 4 = twos 16 x ∧
          ∀ y ∈ (temps.drop (13 * h)).take 13 ++ (hbm.drop h).take 1, y ≤ x) ∧
    (∀ hall, hall < 8 → sext 16 (s.obj 0x4200 1) ≤ sext 16 (s.obj (0x4110 + hall) 4) → s.obj (0x4110 + hall) 3 ≠ 0 →
      Gives (.thermalCeilingStep hall) s fun t => t.obj (0x4110 + hall) 3 = s.obj (0x4110 + hall) 3 - 1 ∧ Counted s t 0xC310 2 1) ∧
    (∀ hall, hall < 8 → sext 16 (s.obj (0x4110 + hall) 4) + 30 ≤ sext 16 (s.obj 0x4200 1) → s.obj (0x4110 + hall) 3 < 15 →
      Gives (.thermalCeilingStep hall) s fun t => t.obj (0x4110 + hall) 3 = s.obj (0x4110 + hall) 3 + 1) ∧
    (∀ sensor temp, sext 16 (s.obj 0x4200 2) ≤ temp → s.pins.thermtripN = true → Gives (.thermalTrip sensor temp) s fun t =>
      t.pins.thermtripN = false ∧ .pin "THERMTRIP_N" false ∈ t.out ∧ t.cur.hallsStopped = true ∧ t.torus.forwarding = false ∧ t.obj 0x5000 8 = 1 ∧
        t.obj 0x4200 6 = sensor % 128 + 128 + twos 16 temp * 65536 ∧ Raised t 0x4401)

/-- Loss of coolant stops every hall and fails the beat, the stacks enter self-refresh, and the wings with work here become fatal (R551); a low before the pin has ever been high counts for nothing (R634). -/
def Obligations.CoolantActs : Prop :=
  ∀ s : State,
    (Gives .coolantOkFall s fun t => t = { s with pins := { s.pins with coolantOk := false, coolantLow := s.pins.coolantSeen } }) ∧
    (Gives .coolantOkRise s fun t => t = { s with pins := { s.pins with coolantOk := true, coolantSeen := true, coolantLow := false } }) ∧
    (s.pins.coolantLow = true → s.power.coolStop = false → Gives .coolantStop s fun t => t.cur.hallsStopped = true ∧ t.power.coolStop = true ∧
      t.beat.checks = s.beat.checks ++ [.coolant] ∧ t.power.coolBeat = s.beatNo ∧ t.mem = s.mem) ∧
    (s.pins.coolantLow = false → Gives .coolantStop s fun t => t = s) ∧
    (s.power.coolStop = true → s.mem.selfRefresh = false → Gives .hbmSelfRefreshEntered s fun t => t.mem.selfRefresh = true ∧ t.obj 0x4200 4 = 1 ∧
      ∀ w, w < 16 → s.workHere w = true → (t.wing w).fatal ≠ none)

/-! ### Tests in service, and faults of the package -/

/-- A suspect core that passes its test waits to become a reserve, one that fails is retired (R171, R561); rotation chooses its next core, or is suspended where no rotation reserve is left, and a rotation test passes the reserve or retires it (R564-R566). -/
def Obligations.CoresTested : Prop :=
  ∀ (s : State) (hall core : Nat), hall < 8 → core < 42 → s.curatorWorks = true →
    (∀ step, s.coreState hall core = 3 → (∀ e ∈ s.cur.mapDue, e.1 ≠ hall * 64 + core) →
      (Gives (.coreTestComplete hall core true step) s fun t => (hall * 64 + core, true) ∈ t.cur.mapDue ∧ t.coreState hall core = 3) ∧
      (Gives (.coreTestComplete hall core false step) s fun t => t.coreState hall core = 4 ∧ Raised t 0x2504 ∧
        mget 0 t.cur.domains (hall * 64 + core) = 0)) ∧
    (s.obj 0x5010 1 ≠ 0 → 3 ≤ s.obj 0xA000 1 → s.obj 0xA000 1 ≠ 0x0F →
      (s.obj (0x2000 + hall) 42 = 0xFF → s.cur.suspended.contains hall = false → Gives (.rotationStep hall) s fun t => hall ∈ t.cur.suspended ∧ Raised t 0x0501) ∧
      (s.obj (0x2000 + hall) 42 ≠ 0xFF → s.dueCore hall = some core → Gives (.rotationStep hall) s fun t => (hall, core) ∈ t.cur.exchange ∧
        s.coreState hall core ≤ 1)) ∧
    (∀ step, s.obj (0x2000 + hall) 42 = core → (∀ x ∈ s.cur.sparing, x.hall ≠ hall) → (∀ e ∈ s.cur.mapDue, e.1 ≠ hall * 64 + core) →
      (Gives (.rotationTestComplete hall true step) s fun t => hall * 64 + core ∈ t.cur.tested ∧ t.cur.passCount = s.cur.passCount + 1) ∧
      (Gives (.rotationTestComplete hall false step) s fun t => (hall * 64 + core, false) ∈ t.cur.mapDue ∧ Raised t 0x2504))

/-- A fault of class F4 stops the package and says so (R570, R571); the curator restarts once and goes on, a second expiry within 600 s or a late return is fatal (R573); so is the loss of the reference clock while RESET_N is high (R632). -/
def Obligations.PackageFaults : Prop :=
  ∀ s : State,
    (∀ code unit index detail, classOf code = 4 → Gives (.packageFatal code unit index detail) s fun t => t.obj 0x5000 8 = 1 ∧ Raised t code ∧
      (s.obj 0x5000 8 ≠ 1 → t.cur.hallsStopped = true ∧ t.cur.fatalPending = true ∧ .pin "FAULT_N" false ∈ t.out ∧
        .courier none (.deviceMissing s.device) ∈ t.out)) ∧
    (∀ sinceLast, Gives (.curatorWatchdog sinceLast) s fun t => t.cur.restarts = s.cur.restarts + 1 ∧ t.cur.down = true ∧
      (s.cur.restarts ≠ 0 → sinceLast ≤ 600 → Raised t 0x4503 ∧ t.obj 0x5000 8 = 1) ∧
      ((s.cur.restarts = 0 ∨ 600 < sinceLast) → Raised t 0x0502 ∧ t.obj 0x5000 8 = s.obj 0x5000 8)) ∧
    (∀ elapsed, s.cur.down = true → Gives (.curatorReturn elapsed) s fun t =>
      (1000 < elapsed → Raised t 0x4503 ∧ t.obj 0x5000 8 = 1) ∧
      (elapsed ≤ 1000 → s.beat.dead = false → t = { s with cur := { s.cur with down := false } }) ∧
      (elapsed ≤ 1000 → s.beat.dead = true → s.cur.sparing = [] → s.obj 0x5000 8 = 0 → s.obj 0x5300 2 ≠ 1 →
        t.cur.down = false ∧ t.beat.attempt = s.beat.attempt + 1 ∧ t.beat.dead = false)) ∧
    (Gives .refclkLockLoss s fun t => (s.pins.resetN = true → t.obj 0x5000 8 = 1 ∧ Raised t 0x4504) ∧ (s.pins.resetN = false → t = s))

/-! ### Start and stop -/

/-- RESET_N rising starts the package, cold or warm; falling holds everything at reset; without power only the flash and the fuses are left (R587, R594, R630). -/
def Obligations.ResetsAct : Prop :=
  ∀ s : State,
    (s.pins.resetN = false → Gives .resetNRise s fun t => t.pins.resetN = true ∧ t.pins.startFlag = true ∧
      t.obj 0xA000 2 = (if s.pins.startFlag then 1 else 0) ∧ t.work = {} ∧ t.coll = {} ∧ t.ship = {} ∧ t.sec.rollback = s.sec.rollback ∧
        t.sec.revoked = s.sec.revoked ∧ t.sec.seedLock = (s.sec.seedLock && s.pins.startFlag) ∧ 1 ≤ t.obj 0xA000 1) ∧
    (s.pins.resetN = true → Gives .resetNFall s fun t => t.pins.resetN = false ∧ t.pins.startFlag = s.pins.startFlag ∧
      (∀ a b, t.obj a b = defaultOf (objKey a b)) ∧ t.work = {} ∧ t.mem = {} ∧ t.flash = { s.flash with queue := [] } ∧ t.sec.rollback = s.sec.rollback) ∧
    (Gives .powerOff s fun t => t.pins.vddSys = false ∧ t.pins.resetN = false ∧ t.pins.startFlag = false ∧ t.pins.thermtripN = true ∧
      (s.pins.thermtripN = false → .pin "THERMTRIP_N" true ∈ t.out) ∧ t.flash = { s.flash with queue := [] } ∧ t.sec.rollback = s.sec.rollback ∧
        t.sec.revoked = s.sec.revoked ∧ t.mem = {})

/-- A quick test leaves out the blocks that failed and the start goes on (R591, R592), with every fabric domain on whenever the package has power (R12, R17); the PCIe link trains at the rates and widths of R498 and no others. -/
def Obligations.StartGoesOn : Prop :=
  ∀ s : State,
    (∀ failed, s.obj 0xA000 1 = 2 → (Blocks.zip (· ||| ·) s.cur.unusable failed).fabrics = 0 → (Blocks.zip (· ||| ·) s.cur.unusable failed).routers = 0 →
      (Blocks.zip (· ||| ·) s.cur.unusable failed).hbmStacks = 0 → Gives (.quickTestComplete failed) s fun t => t.obj 0xA000 1 = 3 ∧
        t.obj 0xA000 7 = Blocks.size failed % 2 ^ 16 ∧ t.cur.unusable = Blocks.zip (· ||| ·) s.cur.unusable failed ∧ t.torus.forwarding = true ∧
        ∀ k, 520 ≤ k → k < 528 → t.domainOn k = s.pins.vddSys) ∧
    (∀ rate width flit, rate ∈ [16, 32, 64] → width ∈ [4, 8, 16] → Gives (.pcieLinkTrained rate width flit) s fun t =>
      t.obj 0x1040 1 = rate ∧ t.obj 0x1040 2 = width ∧ t.obj 0x1040 3 = (if flit ∨ rate = 64 then 1 else 0)) ∧
    (∀ rate width flit, ¬(rate ∈ [16, 32, 64] ∧ width ∈ [4, 8, 16]) → Gives (.pcieLinkTrained rate width flit) s fun t => t = s)

/-- An orderly stop: forwarding stops and the doors go DOWN (R571, R595), the self-test runs on good rails and clocks and ends in a signed report with its status (R596-R600), and with the report written the package is stopped, ready to be removed where that was asked (R599). -/
def Obligations.StopEnds : Prop :=
  ∀ s : State,
    ((s.cur.fatalPending = true ∨ s.cur.removing = true ∨ s.obj 0xA100 3 = 1) → Gives .forwardingStop s fun t => t.torus.forwarding = false ∧
      t.beat.synced = false ∧ t.cur.hallsStopped = true ∧ (∀ d, d < 16 → s.obj (0x8000 + d) 1 = 0 → t.doorState d = 0) ∧
      (s.cur.removing = true → s.obj 0x5000 8 = 2 → t.obj 0x5000 8 = 3 ∧ .pin "REMOVE_OK" true ∈ t.out) ∧
      (s.obj 0xA100 3 = 1 → s.torus.forwarding = true → s.cur.stopKind = 2 → leAt t.cur.newReport 33 1 = 3)) ∧
    (∀ rails clocks, s.cur.newReport = [] → s.obj 0xA100 3 = 1 → s.torus.forwarding = false → s.cur.stopKind ≠ 2 →
      Gives (.selfTestRailCheck rails clocks) s fun t => (rails = true → clocks = true → t.obj 0xA100 3 = 2 ∧ t.cur.newReport = []) ∧
        ((rails = false ∨ clocks = false) → leAt t.cur.newReport 33 1 = if rails then 2 else 1)) ∧
    (∀ rails clocks, s.cur.newReport = [] → s.obj 0xA100 3 = 2 → s.cur.testStatus = 0 → (rails = false ∨ clocks = false) →
      Gives (.selfTestRailCheck rails clocks) s fun t => t.cur.testStatus = if rails then 5 else 4) ∧
    (∀ failed sectors time, s.cur.newReport = [] → s.obj 0xA100 3 = 2 → Gives (.selfTestComplete failed sectors time) s fun t =>
      leAt t.cur.newReport 33 1 = s.cur.testStatus % 256 ∧ leAt t.cur.newReport 36 4 = time % 2 ^ 32 ∧ t.flash.remap = t.mem.remap ∧
        t.cur.newReport.length = 512) ∧
    (s.cur.newReport ≠ [] → s.obj 0xA100 3 ≠ 0 → s.obj 0xA100 3 ≠ 4 → Gives .reportWritten s fun t => t.obj 0xA100 3 = 4 ∧ t.cur.hallsStopped = true ∧
      (reportCount s.flash.report1 < reportCount s.flash.report0 → t.flash.report1 = s.cur.newReport ∧ t.flash.report0 = s.flash.report0) ∧
      (reportCount s.flash.report0 ≤ reportCount s.flash.report1 → t.flash.report0 = s.cur.newReport ∧ t.flash.report1 = s.flash.report1) ∧
      (∀ k, k < 552 → mget 0 t.cur.domains k = 0) ∧ (∀ k, 520 ≤ k → k < 528 → t.domainOn k = s.pins.vddSys) ∧ t.mem.selfRefresh = true ∧
      (s.cur.stopKind = 3 → t.obj 0x5000 8 = 3 ∧ .pin "REMOVE_OK" true ∈ t.out))

/-! ### Whole-machine rules -/

namespace Sys2Proof.Claims

/-- The device's access to the Catalogue is not suspended: the firmware services run (R582). -/
def Serving (s : State) : Prop := s.obj 0x5300 2 ≠ 1

/-- The record that a fault raises (R574). -/
def recordOf (s : State) (code unit index : Nat) (wing : Option Nat) (detail : List Byte) : ErrRec :=
  { code := code, device := s.device, unit := unit, index := index, wing := wing, beat := s.beatNo
    supp := min (mget 0 s.cur.suppressed code) 0xFFFF, number := s.cur.number % 2 ^ 32, detail := fitBytes 44 detail }

/-- The HBM error ring is full (R575). -/
def RingFull (s : State) : Prop := (s.obj 0x5000 3 % s.obj 0x5000 2 + 1) % s.obj 0x5000 2 = s.obj 0x5000 4 % s.obj 0x5000 2

end Sys2Proof.Claims

/-- A fault's record is kept among the last 256, and written to the HBM error ring where it has entries and is not full, in place of what a merge buffer held of its sector (R382); a full ring is counted and leaves memory as it was (R574, R575). An F4 record stops the package (R571). -/
def Obligations.ErrorRecords : Prop :=
  ∀ (s : State) (code unit index : Nat) (wing : Option Nat) (detail : List Byte), Serving s →
    let t := s.raise code unit index wing detail
    let r := recordOf s code unit index wing detail
    let n := s.obj 0x5000 2
    t.cur.records = (s.cur.records ++ [r]).drop (s.cur.records.length + 1 - 256) ∧
      (n ≠ 0 → ¬RingFull s → t.obj 0x5000 3 = (s.obj 0x5000 3 % n + 1) % n ∧
        (let a := s.obj 0x5000 1 + 64 * (s.obj 0x5000 3 % n)
         t.mem = (s.mem.supersede 0 (a / 64) 0 64).write a r.bytes) ∧ t.obj 0x5000 7 = s.obj 0x5000 7) ∧
      (n ≠ 0 → RingFull s → t.obj 0x5000 3 = s.obj 0x5000 3 ∧ t.mem = s.mem ∧ Counted s t 0x5000 7 1) ∧
      (n = 0 → t.obj 0x5000 3 = s.obj 0x5000 3 ∧ t.mem = s.mem ∧ t.obj 0x5000 7 = s.obj 0x5000 7) ∧
      (classOf code = 4 → t.obj 0x5000 8 = 1 ∧ (s.obj 0x5000 8 ≠ 1 → t.cur.hallsStopped = true))

/-- A notification is written at NOTE_HEAD of its window, which advances, while software advances NOTE_TAIL, and raises vector 0 where the function may signal it and has not masked it; on a full ring it is dropped, LOSS is set in the newest entry, and NOTES_LOST counts (R47). -/
def Obligations.NotificationRing : Prop :=
  ∀ (s : State) (fn : Nat) (n : Note),
    let w := s.window fn
    let t := s.noteWindow fn n
    ((w.noteHead + 1) % 256 ≠ w.noteTail →
      mget 0 (t.window fn).ring w.noteHead = n.word s.beatNo w.noteSeq ∧ (t.window fn).noteHead = (w.noteHead + 1) % 256 ∧
        (∀ k, k ≠ w.noteHead → mget 0 (t.window fn).ring k = mget 0 w.ring k) ∧ t.cat = s.cat ∧
        (mget 0 s.host.busMaster fn ≠ 0 → s.vectorMasked fn 0 = false → t.out = s.out ++ [s.message fn 0]) ∧
        (mget 0 s.host.busMaster fn ≠ 0 → s.vectorMasked fn 0 = true → t.out = s.out ∧ mget 0 t.host.pendingMsi (fn * 4096) = 1)) ∧
    ((w.noteHead + 1) % 256 = w.noteTail →
      (t.window fn).noteHead = w.noteHead ∧ Counted s t 0x1020 0x0C 1 ∧ t.out = s.out ∧
        let k := (w.noteHead + 255) % 256
        mget 0 (t.window fn).ring k = mget 0 w.ring k ||| 2 ^ 31 ∧
        ∀ j, j ≠ k → mget 0 (t.window fn).ring j = mget 0 w.ring j) ∧
    (∀ data : List Byte, s.fnActive fn = true → data.length = 8 → Gives (.registerWrite fn 0 0x108 data) s fun u =>
      (u.window fn).noteTail = leNat data % 256 ∧ (u.window fn).noteHead = w.noteHead ∧ (u.window fn).ring = w.ring)

/-- The SECDED code: what a read makes of every stored word and check byte, by its syndrome, whose columns h_i are the check bytes of the single data bits; and any two inverted bits of the 72 are found uncorrectable (R373). -/
def Obligations.SecdedCorrects : Prop :=
  ∀ d c, d < 2 ^ 64 → c < 2 ^ 8 →
    (let s := c ^^^ secded d
     (s = 0 → readWord d c = .good d) ∧
     (∀ r, r < 8 → s = 2 ^ r → readWord d c = .corrected d s) ∧
     (∀ i, i < 64 → s = secded (2 ^ i) → readWord d c = .corrected (d ^^^ 2 ^ i) s) ∧
     (s ≠ 0 → (∀ r, r < 8 → s ≠ 2 ^ r) → (∀ i, i < 64 → s ≠ secded (2 ^ i)) → readWord d c = .uncorrectable d s)) ∧
    (∀ i j, i < j → j < 64 → ∃ x, readWord (d ^^^ 2 ^ i ^^^ 2 ^ j) (secded d) = .uncorrectable (d ^^^ 2 ^ i ^^^ 2 ^ j) x) ∧
    (∀ i r, i < 64 → r < 8 → ∃ x, readWord (d ^^^ 2 ^ i) (secded d ^^^ 2 ^ r) = .uncorrectable (d ^^^ 2 ^ i) x) ∧
    (∀ q r, q < r → r < 8 → ∃ x, readWord d (secded d ^^^ 2 ^ q ^^^ 2 ^ r) = .uncorrectable d x)

/-- The fabric code: a word arrives as it was sent, any one or two inverted bits are corrected, any three are found uncorrectable, and so is a word whose sequence bit does not alternate; whatever is delivered is a code word with the sequence bit that is due, at most two bits from what came (R376). -/
def Obligations.FabricCorrects : Prop :=
  ∀ (d : Nat) (b : Bool), d < 2 ^ 64 →
    let w := fabricEncode d b
    w / 2 ^ 15 % 2 ^ 64 = d ∧ fabricDecode w b = some (w, 0) ∧ fabricDecode w (!b) = none ∧
    (∀ i, i < 80 → fabricDecode (w ^^^ 2 ^ i) b = some (w, 1)) ∧
    (∀ i j, i < j → j < 80 → fabricDecode (w ^^^ 2 ^ i ^^^ 2 ^ j) b = some (w, 2)) ∧
    (∀ i j k, i < j → j < k → k < 80 → fabricDecode (w ^^^ 2 ^ i ^^^ 2 ^ j ^^^ 2 ^ k) b = none) ∧
    (∀ v r n, v < 2 ^ 80 → fabricDecode v b = some (r, n) → n ≤ 2 ∧ popcount 80 (v ^^^ r) = n ∧ fabricSyndrome r = 0 ∧ bitOf r 79 = b)

/-- Whatever the block is told to do, in whatever state, a step never lowers the rollback counter, never clears a revocation fuse, and never takes the counter past its 64 fuses (R608): no reset, power cycle, activation or Catalogue write does. -/
def Obligations.FusesOnlyBurn : Prop :=
  ∀ s t : State, step s = .next t →
    s.sec.rollback ≤ t.sec.rollback ∧ (∀ k, bitOf s.sec.revoked k = true → bitOf t.sec.revoked k = true) ∧
      (s.sec.rollback ≤ 64 → t.sec.rollback ≤ 64)

/-- The power-on circuit: THERMTRIP_N, once low, stays low, and the start flag, once set, stays set, through every command but the loss of power (R587, R630). -/
def Obligations.PowerOnCircuitHolds : Prop :=
  ∀ (c : Instr) (rest : List Instr) (s t : State), s.pending = c :: rest → c ≠ .powerOff → step s = .next t →
    (s.pins.thermtripN = false → t.pins.thermtripN = false) ∧ (s.pins.startFlag = true → t.pins.startFlag = true)

/-- What the package is at reset: nothing waits, HBM reads zero and every SRAM word holds the unwritten pattern (R389, R391), no fault stands, THERMTRIP_N is high, and the beat has the period that R70 gives; memory has its canonical form and the fuses keep their bound. -/
def Obligations.ResetState : Prop :=
  State.reset.pending = [] ∧ State.reset.mem.wf = true ∧ State.reset.sec.rollback ≤ 64 ∧ State.reset.pins.thermtripN = true ∧
    State.reset.pins.startFlag = false ∧ State.reset.obj 0x6000 1 = 32 ∧ State.reset.obj 0x6000 2 = 32 ∧ State.reset.beatNo = 0 ∧
    State.reset.obj 0x5000 8 = 0 ∧ State.reset.obj 0x6000 0xD = 64 ∧ (∀ a, isHbm a = true → State.reset.mem.deliver a = 0#8) ∧
    ∀ w, isHbm (8 * w) = false → State.reset.mem.unwritten w = true

namespace Sys2Proof.Claims

/-- Descriptors that compute, move, wait and signal, with the events of their arrays, rings and packets (R174-R216, R235-R307, R344-R363). -/
def computes : Instr → Bool
  | .streamStall .. | .stageGroupStart .. | .matmul .. | .chain .. | .attend .. | .vectorAdd .. | .vectorSub .. | .vectorMul ..
  | .vectorDiv .. | .vectorMax .. | .vectorMin .. | .vectorCmpLt .. | .vectorCmpEq .. | .vectorFma .. | .vectorRowscale ..
  | .vectorColscale .. | .vectorConvert .. | .vectorSqrt .. | .vectorExp2 .. | .vectorLog2 .. | .vectorRecip .. | .vectorRsqrt ..
  | .vectorTanh .. | .vectorSum .. | .vectorLineMax .. | .vectorLineMin .. | .vectorSumsq .. | .rowstatReset .. | .rowstatRead ..
  | .rowstatLoad .. | .move .. | .moveZero .. | .moveIndexed .. | .folioGather .. | .streamOpen .. | .streamOpenGranted ..
  | .streamClose .. | .streamCloseDone .. | .streamCancel .. | .streamCancelDone .. | .claim .. | .counterWait ..
  | .counterWaitSatisfied .. | .signalLocal .. | .signalRemote .. | .remoteFlag .. | .flagWait .. | .flagWaitSatisfied .. | .phase ..
  | .seal .. | .dependencyWaitEnd .. | .arrayInstruction .. | .tileLoaded .. | .arrayIdle .. | .rowstatPartialArrival .. | .peerSend ..
  | .peerDataArrival .. | .ringAnnouncement .. | .peerCredit .. | .fillLineLands .. | .consumerTakesSlot .. | .lightPathComplete ..
  | .badOpcode .. => true
  | _ => false

/-- Collectives and their events (R444-R472). -/
def collects : Instr → Bool
  | .broadcast .. | .allGather .. | .reduceScatter .. | .allReduce .. | .barrier .. | .allToAll .. | .allToAllV ..
  | .courierAllReduce .. | .collectWait .. | .collectWaitDone .. | .launch .. | .courierData .. | .abort .. | .collectivePiece ..
  | .reductionSlotsTaken .. | .collectiveTimeout .. => true
  | _ => false

/-- The beat, and the supervision that goes with it (R69-R97, R557-R577). -/
def onBeat : Instr → Bool
  | .beatBoundary .. | .beatMarker .. | .markerMissed .. | .markerLossElection .. | .masterElection .. | .timingFrame ..
  | .beatInEdge .. | .beatInLost .. | .masterDecision .. | .overrunLimit .. | .ready .. | .notReady .. | .workFinished ..
  | .readyCutoff .. | .sealBegin .. | .commitToken .. | .withdrawToken .. | .sparingComplete .. | .linkCut .. | .deviceMissing ..
  | .neighbourSilent .. | .linkRestored .. | .errorRecordAnnouncement .. | .coreTestComplete .. | .rotationStep ..
  | .rotationTestComplete .. | .packageFatal .. | .curatorWatchdog .. | .curatorReturn .. | .pcieLinkTrained .. | .refclkLockLoss .. => true
  | _ => false

/-- Events of memory and its scrub (R365, R383-R388). -/
def onMemory : Instr → Bool
  | .hbmRequestAdmitted .. | .lapOverdue .. | .hallStoreScrubRead .. | .mergeEntryWrite .. | .scrubRead .. => true
  | _ => false

/-- Doors, lasers and the router (R399-R436). -/
def onLinks : Instr → Bool
  | .doorDetectDone .. | .doorSignalLocked .. | .doorAlignDone .. | .linkControlFlit .. | .doorCreditReceived ..
  | .doorTrainingFailed .. | .doorRetrain .. | .flitReceived .. | .resendTimeout .. | .doorDown .. | .laneFailure .. | .laneSpared ..
  | .routerForward .. | .laserFeedLost .. | .laserPresent .. | .laserEnable .. | .laserOutputInRange .. => true
  | _ => false

/-- Power, temperature and coolant (R526-R552). -/
def onPower : Instr → Bool
  | .powerWindow .. | .powerCalibration .. | .voltageSettled .. | .shareUpdate .. | .thermalCeilingStep .. | .coolantStop ..
  | .hbmSelfRefreshEntered .. | .sensorRead .. => true
  | _ => false

/-- Host queues, jobs, attestation and export (R474-R524). -/
def onHost : Instr → Bool
  | .registerWrite .. | .jobAccept .. | .jobStart .. | .jobDistribution .. | .runJob .. | .loadImage .. | .unloadImage .. | .ship ..
  | .nop .. | .sqTail .. | .cqHead .. | .sqEnable .. | .sqDisable .. | .cqEnable .. | .cqDisable .. | .completionWrite ..
  | .coalesceTimer .. | .msixUnmask .. | .aperture .. | .bar4Read .. | .bar4Write .. | .flr .. | .vfEnableClear .. | .hotReset ..
  | .doeDiscovery .. | .getVersion .. | .getCapabilities .. | .negotiateAlgorithms .. | .getDigests .. | .getCertificate ..
  | .challenge .. | .getMeasurements .. | .openResend .. | .ailasOpen .. | .accept .. | .chunkSend .. | .chunk .. | .ack ..
  | .retransmissionTimeout .. | .noRoute .. | .close .. | .closeAck .. | .ailasFragment .. | .ethernetFrame .. | .ethDoorDown ..
  | .ethDoorUp .. | .forwardResult .. => true
  | _ => false

/-- Catalogue reads and what keeps sessions (R20-R60). -/
def onlyReads : Instr → Bool
  | .read .. | .describe .. | .snapshot .. | .readBlock .. | .sessionOpenPhase1 .. | .sessionOpenPhase3 .. | .sessionClose ..
  | .halfOpenTimeout .. | .sessionIdleTimeout .. | .domainClaimExpiry .. | .catalogueForwardTimeout .. | .catDoorbellGo ..
  | .fieldNetworkNeighbourDiscovery .. => true
  | _ => false

/-- Catalogue writes and the services behind them. -/
def onCatalogue : Instr → Bool
  | .write .. | .writeBlock .. | .halt .. | .run .. | .clearFatal .. | .restoreDefaults .. | .windowWrite .. | .hallStoreShareWrite ..
  | .mode .. | .prepareRemoval .. | .returnToService .. | .groupDefine .. | .groupDelete .. | .shipCancel .. | .divergenceClear ..
  | .coolantCommand .. | .activate .. | .revert .. | .removalPrepare .. | .removalAfterStop .. | .removalCancel ..
  | .quickTestComplete .. | .stopWithSelfTest .. | .stopWithoutSelfTest .. | .selfTestRailCheck .. | .selfTestComplete ..
  | .forwardingStop .. | .trialTimeExpiry .. | .reportWritten .. => true
  | _ => false

end Sys2Proof.Claims

/-- What no command of a family touches, in any state: descriptors leave latched values, DOMAIN contents, security, pins, doors, collectives, folios and export; collectives leave all of these but their own; the beat leaves security, pins and doors; memory events leave folios, collectives and export, and work but for a sequencer that a merge stops; links leave folios, host queues, security and pins, and memory but for error records; power leaves security, pins, folios, doors and collectives; the host leaves security, pins and doors; reads leave everything but sessions, objects, the cycles that pass and what is sent. -/
def Obligations.FamiliesKeepApart : Prop :=
  ∀ (c : Instr) (s t : State), exec c s = .next t →
    (computes c = true → t.inUse = s.inUse ∧ t.doms = s.doms ∧ t.sec = s.sec ∧ t.pins = s.pins ∧ t.torus = s.torus ∧ t.coll = s.coll ∧
      t.folio = s.folio ∧ t.ship = s.ship) ∧
    (collects c = true → t.inUse = s.inUse ∧ t.doms = s.doms ∧ t.sec = s.sec ∧ t.pins = s.pins ∧ t.torus = s.torus ∧
      t.folio = s.folio ∧ t.ship = s.ship) ∧
    (onBeat c = true → t.sec = s.sec ∧ t.pins = s.pins ∧ t.torus = s.torus) ∧
    (onMemory c = true → t.inUse = s.inUse ∧ t.doms = s.doms ∧ t.sec = s.sec ∧ t.pins = s.pins ∧ t.torus = s.torus ∧ t.coll = s.coll ∧
      t.folio = s.folio ∧ t.ship = s.ship ∧ ((∀ a b, c ≠ .mergeEntryWrite a b) → t.work = s.work) ∧
      t.work = { s.work with seqs := t.work.seqs, engines := t.work.engines }) ∧
    (onLinks c = true → t.sec = s.sec ∧ t.pins = s.pins ∧ t.folio = s.folio ∧ t.mem = keepRecords s.mem t.mem ∧ t.host = s.host ∧ t.doms = s.doms) ∧
    (onPower c = true → t.sec = s.sec ∧ t.pins = s.pins ∧ t.folio = s.folio ∧ t.torus = s.torus ∧ t.coll = s.coll) ∧
    (onHost c = true → t.sec = s.sec ∧ t.pins = s.pins ∧ t.torus = s.torus) ∧
    (onlyReads c = true → t = { s with server := t.server, free := t.free, out := t.out, cat := t.cat, cur := { s.cur with cycles := t.cur.cycles } }) ∧
    (onCatalogue c = true → t.sec = s.sec ∧ t.pins = s.pins)
end

