-- ==== Sys2Proof/Laws/Keep.lean ====
section
/-! SUPPORT. The parts of the state that each family of commands leaves alone, and the parts it takes from its effect. -/

namespace Sys2Proof.Machine


@[simp] theorem keepWork_pending (s t : State) : (keepWork s t).pending = s.pending := rfl
@[simp] theorem keepWork_free (s t : State) : (keepWork s t).free = t.free := rfl
@[simp] theorem keepWork_out (s t : State) : (keepWork s t).out = t.out := rfl
@[simp] theorem keepWork_cat (s t : State) : (keepWork s t).cat = t.cat := rfl
@[simp] theorem keepWork_catSeal (s t : State) : (keepWork s t).catSeal = t.catSeal := rfl
@[simp] theorem keepWork_inUse (s t : State) : (keepWork s t).inUse = s.inUse := rfl
@[simp] theorem keepWork_doms (s t : State) : (keepWork s t).doms = s.doms := rfl
@[simp] theorem keepWork_server (s t : State) : (keepWork s t).server = t.server := rfl
@[simp] theorem keepWork_flash (s t : State) : (keepWork s t).flash = t.flash := rfl
@[simp] theorem keepWork_sec (s t : State) : (keepWork s t).sec = s.sec := rfl
@[simp] theorem keepWork_pins (s t : State) : (keepWork s t).pins = s.pins := rfl
@[simp] theorem keepWork_beat (s t : State) : (keepWork s t).beat = t.beat := rfl
@[simp] theorem keepWork_wings (s t : State) : (keepWork s t).wings = t.wings := rfl
@[simp] theorem keepWork_work (s t : State) : (keepWork s t).work = t.work := rfl
@[simp] theorem keepWork_mem (s t : State) : (keepWork s t).mem = t.mem := rfl
@[simp] theorem keepWork_folio (s t : State) : (keepWork s t).folio = t.folio := rfl
@[simp] theorem keepWork_torus (s t : State) : (keepWork s t).torus = s.torus := rfl
@[simp] theorem keepWork_coll (s t : State) : (keepWork s t).coll = s.coll := rfl
@[simp] theorem keepWork_ship (s t : State) : (keepWork s t).ship = s.ship := rfl
@[simp] theorem keepWork_host (s t : State) : (keepWork s t).host = t.host := rfl
@[simp] theorem keepWork_power (s t : State) : (keepWork s t).power = t.power := rfl
@[simp] theorem keepWork_cur (s t : State) : (keepWork s t).cur = t.cur := rfl

@[simp] theorem keepCompute_pending (s t : State) : (keepCompute s t).pending = s.pending := rfl
@[simp] theorem keepCompute_free (s t : State) : (keepCompute s t).free = t.free := rfl
@[simp] theorem keepCompute_out (s t : State) : (keepCompute s t).out = t.out := rfl
@[simp] theorem keepCompute_cat (s t : State) : (keepCompute s t).cat = t.cat := rfl
@[simp] theorem keepCompute_catSeal (s t : State) : (keepCompute s t).catSeal = t.catSeal := rfl
@[simp] theorem keepCompute_inUse (s t : State) : (keepCompute s t).inUse = s.inUse := rfl
@[simp] theorem keepCompute_doms (s t : State) : (keepCompute s t).doms = s.doms := rfl
@[simp] theorem keepCompute_server (s t : State) : (keepCompute s t).server = t.server := rfl
@[simp] theorem keepCompute_flash (s t : State) : (keepCompute s t).flash = t.flash := rfl
@[simp] theorem keepCompute_sec (s t : State) : (keepCompute s t).sec = s.sec := rfl
@[simp] theorem keepCompute_pins (s t : State) : (keepCompute s t).pins = s.pins := rfl
@[simp] theorem keepCompute_beat (s t : State) : (keepCompute s t).beat = t.beat := rfl
@[simp] theorem keepCompute_wings (s t : State) : (keepCompute s t).wings = t.wings := rfl
@[simp] theorem keepCompute_work (s t : State) : (keepCompute s t).work = t.work := rfl
@[simp] theorem keepCompute_mem (s t : State) : (keepCompute s t).mem = t.mem := rfl
@[simp] theorem keepCompute_folio (s t : State) : (keepCompute s t).folio = s.folio := rfl
@[simp] theorem keepCompute_torus (s t : State) : (keepCompute s t).torus = s.torus := rfl
@[simp] theorem keepCompute_coll (s t : State) : (keepCompute s t).coll = s.coll := rfl
@[simp] theorem keepCompute_ship (s t : State) : (keepCompute s t).ship = s.ship := rfl
@[simp] theorem keepCompute_host (s t : State) : (keepCompute s t).host = t.host := rfl
@[simp] theorem keepCompute_power (s t : State) : (keepCompute s t).power = t.power := rfl
@[simp] theorem keepCompute_cur (s t : State) : (keepCompute s t).cur = t.cur := rfl

@[simp] theorem keepBeat_pending (s t : State) : (keepBeat s t).pending = s.pending := rfl
@[simp] theorem keepBeat_free (s t : State) : (keepBeat s t).free = t.free := rfl
@[simp] theorem keepBeat_out (s t : State) : (keepBeat s t).out = t.out := rfl
@[simp] theorem keepBeat_cat (s t : State) : (keepBeat s t).cat = t.cat := rfl
@[simp] theorem keepBeat_catSeal (s t : State) : (keepBeat s t).catSeal = t.catSeal := rfl
@[simp] theorem keepBeat_inUse (s t : State) : (keepBeat s t).inUse = t.inUse := rfl
@[simp] theorem keepBeat_doms (s t : State) : (keepBeat s t).doms = t.doms := rfl
@[simp] theorem keepBeat_server (s t : State) : (keepBeat s t).server = t.server := rfl
@[simp] theorem keepBeat_flash (s t : State) : (keepBeat s t).flash = t.flash := rfl
@[simp] theorem keepBeat_sec (s t : State) : (keepBeat s t).sec = s.sec := rfl
@[simp] theorem keepBeat_pins (s t : State) : (keepBeat s t).pins = s.pins := rfl
@[simp] theorem keepBeat_beat (s t : State) : (keepBeat s t).beat = t.beat := rfl
@[simp] theorem keepBeat_wings (s t : State) : (keepBeat s t).wings = t.wings := rfl
@[simp] theorem keepBeat_work (s t : State) : (keepBeat s t).work = t.work := rfl
@[simp] theorem keepBeat_mem (s t : State) : (keepBeat s t).mem = t.mem := rfl
@[simp] theorem keepBeat_folio (s t : State) : (keepBeat s t).folio = t.folio := rfl
@[simp] theorem keepBeat_torus (s t : State) : (keepBeat s t).torus = s.torus := rfl
@[simp] theorem keepBeat_coll (s t : State) : (keepBeat s t).coll = t.coll := rfl
@[simp] theorem keepBeat_ship (s t : State) : (keepBeat s t).ship = t.ship := rfl
@[simp] theorem keepBeat_host (s t : State) : (keepBeat s t).host = t.host := rfl
@[simp] theorem keepBeat_power (s t : State) : (keepBeat s t).power = t.power := rfl
@[simp] theorem keepBeat_cur (s t : State) : (keepBeat s t).cur = t.cur := rfl

@[simp] theorem keepMemory_pending (s t : State) : (keepMemory s t).pending = s.pending := rfl
@[simp] theorem keepMemory_free (s t : State) : (keepMemory s t).free = t.free := rfl
@[simp] theorem keepMemory_out (s t : State) : (keepMemory s t).out = t.out := rfl
@[simp] theorem keepMemory_cat (s t : State) : (keepMemory s t).cat = t.cat := rfl
@[simp] theorem keepMemory_catSeal (s t : State) : (keepMemory s t).catSeal = t.catSeal := rfl
@[simp] theorem keepMemory_inUse (s t : State) : (keepMemory s t).inUse = s.inUse := rfl
@[simp] theorem keepMemory_doms (s t : State) : (keepMemory s t).doms = s.doms := rfl
@[simp] theorem keepMemory_server (s t : State) : (keepMemory s t).server = t.server := rfl
@[simp] theorem keepMemory_flash (s t : State) : (keepMemory s t).flash = t.flash := rfl
@[simp] theorem keepMemory_sec (s t : State) : (keepMemory s t).sec = s.sec := rfl
@[simp] theorem keepMemory_pins (s t : State) : (keepMemory s t).pins = s.pins := rfl
@[simp] theorem keepMemory_beat (s t : State) : (keepMemory s t).beat = t.beat := rfl
@[simp] theorem keepMemory_wings (s t : State) : (keepMemory s t).wings = t.wings := rfl
@[simp] theorem keepMemory_work (s t : State) : (keepMemory s t).work = s.work := rfl
@[simp] theorem keepMemory_mem (s t : State) : (keepMemory s t).mem = t.mem := rfl
@[simp] theorem keepMemory_folio (s t : State) : (keepMemory s t).folio = s.folio := rfl
@[simp] theorem keepMemory_torus (s t : State) : (keepMemory s t).torus = s.torus := rfl
@[simp] theorem keepMemory_coll (s t : State) : (keepMemory s t).coll = s.coll := rfl
@[simp] theorem keepMemory_ship (s t : State) : (keepMemory s t).ship = s.ship := rfl
@[simp] theorem keepMemory_host (s t : State) : (keepMemory s t).host = t.host := rfl
@[simp] theorem keepMemory_power (s t : State) : (keepMemory s t).power = s.power := rfl
@[simp] theorem keepMemory_cur (s t : State) : (keepMemory s t).cur = t.cur := rfl

@[simp] theorem keepScrub_pending (s t : State) : (keepScrub s t).pending = s.pending := rfl
@[simp] theorem keepScrub_free (s t : State) : (keepScrub s t).free = t.free := rfl
@[simp] theorem keepScrub_out (s t : State) : (keepScrub s t).out = t.out := rfl
@[simp] theorem keepScrub_cat (s t : State) : (keepScrub s t).cat = t.cat := rfl
@[simp] theorem keepScrub_catSeal (s t : State) : (keepScrub s t).catSeal = t.catSeal := rfl
@[simp] theorem keepScrub_inUse (s t : State) : (keepScrub s t).inUse = s.inUse := rfl
@[simp] theorem keepScrub_doms (s t : State) : (keepScrub s t).doms = s.doms := rfl
@[simp] theorem keepScrub_server (s t : State) : (keepScrub s t).server = t.server := rfl
@[simp] theorem keepScrub_flash (s t : State) : (keepScrub s t).flash = t.flash := rfl
@[simp] theorem keepScrub_sec (s t : State) : (keepScrub s t).sec = s.sec := rfl
@[simp] theorem keepScrub_pins (s t : State) : (keepScrub s t).pins = s.pins := rfl
@[simp] theorem keepScrub_beat (s t : State) : (keepScrub s t).beat = t.beat := rfl
@[simp] theorem keepScrub_wings (s t : State) : (keepScrub s t).wings = t.wings := rfl
@[simp] theorem keepScrub_work (s t : State) : (keepScrub s t).work = s.work := rfl
@[simp] theorem keepScrub_mem (s t : State) : (keepScrub s t).mem = t.mem := rfl
@[simp] theorem keepScrub_folio (s t : State) : (keepScrub s t).folio = s.folio := rfl
@[simp] theorem keepScrub_torus (s t : State) : (keepScrub s t).torus = s.torus := rfl
@[simp] theorem keepScrub_coll (s t : State) : (keepScrub s t).coll = s.coll := rfl
@[simp] theorem keepScrub_ship (s t : State) : (keepScrub s t).ship = s.ship := rfl
@[simp] theorem keepScrub_host (s t : State) : (keepScrub s t).host = t.host := rfl
@[simp] theorem keepScrub_power (s t : State) : (keepScrub s t).power = t.power := rfl
@[simp] theorem keepScrub_cur (s t : State) : (keepScrub s t).cur = t.cur := rfl

@[simp] theorem keepLink_pending (s t : State) : (keepLink s t).pending = s.pending := rfl
@[simp] theorem keepLink_free (s t : State) : (keepLink s t).free = t.free := rfl
@[simp] theorem keepLink_out (s t : State) : (keepLink s t).out = t.out := rfl
@[simp] theorem keepLink_cat (s t : State) : (keepLink s t).cat = t.cat := rfl
@[simp] theorem keepLink_catSeal (s t : State) : (keepLink s t).catSeal = t.catSeal := rfl
@[simp] theorem keepLink_inUse (s t : State) : (keepLink s t).inUse = t.inUse := rfl
@[simp] theorem keepLink_doms (s t : State) : (keepLink s t).doms = s.doms := rfl
@[simp] theorem keepLink_server (s t : State) : (keepLink s t).server = t.server := rfl
@[simp] theorem keepLink_flash (s t : State) : (keepLink s t).flash = t.flash := rfl
@[simp] theorem keepLink_sec (s t : State) : (keepLink s t).sec = s.sec := rfl
@[simp] theorem keepLink_pins (s t : State) : (keepLink s t).pins = s.pins := rfl
@[simp] theorem keepLink_beat (s t : State) : (keepLink s t).beat = t.beat := rfl
@[simp] theorem keepLink_wings (s t : State) : (keepLink s t).wings = t.wings := rfl
@[simp] theorem keepLink_work (s t : State) : (keepLink s t).work = t.work := rfl
@[simp] theorem keepLink_mem (s t : State) : (keepLink s t).mem = keepRecords s.mem t.mem := rfl
@[simp] theorem keepLink_folio (s t : State) : (keepLink s t).folio = s.folio := rfl
@[simp] theorem keepLink_torus (s t : State) : (keepLink s t).torus = t.torus := rfl
@[simp] theorem keepLink_coll (s t : State) : (keepLink s t).coll = t.coll := rfl
@[simp] theorem keepLink_ship (s t : State) : (keepLink s t).ship = t.ship := rfl
@[simp] theorem keepLink_host (s t : State) : (keepLink s t).host = s.host := rfl
@[simp] theorem keepLink_power (s t : State) : (keepLink s t).power = t.power := rfl
@[simp] theorem keepLink_cur (s t : State) : (keepLink s t).cur = t.cur := rfl

@[simp] theorem keepPower_pending (s t : State) : (keepPower s t).pending = s.pending := rfl
@[simp] theorem keepPower_free (s t : State) : (keepPower s t).free = t.free := rfl
@[simp] theorem keepPower_out (s t : State) : (keepPower s t).out = t.out := rfl
@[simp] theorem keepPower_cat (s t : State) : (keepPower s t).cat = t.cat := rfl
@[simp] theorem keepPower_catSeal (s t : State) : (keepPower s t).catSeal = t.catSeal := rfl
@[simp] theorem keepPower_inUse (s t : State) : (keepPower s t).inUse = t.inUse := rfl
@[simp] theorem keepPower_doms (s t : State) : (keepPower s t).doms = s.doms := rfl
@[simp] theorem keepPower_server (s t : State) : (keepPower s t).server = t.server := rfl
@[simp] theorem keepPower_flash (s t : State) : (keepPower s t).flash = t.flash := rfl
@[simp] theorem keepPower_sec (s t : State) : (keepPower s t).sec = s.sec := rfl
@[simp] theorem keepPower_pins (s t : State) : (keepPower s t).pins = s.pins := rfl
@[simp] theorem keepPower_beat (s t : State) : (keepPower s t).beat = t.beat := rfl
@[simp] theorem keepPower_wings (s t : State) : (keepPower s t).wings = t.wings := rfl
@[simp] theorem keepPower_work (s t : State) : (keepPower s t).work = t.work := rfl
@[simp] theorem keepPower_mem (s t : State) : (keepPower s t).mem = t.mem := rfl
@[simp] theorem keepPower_folio (s t : State) : (keepPower s t).folio = s.folio := rfl
@[simp] theorem keepPower_torus (s t : State) : (keepPower s t).torus = s.torus := rfl
@[simp] theorem keepPower_coll (s t : State) : (keepPower s t).coll = s.coll := rfl
@[simp] theorem keepPower_ship (s t : State) : (keepPower s t).ship = t.ship := rfl
@[simp] theorem keepPower_host (s t : State) : (keepPower s t).host = t.host := rfl
@[simp] theorem keepPower_power (s t : State) : (keepPower s t).power = t.power := rfl
@[simp] theorem keepPower_cur (s t : State) : (keepPower s t).cur = t.cur := rfl

@[simp] theorem keepSensor_pending (s t : State) : (keepSensor s t).pending = s.pending := rfl
@[simp] theorem keepSensor_free (s t : State) : (keepSensor s t).free = t.free := rfl
@[simp] theorem keepSensor_out (s t : State) : (keepSensor s t).out = t.out := rfl
@[simp] theorem keepSensor_cat (s t : State) : (keepSensor s t).cat = t.cat := rfl
@[simp] theorem keepSensor_catSeal (s t : State) : (keepSensor s t).catSeal = t.catSeal := rfl
@[simp] theorem keepSensor_inUse (s t : State) : (keepSensor s t).inUse = t.inUse := rfl
@[simp] theorem keepSensor_doms (s t : State) : (keepSensor s t).doms = t.doms := rfl
@[simp] theorem keepSensor_server (s t : State) : (keepSensor s t).server = t.server := rfl
@[simp] theorem keepSensor_flash (s t : State) : (keepSensor s t).flash = t.flash := rfl
@[simp] theorem keepSensor_sec (s t : State) : (keepSensor s t).sec = s.sec := rfl
@[simp] theorem keepSensor_pins (s t : State) : (keepSensor s t).pins = s.pins := rfl
@[simp] theorem keepSensor_beat (s t : State) : (keepSensor s t).beat = t.beat := rfl
@[simp] theorem keepSensor_wings (s t : State) : (keepSensor s t).wings = t.wings := rfl
@[simp] theorem keepSensor_work (s t : State) : (keepSensor s t).work = t.work := rfl
@[simp] theorem keepSensor_mem (s t : State) : (keepSensor s t).mem = t.mem := rfl
@[simp] theorem keepSensor_folio (s t : State) : (keepSensor s t).folio = s.folio := rfl
@[simp] theorem keepSensor_torus (s t : State) : (keepSensor s t).torus = s.torus := rfl
@[simp] theorem keepSensor_coll (s t : State) : (keepSensor s t).coll = s.coll := rfl
@[simp] theorem keepSensor_ship (s t : State) : (keepSensor s t).ship = t.ship := rfl
@[simp] theorem keepSensor_host (s t : State) : (keepSensor s t).host = t.host := rfl
@[simp] theorem keepSensor_power (s t : State) : (keepSensor s t).power = t.power := rfl
@[simp] theorem keepSensor_cur (s t : State) : (keepSensor s t).cur = t.cur := rfl

@[simp] theorem keepHost_pending (s t : State) : (keepHost s t).pending = s.pending := rfl
@[simp] theorem keepHost_free (s t : State) : (keepHost s t).free = t.free := rfl
@[simp] theorem keepHost_out (s t : State) : (keepHost s t).out = t.out := rfl
@[simp] theorem keepHost_cat (s t : State) : (keepHost s t).cat = t.cat := rfl
@[simp] theorem keepHost_catSeal (s t : State) : (keepHost s t).catSeal = t.catSeal := rfl
@[simp] theorem keepHost_inUse (s t : State) : (keepHost s t).inUse = t.inUse := rfl
@[simp] theorem keepHost_doms (s t : State) : (keepHost s t).doms = t.doms := rfl
@[simp] theorem keepHost_server (s t : State) : (keepHost s t).server = t.server := rfl
@[simp] theorem keepHost_flash (s t : State) : (keepHost s t).flash = t.flash := rfl
@[simp] theorem keepHost_sec (s t : State) : (keepHost s t).sec = s.sec := rfl
@[simp] theorem keepHost_pins (s t : State) : (keepHost s t).pins = s.pins := rfl
@[simp] theorem keepHost_beat (s t : State) : (keepHost s t).beat = t.beat := rfl
@[simp] theorem keepHost_wings (s t : State) : (keepHost s t).wings = t.wings := rfl
@[simp] theorem keepHost_work (s t : State) : (keepHost s t).work = t.work := rfl
@[simp] theorem keepHost_mem (s t : State) : (keepHost s t).mem = t.mem := rfl
@[simp] theorem keepHost_folio (s t : State) : (keepHost s t).folio = t.folio := rfl
@[simp] theorem keepHost_torus (s t : State) : (keepHost s t).torus = s.torus := rfl
@[simp] theorem keepHost_coll (s t : State) : (keepHost s t).coll = t.coll := rfl
@[simp] theorem keepHost_ship (s t : State) : (keepHost s t).ship = t.ship := rfl
@[simp] theorem keepHost_host (s t : State) : (keepHost s t).host = t.host := rfl
@[simp] theorem keepHost_power (s t : State) : (keepHost s t).power = t.power := rfl
@[simp] theorem keepHost_cur (s t : State) : (keepHost s t).cur = t.cur := rfl

@[simp] theorem keepCatalogue_pending (s t : State) : (keepCatalogue s t).pending = s.pending := rfl
@[simp] theorem keepCatalogue_free (s t : State) : (keepCatalogue s t).free = t.free := rfl
@[simp] theorem keepCatalogue_out (s t : State) : (keepCatalogue s t).out = t.out := rfl
@[simp] theorem keepCatalogue_cat (s t : State) : (keepCatalogue s t).cat = t.cat := rfl
@[simp] theorem keepCatalogue_catSeal (s t : State) : (keepCatalogue s t).catSeal = t.catSeal := rfl
@[simp] theorem keepCatalogue_inUse (s t : State) : (keepCatalogue s t).inUse = t.inUse := rfl
@[simp] theorem keepCatalogue_doms (s t : State) : (keepCatalogue s t).doms = t.doms := rfl
@[simp] theorem keepCatalogue_server (s t : State) : (keepCatalogue s t).server = t.server := rfl
@[simp] theorem keepCatalogue_flash (s t : State) : (keepCatalogue s t).flash = t.flash := rfl
@[simp] theorem keepCatalogue_sec (s t : State) : (keepCatalogue s t).sec = s.sec := rfl
@[simp] theorem keepCatalogue_pins (s t : State) : (keepCatalogue s t).pins = s.pins := rfl
@[simp] theorem keepCatalogue_beat (s t : State) : (keepCatalogue s t).beat = t.beat := rfl
@[simp] theorem keepCatalogue_wings (s t : State) : (keepCatalogue s t).wings = t.wings := rfl
@[simp] theorem keepCatalogue_work (s t : State) : (keepCatalogue s t).work = t.work := rfl
@[simp] theorem keepCatalogue_mem (s t : State) : (keepCatalogue s t).mem = t.mem := rfl
@[simp] theorem keepCatalogue_folio (s t : State) : (keepCatalogue s t).folio = t.folio := rfl
@[simp] theorem keepCatalogue_torus (s t : State) : (keepCatalogue s t).torus = t.torus := rfl
@[simp] theorem keepCatalogue_coll (s t : State) : (keepCatalogue s t).coll = t.coll := rfl
@[simp] theorem keepCatalogue_ship (s t : State) : (keepCatalogue s t).ship = t.ship := rfl
@[simp] theorem keepCatalogue_host (s t : State) : (keepCatalogue s t).host = t.host := rfl
@[simp] theorem keepCatalogue_power (s t : State) : (keepCatalogue s t).power = t.power := rfl
@[simp] theorem keepCatalogue_cur (s t : State) : (keepCatalogue s t).cur = t.cur := rfl

@[simp] theorem keepQueue_pending (s t : State) : (keepQueue s t).pending = s.pending := rfl
@[simp] theorem keepQueue_free (s t : State) : (keepQueue s t).free = t.free := rfl
@[simp] theorem keepQueue_out (s t : State) : (keepQueue s t).out = t.out := rfl
@[simp] theorem keepQueue_cat (s t : State) : (keepQueue s t).cat = t.cat := rfl
@[simp] theorem keepQueue_catSeal (s t : State) : (keepQueue s t).catSeal = t.catSeal := rfl
@[simp] theorem keepQueue_inUse (s t : State) : (keepQueue s t).inUse = t.inUse := rfl
@[simp] theorem keepQueue_doms (s t : State) : (keepQueue s t).doms = t.doms := rfl
@[simp] theorem keepQueue_server (s t : State) : (keepQueue s t).server = t.server := rfl
@[simp] theorem keepQueue_flash (s t : State) : (keepQueue s t).flash = t.flash := rfl
@[simp] theorem keepQueue_sec (s t : State) : (keepQueue s t).sec = t.sec := rfl
@[simp] theorem keepQueue_pins (s t : State) : (keepQueue s t).pins = t.pins := rfl
@[simp] theorem keepQueue_beat (s t : State) : (keepQueue s t).beat = t.beat := rfl
@[simp] theorem keepQueue_wings (s t : State) : (keepQueue s t).wings = t.wings := rfl
@[simp] theorem keepQueue_work (s t : State) : (keepQueue s t).work = t.work := rfl
@[simp] theorem keepQueue_mem (s t : State) : (keepQueue s t).mem = t.mem := rfl
@[simp] theorem keepQueue_folio (s t : State) : (keepQueue s t).folio = t.folio := rfl
@[simp] theorem keepQueue_torus (s t : State) : (keepQueue s t).torus = t.torus := rfl
@[simp] theorem keepQueue_coll (s t : State) : (keepQueue s t).coll = t.coll := rfl
@[simp] theorem keepQueue_ship (s t : State) : (keepQueue s t).ship = t.ship := rfl
@[simp] theorem keepQueue_host (s t : State) : (keepQueue s t).host = t.host := rfl
@[simp] theorem keepQueue_power (s t : State) : (keepQueue s t).power = t.power := rfl
@[simp] theorem keepQueue_cur (s t : State) : (keepQueue s t).cur = t.cur := rfl

@[simp] theorem keepCollect_pending (s t : State) : (keepCollect s t).pending = s.pending := rfl
@[simp] theorem keepCollect_free (s t : State) : (keepCollect s t).free = t.free := rfl
@[simp] theorem keepCollect_out (s t : State) : (keepCollect s t).out = t.out := rfl
@[simp] theorem keepCollect_cat (s t : State) : (keepCollect s t).cat = t.cat := rfl
@[simp] theorem keepCollect_catSeal (s t : State) : (keepCollect s t).catSeal = t.catSeal := rfl
@[simp] theorem keepCollect_inUse (s t : State) : (keepCollect s t).inUse = s.inUse := rfl
@[simp] theorem keepCollect_doms (s t : State) : (keepCollect s t).doms = s.doms := rfl
@[simp] theorem keepCollect_server (s t : State) : (keepCollect s t).server = t.server := rfl
@[simp] theorem keepCollect_flash (s t : State) : (keepCollect s t).flash = t.flash := rfl
@[simp] theorem keepCollect_sec (s t : State) : (keepCollect s t).sec = s.sec := rfl
@[simp] theorem keepCollect_pins (s t : State) : (keepCollect s t).pins = s.pins := rfl
@[simp] theorem keepCollect_beat (s t : State) : (keepCollect s t).beat = t.beat := rfl
@[simp] theorem keepCollect_wings (s t : State) : (keepCollect s t).wings = t.wings := rfl
@[simp] theorem keepCollect_work (s t : State) : (keepCollect s t).work = t.work := rfl
@[simp] theorem keepCollect_mem (s t : State) : (keepCollect s t).mem = t.mem := rfl
@[simp] theorem keepCollect_folio (s t : State) : (keepCollect s t).folio = s.folio := rfl
@[simp] theorem keepCollect_torus (s t : State) : (keepCollect s t).torus = s.torus := rfl
@[simp] theorem keepCollect_coll (s t : State) : (keepCollect s t).coll = t.coll := rfl
@[simp] theorem keepCollect_ship (s t : State) : (keepCollect s t).ship = s.ship := rfl
@[simp] theorem keepCollect_host (s t : State) : (keepCollect s t).host = t.host := rfl
@[simp] theorem keepCollect_power (s t : State) : (keepCollect s t).power = t.power := rfl
@[simp] theorem keepCollect_cur (s t : State) : (keepCollect s t).cur = t.cur := rfl

@[simp] theorem keepRead_pending (s t : State) : (keepRead s t).pending = s.pending := rfl
@[simp] theorem keepRead_free (s t : State) : (keepRead s t).free = t.free := rfl
@[simp] theorem keepRead_out (s t : State) : (keepRead s t).out = t.out := rfl
@[simp] theorem keepRead_cat (s t : State) : (keepRead s t).cat = t.cat := rfl
@[simp] theorem keepRead_catSeal (s t : State) : (keepRead s t).catSeal = s.catSeal := rfl
@[simp] theorem keepRead_inUse (s t : State) : (keepRead s t).inUse = s.inUse := rfl
@[simp] theorem keepRead_doms (s t : State) : (keepRead s t).doms = s.doms := rfl
@[simp] theorem keepRead_server (s t : State) : (keepRead s t).server = t.server := rfl
@[simp] theorem keepRead_flash (s t : State) : (keepRead s t).flash = s.flash := rfl
@[simp] theorem keepRead_sec (s t : State) : (keepRead s t).sec = s.sec := rfl
@[simp] theorem keepRead_pins (s t : State) : (keepRead s t).pins = s.pins := rfl
@[simp] theorem keepRead_beat (s t : State) : (keepRead s t).beat = s.beat := rfl
@[simp] theorem keepRead_wings (s t : State) : (keepRead s t).wings = s.wings := rfl
@[simp] theorem keepRead_work (s t : State) : (keepRead s t).work = s.work := rfl
@[simp] theorem keepRead_mem (s t : State) : (keepRead s t).mem = s.mem := rfl
@[simp] theorem keepRead_folio (s t : State) : (keepRead s t).folio = s.folio := rfl
@[simp] theorem keepRead_torus (s t : State) : (keepRead s t).torus = s.torus := rfl
@[simp] theorem keepRead_coll (s t : State) : (keepRead s t).coll = s.coll := rfl
@[simp] theorem keepRead_ship (s t : State) : (keepRead s t).ship = s.ship := rfl
@[simp] theorem keepRead_host (s t : State) : (keepRead s t).host = s.host := rfl
@[simp] theorem keepRead_power (s t : State) : (keepRead s t).power = s.power := rfl
@[simp] theorem keepRead_cur (s t : State) : (keepRead s t).cur = { s.cur with cycles := t.cur.cycles } := rfl

@[simp] theorem keepPin_pending (s t : State) : (keepPin s t).pending = s.pending := rfl
@[simp] theorem keepPin_free (s t : State) : (keepPin s t).free = s.free := rfl
@[simp] theorem keepPin_out (s t : State) : (keepPin s t).out = s.out := rfl
@[simp] theorem keepPin_cat (s t : State) : (keepPin s t).cat = s.cat := rfl
@[simp] theorem keepPin_catSeal (s t : State) : (keepPin s t).catSeal = s.catSeal := rfl
@[simp] theorem keepPin_inUse (s t : State) : (keepPin s t).inUse = s.inUse := rfl
@[simp] theorem keepPin_doms (s t : State) : (keepPin s t).doms = s.doms := rfl
@[simp] theorem keepPin_server (s t : State) : (keepPin s t).server = s.server := rfl
@[simp] theorem keepPin_flash (s t : State) : (keepPin s t).flash = s.flash := rfl
@[simp] theorem keepPin_sec (s t : State) : (keepPin s t).sec = s.sec := rfl
@[simp] theorem keepPin_beat (s t : State) : (keepPin s t).beat = s.beat := rfl
@[simp] theorem keepPin_wings (s t : State) : (keepPin s t).wings = s.wings := rfl
@[simp] theorem keepPin_work (s t : State) : (keepPin s t).work = s.work := rfl
@[simp] theorem keepPin_mem (s t : State) : (keepPin s t).mem = s.mem := rfl
@[simp] theorem keepPin_folio (s t : State) : (keepPin s t).folio = s.folio := rfl
@[simp] theorem keepPin_torus (s t : State) : (keepPin s t).torus = s.torus := rfl
@[simp] theorem keepPin_coll (s t : State) : (keepPin s t).coll = s.coll := rfl
@[simp] theorem keepPin_ship (s t : State) : (keepPin s t).ship = s.ship := rfl
@[simp] theorem keepPin_host (s t : State) : (keepPin s t).host = s.host := rfl
@[simp] theorem keepPin_power (s t : State) : (keepPin s t).power = s.power := rfl
@[simp] theorem keepPin_cur (s t : State) : (keepPin s t).cur = s.cur := rfl

end Sys2Proof.Machine
end

