-- ==== Sys2Proof/Laws/SMap.lean ====
section
/-! SUPPORT. Laws of the sparse maps: a read after a write, and that every change keeps the canonical form. -/

namespace Sys2Proof.Machine

variable {α : Type}

@[simp] theorem mget_nil (d : α) (k : Nat) : mget d [] k = d := rfl

@[simp] theorem mget_mput_self (d : α) (m : SMap α) (k : Nat) (v : α) : mget d (mput m k v) k = v := by
  induction m with
  | nil => simp [mput, mget]
  | cons e t ih =>
    simp only [mput]
    split
    · simp [mget]
    · split
      · simp [mget]
      · next h1 h2 => simp [mget, h2, ih]

theorem mget_mput_ne (d : α) (m : SMap α) {k j : Nat} (v : α) (h : j ≠ k) : mget d (mput m k v) j = mget d m j := by
  induction m with
  | nil => simp [mput, mget, h]
  | cons e t ih =>
    simp only [mput]
    split
    · simp [mget, h]
    · split
      · next h2 => subst h2; simp [mget, h]
      · simp [mget, ih]

@[simp] theorem mget_mdel_self (d : α) (m : SMap α) (k : Nat) : mget d (mdel m k) k = d := by
  induction m with
  | nil => rfl
  | cons e t ih =>
    simp only [mdel]
    split
    · exact ih
    · next h => simp [mget, h, ih]

theorem mget_mdel_ne (d : α) (m : SMap α) {k j : Nat} (h : j ≠ k) : mget d (mdel m k) j = mget d m j := by
  induction m with
  | nil => rfl
  | cons e t ih =>
    simp only [mdel]
    split
    · next h2 => subst h2; simp [mget, h, ih]
    · simp [mget, ih]

section
variable [DecidableEq α]

@[simp] theorem mget_mset_self (d : α) (m : SMap α) (k : Nat) (v : α) : mget d (mset d m k v) k = v := by
  unfold mset; split
  · next h => simp [h]
  · simp

theorem mget_mset_ne (d : α) (m : SMap α) {k j : Nat} (v : α) (h : j ≠ k) : mget d (mset d m k v) j = mget d m j := by
  unfold mset; split
  · exact mget_mdel_ne d m h
  · exact mget_mput_ne d m v h

/-- A read after a write, in one equation. -/
theorem mget_mset (d : α) (m : SMap α) (k j : Nat) (v : α) :
    mget d (mset d m k v) j = if j = k then v else mget d m j := by
  split
  · next h => subst h; simp
  · next h => exact mget_mset_ne d m v h

/-- Writing back what is read changes no read. -/
theorem mget_mset_same (d : α) (m : SMap α) (k j : Nat) : mget d (mset d m k (mget d m k)) j = mget d m j := by
  rw [mget_mset]; split
  · next h => rw [h]
  · rfl

end

theorem mget_mdelRange (d : α) (m : SMap α) (lo hi k : Nat) :
    mget d (mdelRange m lo hi) k = if lo ≤ k ∧ k < hi then d else mget d m k := by
  induction m with
  | nil => simp [mdelRange]
  | cons e t ih =>
    simp only [mdelRange, List.filter_cons] at *
    by_cases he : lo ≤ e.1 ∧ e.1 < hi
    · simp only [he, decide_true, Bool.and_self, Bool.not_true, Bool.false_eq_true, if_false, ih, mget]
      split
      · rfl
      · next h =>
        split
        · next h2 => subst h2; exact absurd he h
        · rfl
    · have : (!(decide (lo ≤ e.1) && decide (e.1 < hi))) = true := by
        simp only [Bool.not_eq_true', Bool.and_eq_false_iff, decide_eq_false_iff_not]; omega
      simp only [this, if_true, mget, ih]
      split
      · next h2 => subst h2; simp [he]
      · rfl

/-! ### The canonical form -/

theorem keysAbove_mono {a b : Nat} (m : SMap α) (h : a ≤ b) (hb : keysAbove b m = true) : keysAbove a m = true := by
  cases m with
  | nil => rfl
  | cons e t => simp [keysAbove] at *; omega

theorem keysAbove_mput {a : Nat} (m : SMap α) (k : Nat) (v : α) (hm : keysAbove a m = true) (hk : a < k) :
    keysAbove a (mput m k v) = true := by
  cases m with
  | nil => simpa [mput, keysAbove] using hk
  | cons e t =>
    simp only [mput]; split
    · simpa [keysAbove] using hk
    · split
      · simpa [keysAbove] using hk
      · simpa [keysAbove] using hm

theorem mdel_eq_filter (m : SMap α) (k : Nat) : mdel m k = m.filter (fun e => decide (k ≠ e.1)) := by
  induction m with
  | nil => rfl
  | cons e t ih =>
    simp only [mdel, List.filter_cons, ih]
    split <;> simp_all

variable [DecidableEq α]

theorem mwf_keysAbove_tail (d : α) (k : Nat) (v : α) (t : SMap α) (h : mwf d ((k, v) :: t) = true) :
    v ≠ d ∧ keysAbove k t = true ∧ mwf d t = true := by
  simpa [mwf, and_assoc] using h

theorem mwf_mput (d : α) (m : SMap α) (k : Nat) (v : α) (hv : v ≠ d) (h : mwf d m = true) : mwf d (mput m k v) = true := by
  induction m with
  | nil => simp [mput, mwf, keysAbove, hv]
  | cons e t ih =>
    obtain ⟨h1, h2, h3⟩ := mwf_keysAbove_tail d e.1 e.2 t h
    simp only [mput]; split
    · next hlt =>
      have ha : keysAbove k (e :: t) = true := by simpa [keysAbove] using hlt
      simp only [mwf, h1, h2, h3, ha, hv, ne_eq, not_false_eq_true, decide_true, Bool.and_self]
    · split
      · next heq => simp [mwf, hv, heq, h2, h3]
      · next hlt hne => simp [mwf, h1, ih h3, keysAbove_mput t k v h2 (by omega)]

theorem keysAbove_filter (d : α) (p : Nat × α → Bool) : ∀ (m : SMap α) (a : Nat), keysAbove a m = true → mwf d m = true →
    keysAbove a (m.filter p) = true
  | [], _, _, _ => rfl
  | e :: t, a, ha, h => by
    obtain ⟨_, h2, h3⟩ := mwf_keysAbove_tail d e.1 e.2 t h
    rw [List.filter_cons]; split
    · exact ha
    · exact keysAbove_filter d p t a (keysAbove_mono t (by simp [keysAbove] at ha; omega) h2) h3

theorem mwf_filter (d : α) (p : Nat × α → Bool) : ∀ (m : SMap α), mwf d m = true → mwf d (m.filter p) = true
  | [], _ => rfl
  | e :: t, h => by
    obtain ⟨h1, h2, h3⟩ := mwf_keysAbove_tail d e.1 e.2 t h
    rw [List.filter_cons]; split
    · simp [mwf, h1, keysAbove_filter d p t e.1 h2 h3, mwf_filter d p t h3]
    · exact mwf_filter d p t h3

theorem mwf_mdel (d : α) (m : SMap α) (k : Nat) (h : mwf d m = true) : mwf d (mdel m k) = true := by
  rw [mdel_eq_filter]; exact mwf_filter d _ m h

/-- A write keeps the canonical form. -/
theorem mwf_mset (d : α) (m : SMap α) (k : Nat) (v : α) (h : mwf d m = true) : mwf d (mset d m k v) = true := by
  unfold mset; split
  · exact mwf_mdel d m k h
  · next hv => exact mwf_mput d m k v hv h

theorem mwf_mdelRange (d : α) (m : SMap α) (lo hi : Nat) (h : mwf d m = true) : mwf d (mdelRange m lo hi) = true :=
  mwf_filter d _ m h

omit [DecidableEq α] in
theorem rising_mput (m : SMap α) (k : Nat) (v : α) (h : rising m = true) : rising (mput m k v) = true := by
  induction m with
  | nil => rfl
  | cons e t ih =>
    have h' : keysAbove e.1 t = true ∧ rising t = true := by simpa [rising] using h
    simp only [mput]; split
    · next hlt =>
      have ha : keysAbove k (e :: t) = true := by simpa [keysAbove] using hlt
      simp only [rising, ha, h'.1, h'.2, Bool.and_self]
    · split
      · next heq => simp [rising, heq, h'.1, h'.2]
      · next hlt hne => simp [rising, ih h'.2, keysAbove_mput t k v h'.1 (by omega)]

omit [DecidableEq α] in
theorem keysAbove_filter' (p : Nat × α → Bool) : ∀ (m : SMap α) (a : Nat), keysAbove a m = true → rising m = true →
    keysAbove a (m.filter p) = true
  | [], _, _, _ => rfl
  | e :: t, a, ha, h => by
    have h' : keysAbove e.1 t = true ∧ rising t = true := by simpa [rising] using h
    rw [List.filter_cons]; split
    · exact ha
    · exact keysAbove_filter' p t a (keysAbove_mono t (by simp [keysAbove] at ha; omega) h'.1) h'.2

omit [DecidableEq α] in
theorem rising_filter (p : Nat × α → Bool) : ∀ (m : SMap α), rising m = true → rising (m.filter p) = true
  | [], _ => rfl
  | e :: t, h => by
    have h' : keysAbove e.1 t = true ∧ rising t = true := by simpa [rising] using h
    rw [List.filter_cons]; split
    · simp [rising, keysAbove_filter' p t e.1 h'.1 h'.2, rising_filter p t h'.2]
    · exact rising_filter p t h'.2

omit [DecidableEq α] in
theorem all_mput (q : Nat × α → Bool) (m : SMap α) (k : Nat) (v : α) (hq : q (k, v) = true) (h : m.all q = true) :
    (mput m k v).all q = true := by
  induction m with
  | nil => simpa [mput] using hq
  | cons e t ih =>
    have h' : q e = true ∧ t.all q = true := by simpa using h
    simp only [mput]; split
    · simp only [List.all_cons, hq, h'.1, h'.2, Bool.and_self]
    · split
      · simp only [List.all_cons, hq, h'.2, Bool.and_self]
      · simp only [List.all_cons, h'.1, ih h'.2, Bool.and_self]

omit [DecidableEq α] in
theorem all_filter (q p : Nat × α → Bool) (m : SMap α) (h : m.all q = true) : (m.filter p).all q = true := by
  rw [List.all_eq_true] at *
  intro x hx
  exact h x (List.mem_filter.mp hx).1

end Sys2Proof.Machine
end

