-- ==== Sys2Proof/Laws/State.lean ====
section
/-! SUPPORT. The parts of the state that the shared operations leave alone, one lemma for each part and operation, and what reads of Catalogue values, wings, sequencers, cores and rings give after a write. -/

namespace Sys2Proof.Machine

open Sys2Proof

/-- A fold of operations that keep a part of the state keeps it. -/
theorem foldl_keeps {α β : Type} (p : State → α) (f : State → β → State) (l : List β)
    (h : ∀ t x, p (f t x) = p t) : ∀ s, p (l.foldl f s) = p s := by
  induction l with
  | nil => intro s; rfl
  | cons x xs ih => intro s; rw [List.foldl_cons, ih, h]


@[simp] theorem State.setObj_pending (s : State) (acc sub v : Nat) : (s.setObj acc sub v).pending = s.pending := rfl
@[simp] theorem State.setObj_free (s : State) (acc sub v : Nat) : (s.setObj acc sub v).free = s.free := rfl
@[simp] theorem State.setObj_out (s : State) (acc sub v : Nat) : (s.setObj acc sub v).out = s.out := rfl
@[simp] theorem State.setObj_catSeal (s : State) (acc sub v : Nat) : (s.setObj acc sub v).catSeal = s.catSeal := rfl
@[simp] theorem State.setObj_inUse (s : State) (acc sub v : Nat) : (s.setObj acc sub v).inUse = s.inUse := rfl
@[simp] theorem State.setObj_doms (s : State) (acc sub v : Nat) : (s.setObj acc sub v).doms = s.doms := rfl
@[simp] theorem State.setObj_server (s : State) (acc sub v : Nat) : (s.setObj acc sub v).server = s.server := rfl
@[simp] theorem State.setObj_flash (s : State) (acc sub v : Nat) : (s.setObj acc sub v).flash = s.flash := rfl
@[simp] theorem State.setObj_sec (s : State) (acc sub v : Nat) : (s.setObj acc sub v).sec = s.sec := rfl
@[simp] theorem State.setObj_pins (s : State) (acc sub v : Nat) : (s.setObj acc sub v).pins = s.pins := rfl
@[simp] theorem State.setObj_beat (s : State) (acc sub v : Nat) : (s.setObj acc sub v).beat = s.beat := rfl
@[simp] theorem State.setObj_wings (s : State) (acc sub v : Nat) : (s.setObj acc sub v).wings = s.wings := rfl
@[simp] theorem State.setObj_work (s : State) (acc sub v : Nat) : (s.setObj acc sub v).work = s.work := rfl
@[simp] theorem State.setObj_mem (s : State) (acc sub v : Nat) : (s.setObj acc sub v).mem = s.mem := rfl
@[simp] theorem State.setObj_folio (s : State) (acc sub v : Nat) : (s.setObj acc sub v).folio = s.folio := rfl
@[simp] theorem State.setObj_torus (s : State) (acc sub v : Nat) : (s.setObj acc sub v).torus = s.torus := rfl
@[simp] theorem State.setObj_coll (s : State) (acc sub v : Nat) : (s.setObj acc sub v).coll = s.coll := rfl
@[simp] theorem State.setObj_ship (s : State) (acc sub v : Nat) : (s.setObj acc sub v).ship = s.ship := rfl
@[simp] theorem State.setObj_host (s : State) (acc sub v : Nat) : (s.setObj acc sub v).host = s.host := rfl
@[simp] theorem State.setObj_power (s : State) (acc sub v : Nat) : (s.setObj acc sub v).power = s.power := rfl
@[simp] theorem State.setObj_cur (s : State) (acc sub v : Nat) : (s.setObj acc sub v).cur = s.cur := rfl

@[simp] theorem State.setWing_pending (s : State) (w : Nat) (v : Wing) : (s.setWing w v).pending = s.pending := rfl
@[simp] theorem State.setWing_free (s : State) (w : Nat) (v : Wing) : (s.setWing w v).free = s.free := rfl
@[simp] theorem State.setWing_out (s : State) (w : Nat) (v : Wing) : (s.setWing w v).out = s.out := rfl
@[simp] theorem State.setWing_cat (s : State) (w : Nat) (v : Wing) : (s.setWing w v).cat = s.cat := rfl
@[simp] theorem State.setWing_catSeal (s : State) (w : Nat) (v : Wing) : (s.setWing w v).catSeal = s.catSeal := rfl
@[simp] theorem State.setWing_inUse (s : State) (w : Nat) (v : Wing) : (s.setWing w v).inUse = s.inUse := rfl
@[simp] theorem State.setWing_doms (s : State) (w : Nat) (v : Wing) : (s.setWing w v).doms = s.doms := rfl
@[simp] theorem State.setWing_server (s : State) (w : Nat) (v : Wing) : (s.setWing w v).server = s.server := rfl
@[simp] theorem State.setWing_flash (s : State) (w : Nat) (v : Wing) : (s.setWing w v).flash = s.flash := rfl
@[simp] theorem State.setWing_sec (s : State) (w : Nat) (v : Wing) : (s.setWing w v).sec = s.sec := rfl
@[simp] theorem State.setWing_pins (s : State) (w : Nat) (v : Wing) : (s.setWing w v).pins = s.pins := rfl
@[simp] theorem State.setWing_beat (s : State) (w : Nat) (v : Wing) : (s.setWing w v).beat = s.beat := rfl
@[simp] theorem State.setWing_work (s : State) (w : Nat) (v : Wing) : (s.setWing w v).work = s.work := rfl
@[simp] theorem State.setWing_mem (s : State) (w : Nat) (v : Wing) : (s.setWing w v).mem = s.mem := rfl
@[simp] theorem State.setWing_folio (s : State) (w : Nat) (v : Wing) : (s.setWing w v).folio = s.folio := rfl
@[simp] theorem State.setWing_torus (s : State) (w : Nat) (v : Wing) : (s.setWing w v).torus = s.torus := rfl
@[simp] theorem State.setWing_coll (s : State) (w : Nat) (v : Wing) : (s.setWing w v).coll = s.coll := rfl
@[simp] theorem State.setWing_ship (s : State) (w : Nat) (v : Wing) : (s.setWing w v).ship = s.ship := rfl
@[simp] theorem State.setWing_host (s : State) (w : Nat) (v : Wing) : (s.setWing w v).host = s.host := rfl
@[simp] theorem State.setWing_power (s : State) (w : Nat) (v : Wing) : (s.setWing w v).power = s.power := rfl
@[simp] theorem State.setWing_cur (s : State) (w : Nat) (v : Wing) : (s.setWing w v).cur = s.cur := rfl

@[simp] theorem State.send_pending (s : State) (o : Out) : (s.send o).pending = s.pending := rfl
@[simp] theorem State.send_free (s : State) (o : Out) : (s.send o).free = s.free := rfl
@[simp] theorem State.send_cat (s : State) (o : Out) : (s.send o).cat = s.cat := rfl
@[simp] theorem State.send_catSeal (s : State) (o : Out) : (s.send o).catSeal = s.catSeal := rfl
@[simp] theorem State.send_inUse (s : State) (o : Out) : (s.send o).inUse = s.inUse := rfl
@[simp] theorem State.send_doms (s : State) (o : Out) : (s.send o).doms = s.doms := rfl
@[simp] theorem State.send_server (s : State) (o : Out) : (s.send o).server = s.server := rfl
@[simp] theorem State.send_flash (s : State) (o : Out) : (s.send o).flash = s.flash := rfl
@[simp] theorem State.send_sec (s : State) (o : Out) : (s.send o).sec = s.sec := rfl
@[simp] theorem State.send_pins (s : State) (o : Out) : (s.send o).pins = s.pins := rfl
@[simp] theorem State.send_beat (s : State) (o : Out) : (s.send o).beat = s.beat := rfl
@[simp] theorem State.send_wings (s : State) (o : Out) : (s.send o).wings = s.wings := rfl
@[simp] theorem State.send_work (s : State) (o : Out) : (s.send o).work = s.work := rfl
@[simp] theorem State.send_mem (s : State) (o : Out) : (s.send o).mem = s.mem := rfl
@[simp] theorem State.send_folio (s : State) (o : Out) : (s.send o).folio = s.folio := rfl
@[simp] theorem State.send_torus (s : State) (o : Out) : (s.send o).torus = s.torus := rfl
@[simp] theorem State.send_coll (s : State) (o : Out) : (s.send o).coll = s.coll := rfl
@[simp] theorem State.send_ship (s : State) (o : Out) : (s.send o).ship = s.ship := rfl
@[simp] theorem State.send_host (s : State) (o : Out) : (s.send o).host = s.host := rfl
@[simp] theorem State.send_power (s : State) (o : Out) : (s.send o).power = s.power := rfl
@[simp] theorem State.send_cur (s : State) (o : Out) : (s.send o).cur = s.cur := rfl

@[simp] theorem State.courier_pending (s : State) (d : Option Nat) (m : Courier) : (s.courier d m).pending = s.pending := rfl
@[simp] theorem State.courier_free (s : State) (d : Option Nat) (m : Courier) : (s.courier d m).free = s.free := rfl
@[simp] theorem State.courier_cat (s : State) (d : Option Nat) (m : Courier) : (s.courier d m).cat = s.cat := rfl
@[simp] theorem State.courier_catSeal (s : State) (d : Option Nat) (m : Courier) : (s.courier d m).catSeal = s.catSeal := rfl
@[simp] theorem State.courier_inUse (s : State) (d : Option Nat) (m : Courier) : (s.courier d m).inUse = s.inUse := rfl
@[simp] theorem State.courier_doms (s : State) (d : Option Nat) (m : Courier) : (s.courier d m).doms = s.doms := rfl
@[simp] theorem State.courier_server (s : State) (d : Option Nat) (m : Courier) : (s.courier d m).server = s.server := rfl
@[simp] theorem State.courier_flash (s : State) (d : Option Nat) (m : Courier) : (s.courier d m).flash = s.flash := rfl
@[simp] theorem State.courier_sec (s : State) (d : Option Nat) (m : Courier) : (s.courier d m).sec = s.sec := rfl
@[simp] theorem State.courier_pins (s : State) (d : Option Nat) (m : Courier) : (s.courier d m).pins = s.pins := rfl
@[simp] theorem State.courier_beat (s : State) (d : Option Nat) (m : Courier) : (s.courier d m).beat = s.beat := rfl
@[simp] theorem State.courier_wings (s : State) (d : Option Nat) (m : Courier) : (s.courier d m).wings = s.wings := rfl
@[simp] theorem State.courier_work (s : State) (d : Option Nat) (m : Courier) : (s.courier d m).work = s.work := rfl
@[simp] theorem State.courier_mem (s : State) (d : Option Nat) (m : Courier) : (s.courier d m).mem = s.mem := rfl
@[simp] theorem State.courier_folio (s : State) (d : Option Nat) (m : Courier) : (s.courier d m).folio = s.folio := rfl
@[simp] theorem State.courier_torus (s : State) (d : Option Nat) (m : Courier) : (s.courier d m).torus = s.torus := rfl
@[simp] theorem State.courier_coll (s : State) (d : Option Nat) (m : Courier) : (s.courier d m).coll = s.coll := rfl
@[simp] theorem State.courier_ship (s : State) (d : Option Nat) (m : Courier) : (s.courier d m).ship = s.ship := rfl
@[simp] theorem State.courier_host (s : State) (d : Option Nat) (m : Courier) : (s.courier d m).host = s.host := rfl
@[simp] theorem State.courier_power (s : State) (d : Option Nat) (m : Courier) : (s.courier d m).power = s.power := rfl
@[simp] theorem State.courier_cur (s : State) (d : Option Nat) (m : Courier) : (s.courier d m).cur = s.cur := rfl

@[simp] theorem State.draw_pending (s : State) : (s.draw.2).pending = s.pending := rfl
@[simp] theorem State.draw_out (s : State) : (s.draw.2).out = s.out := rfl
@[simp] theorem State.draw_cat (s : State) : (s.draw.2).cat = s.cat := rfl
@[simp] theorem State.draw_catSeal (s : State) : (s.draw.2).catSeal = s.catSeal := rfl
@[simp] theorem State.draw_inUse (s : State) : (s.draw.2).inUse = s.inUse := rfl
@[simp] theorem State.draw_doms (s : State) : (s.draw.2).doms = s.doms := rfl
@[simp] theorem State.draw_server (s : State) : (s.draw.2).server = s.server := rfl
@[simp] theorem State.draw_flash (s : State) : (s.draw.2).flash = s.flash := rfl
@[simp] theorem State.draw_sec (s : State) : (s.draw.2).sec = s.sec := rfl
@[simp] theorem State.draw_pins (s : State) : (s.draw.2).pins = s.pins := rfl
@[simp] theorem State.draw_beat (s : State) : (s.draw.2).beat = s.beat := rfl
@[simp] theorem State.draw_wings (s : State) : (s.draw.2).wings = s.wings := rfl
@[simp] theorem State.draw_work (s : State) : (s.draw.2).work = s.work := rfl
@[simp] theorem State.draw_mem (s : State) : (s.draw.2).mem = s.mem := rfl
@[simp] theorem State.draw_folio (s : State) : (s.draw.2).folio = s.folio := rfl
@[simp] theorem State.draw_torus (s : State) : (s.draw.2).torus = s.torus := rfl
@[simp] theorem State.draw_coll (s : State) : (s.draw.2).coll = s.coll := rfl
@[simp] theorem State.draw_ship (s : State) : (s.draw.2).ship = s.ship := rfl
@[simp] theorem State.draw_host (s : State) : (s.draw.2).host = s.host := rfl
@[simp] theorem State.draw_power (s : State) : (s.draw.2).power = s.power := rfl
@[simp] theorem State.draw_cur (s : State) : (s.draw.2).cur = s.cur := rfl

@[simp] theorem State.random_pending (s : State) (n : Nat) : ((s.random n).2).pending = s.pending := rfl
@[simp] theorem State.random_out (s : State) (n : Nat) : ((s.random n).2).out = s.out := rfl
@[simp] theorem State.random_cat (s : State) (n : Nat) : ((s.random n).2).cat = s.cat := rfl
@[simp] theorem State.random_catSeal (s : State) (n : Nat) : ((s.random n).2).catSeal = s.catSeal := rfl
@[simp] theorem State.random_inUse (s : State) (n : Nat) : ((s.random n).2).inUse = s.inUse := rfl
@[simp] theorem State.random_doms (s : State) (n : Nat) : ((s.random n).2).doms = s.doms := rfl
@[simp] theorem State.random_server (s : State) (n : Nat) : ((s.random n).2).server = s.server := rfl
@[simp] theorem State.random_flash (s : State) (n : Nat) : ((s.random n).2).flash = s.flash := rfl
@[simp] theorem State.random_sec (s : State) (n : Nat) : ((s.random n).2).sec = s.sec := rfl
@[simp] theorem State.random_pins (s : State) (n : Nat) : ((s.random n).2).pins = s.pins := rfl
@[simp] theorem State.random_beat (s : State) (n : Nat) : ((s.random n).2).beat = s.beat := rfl
@[simp] theorem State.random_wings (s : State) (n : Nat) : ((s.random n).2).wings = s.wings := rfl
@[simp] theorem State.random_work (s : State) (n : Nat) : ((s.random n).2).work = s.work := rfl
@[simp] theorem State.random_mem (s : State) (n : Nat) : ((s.random n).2).mem = s.mem := rfl
@[simp] theorem State.random_folio (s : State) (n : Nat) : ((s.random n).2).folio = s.folio := rfl
@[simp] theorem State.random_torus (s : State) (n : Nat) : ((s.random n).2).torus = s.torus := rfl
@[simp] theorem State.random_coll (s : State) (n : Nat) : ((s.random n).2).coll = s.coll := rfl
@[simp] theorem State.random_ship (s : State) (n : Nat) : ((s.random n).2).ship = s.ship := rfl
@[simp] theorem State.random_host (s : State) (n : Nat) : ((s.random n).2).host = s.host := rfl
@[simp] theorem State.random_power (s : State) (n : Nat) : ((s.random n).2).power = s.power := rfl
@[simp] theorem State.random_cur (s : State) (n : Nat) : ((s.random n).2).cur = s.cur := rfl

@[simp] theorem State.persist_pending (s : State) (acc sub v : Nat) : (s.persist acc sub v).pending = s.pending := rfl
@[simp] theorem State.persist_free (s : State) (acc sub v : Nat) : (s.persist acc sub v).free = s.free := rfl
@[simp] theorem State.persist_out (s : State) (acc sub v : Nat) : (s.persist acc sub v).out = s.out := rfl
@[simp] theorem State.persist_catSeal (s : State) (acc sub v : Nat) : (s.persist acc sub v).catSeal = s.catSeal := rfl
@[simp] theorem State.persist_inUse (s : State) (acc sub v : Nat) : (s.persist acc sub v).inUse = s.inUse := rfl
@[simp] theorem State.persist_doms (s : State) (acc sub v : Nat) : (s.persist acc sub v).doms = s.doms := rfl
@[simp] theorem State.persist_server (s : State) (acc sub v : Nat) : (s.persist acc sub v).server = s.server := rfl
@[simp] theorem State.persist_sec (s : State) (acc sub v : Nat) : (s.persist acc sub v).sec = s.sec := rfl
@[simp] theorem State.persist_pins (s : State) (acc sub v : Nat) : (s.persist acc sub v).pins = s.pins := rfl
@[simp] theorem State.persist_beat (s : State) (acc sub v : Nat) : (s.persist acc sub v).beat = s.beat := rfl
@[simp] theorem State.persist_wings (s : State) (acc sub v : Nat) : (s.persist acc sub v).wings = s.wings := rfl
@[simp] theorem State.persist_work (s : State) (acc sub v : Nat) : (s.persist acc sub v).work = s.work := rfl
@[simp] theorem State.persist_mem (s : State) (acc sub v : Nat) : (s.persist acc sub v).mem = s.mem := rfl
@[simp] theorem State.persist_folio (s : State) (acc sub v : Nat) : (s.persist acc sub v).folio = s.folio := rfl
@[simp] theorem State.persist_torus (s : State) (acc sub v : Nat) : (s.persist acc sub v).torus = s.torus := rfl
@[simp] theorem State.persist_coll (s : State) (acc sub v : Nat) : (s.persist acc sub v).coll = s.coll := rfl
@[simp] theorem State.persist_ship (s : State) (acc sub v : Nat) : (s.persist acc sub v).ship = s.ship := rfl
@[simp] theorem State.persist_host (s : State) (acc sub v : Nat) : (s.persist acc sub v).host = s.host := rfl
@[simp] theorem State.persist_power (s : State) (acc sub v : Nat) : (s.persist acc sub v).power = s.power := rfl
@[simp] theorem State.persist_cur (s : State) (acc sub v : Nat) : (s.persist acc sub v).cur = s.cur := rfl

@[simp] theorem State.setWindow_pending (s : State) (fn : Nat) (w : Window) : (s.setWindow fn w).pending = s.pending := rfl
@[simp] theorem State.setWindow_free (s : State) (fn : Nat) (w : Window) : (s.setWindow fn w).free = s.free := rfl
@[simp] theorem State.setWindow_out (s : State) (fn : Nat) (w : Window) : (s.setWindow fn w).out = s.out := rfl
@[simp] theorem State.setWindow_cat (s : State) (fn : Nat) (w : Window) : (s.setWindow fn w).cat = s.cat := rfl
@[simp] theorem State.setWindow_catSeal (s : State) (fn : Nat) (w : Window) : (s.setWindow fn w).catSeal = s.catSeal := rfl
@[simp] theorem State.setWindow_inUse (s : State) (fn : Nat) (w : Window) : (s.setWindow fn w).inUse = s.inUse := rfl
@[simp] theorem State.setWindow_doms (s : State) (fn : Nat) (w : Window) : (s.setWindow fn w).doms = s.doms := rfl
@[simp] theorem State.setWindow_flash (s : State) (fn : Nat) (w : Window) : (s.setWindow fn w).flash = s.flash := rfl
@[simp] theorem State.setWindow_sec (s : State) (fn : Nat) (w : Window) : (s.setWindow fn w).sec = s.sec := rfl
@[simp] theorem State.setWindow_pins (s : State) (fn : Nat) (w : Window) : (s.setWindow fn w).pins = s.pins := rfl
@[simp] theorem State.setWindow_beat (s : State) (fn : Nat) (w : Window) : (s.setWindow fn w).beat = s.beat := rfl
@[simp] theorem State.setWindow_wings (s : State) (fn : Nat) (w : Window) : (s.setWindow fn w).wings = s.wings := rfl
@[simp] theorem State.setWindow_work (s : State) (fn : Nat) (w : Window) : (s.setWindow fn w).work = s.work := rfl
@[simp] theorem State.setWindow_mem (s : State) (fn : Nat) (w : Window) : (s.setWindow fn w).mem = s.mem := rfl
@[simp] theorem State.setWindow_folio (s : State) (fn : Nat) (w : Window) : (s.setWindow fn w).folio = s.folio := rfl
@[simp] theorem State.setWindow_torus (s : State) (fn : Nat) (w : Window) : (s.setWindow fn w).torus = s.torus := rfl
@[simp] theorem State.setWindow_coll (s : State) (fn : Nat) (w : Window) : (s.setWindow fn w).coll = s.coll := rfl
@[simp] theorem State.setWindow_ship (s : State) (fn : Nat) (w : Window) : (s.setWindow fn w).ship = s.ship := rfl
@[simp] theorem State.setWindow_host (s : State) (fn : Nat) (w : Window) : (s.setWindow fn w).host = s.host := rfl
@[simp] theorem State.setWindow_power (s : State) (fn : Nat) (w : Window) : (s.setWindow fn w).power = s.power := rfl
@[simp] theorem State.setWindow_cur (s : State) (fn : Nat) (w : Window) : (s.setWindow fn w).cur = s.cur := rfl

@[simp] theorem State.withhold_pending (s : State) (code : Nat) : (s.withhold code).pending = s.pending := rfl
@[simp] theorem State.withhold_free (s : State) (code : Nat) : (s.withhold code).free = s.free := rfl
@[simp] theorem State.withhold_out (s : State) (code : Nat) : (s.withhold code).out = s.out := rfl
@[simp] theorem State.withhold_cat (s : State) (code : Nat) : (s.withhold code).cat = s.cat := rfl
@[simp] theorem State.withhold_catSeal (s : State) (code : Nat) : (s.withhold code).catSeal = s.catSeal := rfl
@[simp] theorem State.withhold_inUse (s : State) (code : Nat) : (s.withhold code).inUse = s.inUse := rfl
@[simp] theorem State.withhold_doms (s : State) (code : Nat) : (s.withhold code).doms = s.doms := rfl
@[simp] theorem State.withhold_server (s : State) (code : Nat) : (s.withhold code).server = s.server := rfl
@[simp] theorem State.withhold_flash (s : State) (code : Nat) : (s.withhold code).flash = s.flash := rfl
@[simp] theorem State.withhold_sec (s : State) (code : Nat) : (s.withhold code).sec = s.sec := rfl
@[simp] theorem State.withhold_pins (s : State) (code : Nat) : (s.withhold code).pins = s.pins := rfl
@[simp] theorem State.withhold_beat (s : State) (code : Nat) : (s.withhold code).beat = s.beat := rfl
@[simp] theorem State.withhold_wings (s : State) (code : Nat) : (s.withhold code).wings = s.wings := rfl
@[simp] theorem State.withhold_work (s : State) (code : Nat) : (s.withhold code).work = s.work := rfl
@[simp] theorem State.withhold_mem (s : State) (code : Nat) : (s.withhold code).mem = s.mem := rfl
@[simp] theorem State.withhold_folio (s : State) (code : Nat) : (s.withhold code).folio = s.folio := rfl
@[simp] theorem State.withhold_torus (s : State) (code : Nat) : (s.withhold code).torus = s.torus := rfl
@[simp] theorem State.withhold_coll (s : State) (code : Nat) : (s.withhold code).coll = s.coll := rfl
@[simp] theorem State.withhold_ship (s : State) (code : Nat) : (s.withhold code).ship = s.ship := rfl
@[simp] theorem State.withhold_host (s : State) (code : Nat) : (s.withhold code).host = s.host := rfl
@[simp] theorem State.withhold_power (s : State) (code : Nat) : (s.withhold code).power = s.power := rfl

@[simp] theorem State.failCheck_pending (s : State) (k : Check) : (s.failCheck k).pending = s.pending := rfl
@[simp] theorem State.failCheck_free (s : State) (k : Check) : (s.failCheck k).free = s.free := rfl
@[simp] theorem State.failCheck_out (s : State) (k : Check) : (s.failCheck k).out = s.out := rfl
@[simp] theorem State.failCheck_cat (s : State) (k : Check) : (s.failCheck k).cat = s.cat := rfl
@[simp] theorem State.failCheck_catSeal (s : State) (k : Check) : (s.failCheck k).catSeal = s.catSeal := rfl
@[simp] theorem State.failCheck_inUse (s : State) (k : Check) : (s.failCheck k).inUse = s.inUse := rfl
@[simp] theorem State.failCheck_doms (s : State) (k : Check) : (s.failCheck k).doms = s.doms := rfl
@[simp] theorem State.failCheck_server (s : State) (k : Check) : (s.failCheck k).server = s.server := rfl
@[simp] theorem State.failCheck_flash (s : State) (k : Check) : (s.failCheck k).flash = s.flash := rfl
@[simp] theorem State.failCheck_sec (s : State) (k : Check) : (s.failCheck k).sec = s.sec := rfl
@[simp] theorem State.failCheck_pins (s : State) (k : Check) : (s.failCheck k).pins = s.pins := rfl
@[simp] theorem State.failCheck_wings (s : State) (k : Check) : (s.failCheck k).wings = s.wings := rfl
@[simp] theorem State.failCheck_work (s : State) (k : Check) : (s.failCheck k).work = s.work := rfl
@[simp] theorem State.failCheck_mem (s : State) (k : Check) : (s.failCheck k).mem = s.mem := rfl
@[simp] theorem State.failCheck_folio (s : State) (k : Check) : (s.failCheck k).folio = s.folio := rfl
@[simp] theorem State.failCheck_torus (s : State) (k : Check) : (s.failCheck k).torus = s.torus := rfl
@[simp] theorem State.failCheck_coll (s : State) (k : Check) : (s.failCheck k).coll = s.coll := rfl
@[simp] theorem State.failCheck_ship (s : State) (k : Check) : (s.failCheck k).ship = s.ship := rfl
@[simp] theorem State.failCheck_host (s : State) (k : Check) : (s.failCheck k).host = s.host := rfl
@[simp] theorem State.failCheck_power (s : State) (k : Check) : (s.failCheck k).power = s.power := rfl
@[simp] theorem State.failCheck_cur (s : State) (k : Check) : (s.failCheck k).cur = s.cur := rfl

@[simp] theorem State.setSeq_pending (s : State) (h sl : Nat) (q : Seq) : (s.setSeq h sl q).pending = s.pending := rfl
@[simp] theorem State.setSeq_free (s : State) (h sl : Nat) (q : Seq) : (s.setSeq h sl q).free = s.free := rfl
@[simp] theorem State.setSeq_out (s : State) (h sl : Nat) (q : Seq) : (s.setSeq h sl q).out = s.out := rfl
@[simp] theorem State.setSeq_cat (s : State) (h sl : Nat) (q : Seq) : (s.setSeq h sl q).cat = s.cat := rfl
@[simp] theorem State.setSeq_catSeal (s : State) (h sl : Nat) (q : Seq) : (s.setSeq h sl q).catSeal = s.catSeal := rfl
@[simp] theorem State.setSeq_inUse (s : State) (h sl : Nat) (q : Seq) : (s.setSeq h sl q).inUse = s.inUse := rfl
@[simp] theorem State.setSeq_doms (s : State) (h sl : Nat) (q : Seq) : (s.setSeq h sl q).doms = s.doms := rfl
@[simp] theorem State.setSeq_server (s : State) (h sl : Nat) (q : Seq) : (s.setSeq h sl q).server = s.server := rfl
@[simp] theorem State.setSeq_flash (s : State) (h sl : Nat) (q : Seq) : (s.setSeq h sl q).flash = s.flash := rfl
@[simp] theorem State.setSeq_sec (s : State) (h sl : Nat) (q : Seq) : (s.setSeq h sl q).sec = s.sec := rfl
@[simp] theorem State.setSeq_pins (s : State) (h sl : Nat) (q : Seq) : (s.setSeq h sl q).pins = s.pins := rfl
@[simp] theorem State.setSeq_beat (s : State) (h sl : Nat) (q : Seq) : (s.setSeq h sl q).beat = s.beat := rfl
@[simp] theorem State.setSeq_wings (s : State) (h sl : Nat) (q : Seq) : (s.setSeq h sl q).wings = s.wings := rfl
@[simp] theorem State.setSeq_mem (s : State) (h sl : Nat) (q : Seq) : (s.setSeq h sl q).mem = s.mem := rfl
@[simp] theorem State.setSeq_folio (s : State) (h sl : Nat) (q : Seq) : (s.setSeq h sl q).folio = s.folio := rfl
@[simp] theorem State.setSeq_torus (s : State) (h sl : Nat) (q : Seq) : (s.setSeq h sl q).torus = s.torus := rfl
@[simp] theorem State.setSeq_coll (s : State) (h sl : Nat) (q : Seq) : (s.setSeq h sl q).coll = s.coll := rfl
@[simp] theorem State.setSeq_ship (s : State) (h sl : Nat) (q : Seq) : (s.setSeq h sl q).ship = s.ship := rfl
@[simp] theorem State.setSeq_host (s : State) (h sl : Nat) (q : Seq) : (s.setSeq h sl q).host = s.host := rfl
@[simp] theorem State.setSeq_power (s : State) (h sl : Nat) (q : Seq) : (s.setSeq h sl q).power = s.power := rfl
@[simp] theorem State.setSeq_cur (s : State) (h sl : Nat) (q : Seq) : (s.setSeq h sl q).cur = s.cur := rfl

@[simp] theorem State.setEngine_pending (s : State) (h sl : Nat) (e : Engine) : (s.setEngine h sl e).pending = s.pending := rfl
@[simp] theorem State.setEngine_free (s : State) (h sl : Nat) (e : Engine) : (s.setEngine h sl e).free = s.free := rfl
@[simp] theorem State.setEngine_out (s : State) (h sl : Nat) (e : Engine) : (s.setEngine h sl e).out = s.out := rfl
@[simp] theorem State.setEngine_cat (s : State) (h sl : Nat) (e : Engine) : (s.setEngine h sl e).cat = s.cat := rfl
@[simp] theorem State.setEngine_catSeal (s : State) (h sl : Nat) (e : Engine) : (s.setEngine h sl e).catSeal = s.catSeal := rfl
@[simp] theorem State.setEngine_inUse (s : State) (h sl : Nat) (e : Engine) : (s.setEngine h sl e).inUse = s.inUse := rfl
@[simp] theorem State.setEngine_doms (s : State) (h sl : Nat) (e : Engine) : (s.setEngine h sl e).doms = s.doms := rfl
@[simp] theorem State.setEngine_server (s : State) (h sl : Nat) (e : Engine) : (s.setEngine h sl e).server = s.server := rfl
@[simp] theorem State.setEngine_flash (s : State) (h sl : Nat) (e : Engine) : (s.setEngine h sl e).flash = s.flash := rfl
@[simp] theorem State.setEngine_sec (s : State) (h sl : Nat) (e : Engine) : (s.setEngine h sl e).sec = s.sec := rfl
@[simp] theorem State.setEngine_pins (s : State) (h sl : Nat) (e : Engine) : (s.setEngine h sl e).pins = s.pins := rfl
@[simp] theorem State.setEngine_beat (s : State) (h sl : Nat) (e : Engine) : (s.setEngine h sl e).beat = s.beat := rfl
@[simp] theorem State.setEngine_wings (s : State) (h sl : Nat) (e : Engine) : (s.setEngine h sl e).wings = s.wings := rfl
@[simp] theorem State.setEngine_mem (s : State) (h sl : Nat) (e : Engine) : (s.setEngine h sl e).mem = s.mem := rfl
@[simp] theorem State.setEngine_folio (s : State) (h sl : Nat) (e : Engine) : (s.setEngine h sl e).folio = s.folio := rfl
@[simp] theorem State.setEngine_torus (s : State) (h sl : Nat) (e : Engine) : (s.setEngine h sl e).torus = s.torus := rfl
@[simp] theorem State.setEngine_coll (s : State) (h sl : Nat) (e : Engine) : (s.setEngine h sl e).coll = s.coll := rfl
@[simp] theorem State.setEngine_ship (s : State) (h sl : Nat) (e : Engine) : (s.setEngine h sl e).ship = s.ship := rfl
@[simp] theorem State.setEngine_host (s : State) (h sl : Nat) (e : Engine) : (s.setEngine h sl e).host = s.host := rfl
@[simp] theorem State.setEngine_power (s : State) (h sl : Nat) (e : Engine) : (s.setEngine h sl e).power = s.power := rfl
@[simp] theorem State.setEngine_cur (s : State) (h sl : Nat) (e : Engine) : (s.setEngine h sl e).cur = s.cur := rfl

@[simp] theorem State.setCore_pending (s : State) (h k : Nat) (c : Core) : (s.setCore h k c).pending = s.pending := rfl
@[simp] theorem State.setCore_free (s : State) (h k : Nat) (c : Core) : (s.setCore h k c).free = s.free := rfl
@[simp] theorem State.setCore_out (s : State) (h k : Nat) (c : Core) : (s.setCore h k c).out = s.out := rfl
@[simp] theorem State.setCore_cat (s : State) (h k : Nat) (c : Core) : (s.setCore h k c).cat = s.cat := rfl
@[simp] theorem State.setCore_catSeal (s : State) (h k : Nat) (c : Core) : (s.setCore h k c).catSeal = s.catSeal := rfl
@[simp] theorem State.setCore_inUse (s : State) (h k : Nat) (c : Core) : (s.setCore h k c).inUse = s.inUse := rfl
@[simp] theorem State.setCore_doms (s : State) (h k : Nat) (c : Core) : (s.setCore h k c).doms = s.doms := rfl
@[simp] theorem State.setCore_server (s : State) (h k : Nat) (c : Core) : (s.setCore h k c).server = s.server := rfl
@[simp] theorem State.setCore_flash (s : State) (h k : Nat) (c : Core) : (s.setCore h k c).flash = s.flash := rfl
@[simp] theorem State.setCore_sec (s : State) (h k : Nat) (c : Core) : (s.setCore h k c).sec = s.sec := rfl
@[simp] theorem State.setCore_pins (s : State) (h k : Nat) (c : Core) : (s.setCore h k c).pins = s.pins := rfl
@[simp] theorem State.setCore_beat (s : State) (h k : Nat) (c : Core) : (s.setCore h k c).beat = s.beat := rfl
@[simp] theorem State.setCore_wings (s : State) (h k : Nat) (c : Core) : (s.setCore h k c).wings = s.wings := rfl
@[simp] theorem State.setCore_mem (s : State) (h k : Nat) (c : Core) : (s.setCore h k c).mem = s.mem := rfl
@[simp] theorem State.setCore_folio (s : State) (h k : Nat) (c : Core) : (s.setCore h k c).folio = s.folio := rfl
@[simp] theorem State.setCore_torus (s : State) (h k : Nat) (c : Core) : (s.setCore h k c).torus = s.torus := rfl
@[simp] theorem State.setCore_coll (s : State) (h k : Nat) (c : Core) : (s.setCore h k c).coll = s.coll := rfl
@[simp] theorem State.setCore_ship (s : State) (h k : Nat) (c : Core) : (s.setCore h k c).ship = s.ship := rfl
@[simp] theorem State.setCore_host (s : State) (h k : Nat) (c : Core) : (s.setCore h k c).host = s.host := rfl
@[simp] theorem State.setCore_power (s : State) (h k : Nat) (c : Core) : (s.setCore h k c).power = s.power := rfl
@[simp] theorem State.setCore_cur (s : State) (h k : Nat) (c : Core) : (s.setCore h k c).cur = s.cur := rfl

@[simp] theorem State.setRing_pending (s : State) (h k : Nat) (r : Ring) : (s.setRing h k r).pending = s.pending := rfl
@[simp] theorem State.setRing_free (s : State) (h k : Nat) (r : Ring) : (s.setRing h k r).free = s.free := rfl
@[simp] theorem State.setRing_out (s : State) (h k : Nat) (r : Ring) : (s.setRing h k r).out = s.out := rfl
@[simp] theorem State.setRing_cat (s : State) (h k : Nat) (r : Ring) : (s.setRing h k r).cat = s.cat := rfl
@[simp] theorem State.setRing_catSeal (s : State) (h k : Nat) (r : Ring) : (s.setRing h k r).catSeal = s.catSeal := rfl
@[simp] theorem State.setRing_inUse (s : State) (h k : Nat) (r : Ring) : (s.setRing h k r).inUse = s.inUse := rfl
@[simp] theorem State.setRing_doms (s : State) (h k : Nat) (r : Ring) : (s.setRing h k r).doms = s.doms := rfl
@[simp] theorem State.setRing_server (s : State) (h k : Nat) (r : Ring) : (s.setRing h k r).server = s.server := rfl
@[simp] theorem State.setRing_flash (s : State) (h k : Nat) (r : Ring) : (s.setRing h k r).flash = s.flash := rfl
@[simp] theorem State.setRing_sec (s : State) (h k : Nat) (r : Ring) : (s.setRing h k r).sec = s.sec := rfl
@[simp] theorem State.setRing_pins (s : State) (h k : Nat) (r : Ring) : (s.setRing h k r).pins = s.pins := rfl
@[simp] theorem State.setRing_beat (s : State) (h k : Nat) (r : Ring) : (s.setRing h k r).beat = s.beat := rfl
@[simp] theorem State.setRing_wings (s : State) (h k : Nat) (r : Ring) : (s.setRing h k r).wings = s.wings := rfl
@[simp] theorem State.setRing_mem (s : State) (h k : Nat) (r : Ring) : (s.setRing h k r).mem = s.mem := rfl
@[simp] theorem State.setRing_folio (s : State) (h k : Nat) (r : Ring) : (s.setRing h k r).folio = s.folio := rfl
@[simp] theorem State.setRing_torus (s : State) (h k : Nat) (r : Ring) : (s.setRing h k r).torus = s.torus := rfl
@[simp] theorem State.setRing_coll (s : State) (h k : Nat) (r : Ring) : (s.setRing h k r).coll = s.coll := rfl
@[simp] theorem State.setRing_ship (s : State) (h k : Nat) (r : Ring) : (s.setRing h k r).ship = s.ship := rfl
@[simp] theorem State.setRing_host (s : State) (h k : Nat) (r : Ring) : (s.setRing h k r).host = s.host := rfl
@[simp] theorem State.setRing_power (s : State) (h k : Nat) (r : Ring) : (s.setRing h k r).power = s.power := rfl
@[simp] theorem State.setRing_cur (s : State) (h k : Nat) (r : Ring) : (s.setRing h k r).cur = s.cur := rfl

@[simp] theorem State.count_pending (s : State) (acc sub n : Nat) : (s.count acc sub n).pending = s.pending := by unfold State.count; split <;> rfl
@[simp] theorem State.count_free (s : State) (acc sub n : Nat) : (s.count acc sub n).free = s.free := by unfold State.count; split <;> rfl
@[simp] theorem State.count_out (s : State) (acc sub n : Nat) : (s.count acc sub n).out = s.out := by unfold State.count; split <;> rfl
@[simp] theorem State.count_catSeal (s : State) (acc sub n : Nat) : (s.count acc sub n).catSeal = s.catSeal := by unfold State.count; split <;> rfl
@[simp] theorem State.count_inUse (s : State) (acc sub n : Nat) : (s.count acc sub n).inUse = s.inUse := by unfold State.count; split <;> rfl
@[simp] theorem State.count_doms (s : State) (acc sub n : Nat) : (s.count acc sub n).doms = s.doms := by unfold State.count; split <;> rfl
@[simp] theorem State.count_server (s : State) (acc sub n : Nat) : (s.count acc sub n).server = s.server := by unfold State.count; split <;> rfl
@[simp] theorem State.count_flash (s : State) (acc sub n : Nat) : (s.count acc sub n).flash = s.flash := by unfold State.count; split <;> rfl
@[simp] theorem State.count_sec (s : State) (acc sub n : Nat) : (s.count acc sub n).sec = s.sec := by unfold State.count; split <;> rfl
@[simp] theorem State.count_pins (s : State) (acc sub n : Nat) : (s.count acc sub n).pins = s.pins := by unfold State.count; split <;> rfl
@[simp] theorem State.count_beat (s : State) (acc sub n : Nat) : (s.count acc sub n).beat = s.beat := by unfold State.count; split <;> rfl
@[simp] theorem State.count_wings (s : State) (acc sub n : Nat) : (s.count acc sub n).wings = s.wings := by unfold State.count; split <;> rfl
@[simp] theorem State.count_work (s : State) (acc sub n : Nat) : (s.count acc sub n).work = s.work := by unfold State.count; split <;> rfl
@[simp] theorem State.count_mem (s : State) (acc sub n : Nat) : (s.count acc sub n).mem = s.mem := by unfold State.count; split <;> rfl
@[simp] theorem State.count_folio (s : State) (acc sub n : Nat) : (s.count acc sub n).folio = s.folio := by unfold State.count; split <;> rfl
@[simp] theorem State.count_torus (s : State) (acc sub n : Nat) : (s.count acc sub n).torus = s.torus := by unfold State.count; split <;> rfl
@[simp] theorem State.count_coll (s : State) (acc sub n : Nat) : (s.count acc sub n).coll = s.coll := by unfold State.count; split <;> rfl
@[simp] theorem State.count_ship (s : State) (acc sub n : Nat) : (s.count acc sub n).ship = s.ship := by unfold State.count; split <;> rfl
@[simp] theorem State.count_host (s : State) (acc sub n : Nat) : (s.count acc sub n).host = s.host := by unfold State.count; split <;> rfl
@[simp] theorem State.count_power (s : State) (acc sub n : Nat) : (s.count acc sub n).power = s.power := by unfold State.count; split <;> rfl
@[simp] theorem State.count_cur (s : State) (acc sub n : Nat) : (s.count acc sub n).cur = s.cur := by unfold State.count; split <;> rfl

@[simp] theorem State.countDue_pending (s : State) (w acc sub n : Nat) : (s.countDue w acc sub n).pending = s.pending := by unfold State.countDue; split <;> rfl
@[simp] theorem State.countDue_free (s : State) (w acc sub n : Nat) : (s.countDue w acc sub n).free = s.free := by unfold State.countDue; split <;> rfl
@[simp] theorem State.countDue_out (s : State) (w acc sub n : Nat) : (s.countDue w acc sub n).out = s.out := by unfold State.countDue; split <;> rfl
@[simp] theorem State.countDue_cat (s : State) (w acc sub n : Nat) : (s.countDue w acc sub n).cat = s.cat := by unfold State.countDue; split <;> rfl
@[simp] theorem State.countDue_catSeal (s : State) (w acc sub n : Nat) : (s.countDue w acc sub n).catSeal = s.catSeal := by unfold State.countDue; split <;> rfl
@[simp] theorem State.countDue_inUse (s : State) (w acc sub n : Nat) : (s.countDue w acc sub n).inUse = s.inUse := by unfold State.countDue; split <;> rfl
@[simp] theorem State.countDue_doms (s : State) (w acc sub n : Nat) : (s.countDue w acc sub n).doms = s.doms := by unfold State.countDue; split <;> rfl
@[simp] theorem State.countDue_server (s : State) (w acc sub n : Nat) : (s.countDue w acc sub n).server = s.server := by unfold State.countDue; split <;> rfl
@[simp] theorem State.countDue_flash (s : State) (w acc sub n : Nat) : (s.countDue w acc sub n).flash = s.flash := by unfold State.countDue; split <;> rfl
@[simp] theorem State.countDue_sec (s : State) (w acc sub n : Nat) : (s.countDue w acc sub n).sec = s.sec := by unfold State.countDue; split <;> rfl
@[simp] theorem State.countDue_pins (s : State) (w acc sub n : Nat) : (s.countDue w acc sub n).pins = s.pins := by unfold State.countDue; split <;> rfl
@[simp] theorem State.countDue_beat (s : State) (w acc sub n : Nat) : (s.countDue w acc sub n).beat = s.beat := by unfold State.countDue; split <;> rfl
@[simp] theorem State.countDue_wings (s : State) (w acc sub n : Nat) : (s.countDue w acc sub n).wings = s.wings := by unfold State.countDue; split <;> rfl
@[simp] theorem State.countDue_mem (s : State) (w acc sub n : Nat) : (s.countDue w acc sub n).mem = s.mem := by unfold State.countDue; split <;> rfl
@[simp] theorem State.countDue_folio (s : State) (w acc sub n : Nat) : (s.countDue w acc sub n).folio = s.folio := by unfold State.countDue; split <;> rfl
@[simp] theorem State.countDue_torus (s : State) (w acc sub n : Nat) : (s.countDue w acc sub n).torus = s.torus := by unfold State.countDue; split <;> rfl
@[simp] theorem State.countDue_coll (s : State) (w acc sub n : Nat) : (s.countDue w acc sub n).coll = s.coll := by unfold State.countDue; split <;> rfl
@[simp] theorem State.countDue_ship (s : State) (w acc sub n : Nat) : (s.countDue w acc sub n).ship = s.ship := by unfold State.countDue; split <;> rfl
@[simp] theorem State.countDue_host (s : State) (w acc sub n : Nat) : (s.countDue w acc sub n).host = s.host := by unfold State.countDue; split <;> rfl
@[simp] theorem State.countDue_power (s : State) (w acc sub n : Nat) : (s.countDue w acc sub n).power = s.power := by unfold State.countDue; split <;> rfl
@[simp] theorem State.countDue_cur (s : State) (w acc sub n : Nat) : (s.countDue w acc sub n).cur = s.cur := by unfold State.countDue; split <;> rfl

@[simp] theorem State.powerCount_pending (s : State) (u k n : Nat) : (s.powerCount u k n).pending = s.pending := by unfold State.powerCount; split <;> rfl
@[simp] theorem State.powerCount_free (s : State) (u k n : Nat) : (s.powerCount u k n).free = s.free := by unfold State.powerCount; split <;> rfl
@[simp] theorem State.powerCount_out (s : State) (u k n : Nat) : (s.powerCount u k n).out = s.out := by unfold State.powerCount; split <;> rfl
@[simp] theorem State.powerCount_cat (s : State) (u k n : Nat) : (s.powerCount u k n).cat = s.cat := by unfold State.powerCount; split <;> rfl
@[simp] theorem State.powerCount_catSeal (s : State) (u k n : Nat) : (s.powerCount u k n).catSeal = s.catSeal := by unfold State.powerCount; split <;> rfl
@[simp] theorem State.powerCount_inUse (s : State) (u k n : Nat) : (s.powerCount u k n).inUse = s.inUse := by unfold State.powerCount; split <;> rfl
@[simp] theorem State.powerCount_doms (s : State) (u k n : Nat) : (s.powerCount u k n).doms = s.doms := by unfold State.powerCount; split <;> rfl
@[simp] theorem State.powerCount_server (s : State) (u k n : Nat) : (s.powerCount u k n).server = s.server := by unfold State.powerCount; split <;> rfl
@[simp] theorem State.powerCount_flash (s : State) (u k n : Nat) : (s.powerCount u k n).flash = s.flash := by unfold State.powerCount; split <;> rfl
@[simp] theorem State.powerCount_sec (s : State) (u k n : Nat) : (s.powerCount u k n).sec = s.sec := by unfold State.powerCount; split <;> rfl
@[simp] theorem State.powerCount_pins (s : State) (u k n : Nat) : (s.powerCount u k n).pins = s.pins := by unfold State.powerCount; split <;> rfl
@[simp] theorem State.powerCount_beat (s : State) (u k n : Nat) : (s.powerCount u k n).beat = s.beat := by unfold State.powerCount; split <;> rfl
@[simp] theorem State.powerCount_wings (s : State) (u k n : Nat) : (s.powerCount u k n).wings = s.wings := by unfold State.powerCount; split <;> rfl
@[simp] theorem State.powerCount_work (s : State) (u k n : Nat) : (s.powerCount u k n).work = s.work := by unfold State.powerCount; split <;> rfl
@[simp] theorem State.powerCount_mem (s : State) (u k n : Nat) : (s.powerCount u k n).mem = s.mem := by unfold State.powerCount; split <;> rfl
@[simp] theorem State.powerCount_folio (s : State) (u k n : Nat) : (s.powerCount u k n).folio = s.folio := by unfold State.powerCount; split <;> rfl
@[simp] theorem State.powerCount_torus (s : State) (u k n : Nat) : (s.powerCount u k n).torus = s.torus := by unfold State.powerCount; split <;> rfl
@[simp] theorem State.powerCount_coll (s : State) (u k n : Nat) : (s.powerCount u k n).coll = s.coll := by unfold State.powerCount; split <;> rfl
@[simp] theorem State.powerCount_ship (s : State) (u k n : Nat) : (s.powerCount u k n).ship = s.ship := by unfold State.powerCount; split <;> rfl
@[simp] theorem State.powerCount_host (s : State) (u k n : Nat) : (s.powerCount u k n).host = s.host := by unfold State.powerCount; split <;> rfl
@[simp] theorem State.powerCount_cur (s : State) (u k n : Nat) : (s.powerCount u k n).cur = s.cur := by unfold State.powerCount; split <;> rfl

@[simp] theorem State.powerOwned_pending (s : State) (u k n o : Nat) : (s.powerOwned u k n o).pending = s.pending := by unfold State.powerOwned; dsimp only; split <;> simp
@[simp] theorem State.powerOwned_free (s : State) (u k n o : Nat) : (s.powerOwned u k n o).free = s.free := by unfold State.powerOwned; dsimp only; split <;> simp
@[simp] theorem State.powerOwned_out (s : State) (u k n o : Nat) : (s.powerOwned u k n o).out = s.out := by unfold State.powerOwned; dsimp only; split <;> simp
@[simp] theorem State.powerOwned_cat (s : State) (u k n o : Nat) : (s.powerOwned u k n o).cat = s.cat := by unfold State.powerOwned; dsimp only; split <;> simp
@[simp] theorem State.powerOwned_catSeal (s : State) (u k n o : Nat) : (s.powerOwned u k n o).catSeal = s.catSeal := by unfold State.powerOwned; dsimp only; split <;> simp
@[simp] theorem State.powerOwned_inUse (s : State) (u k n o : Nat) : (s.powerOwned u k n o).inUse = s.inUse := by unfold State.powerOwned; dsimp only; split <;> simp
@[simp] theorem State.powerOwned_doms (s : State) (u k n o : Nat) : (s.powerOwned u k n o).doms = s.doms := by unfold State.powerOwned; dsimp only; split <;> simp
@[simp] theorem State.powerOwned_server (s : State) (u k n o : Nat) : (s.powerOwned u k n o).server = s.server := by unfold State.powerOwned; dsimp only; split <;> simp
@[simp] theorem State.powerOwned_flash (s : State) (u k n o : Nat) : (s.powerOwned u k n o).flash = s.flash := by unfold State.powerOwned; dsimp only; split <;> simp
@[simp] theorem State.powerOwned_sec (s : State) (u k n o : Nat) : (s.powerOwned u k n o).sec = s.sec := by unfold State.powerOwned; dsimp only; split <;> simp
@[simp] theorem State.powerOwned_pins (s : State) (u k n o : Nat) : (s.powerOwned u k n o).pins = s.pins := by unfold State.powerOwned; dsimp only; split <;> simp
@[simp] theorem State.powerOwned_beat (s : State) (u k n o : Nat) : (s.powerOwned u k n o).beat = s.beat := by unfold State.powerOwned; dsimp only; split <;> simp
@[simp] theorem State.powerOwned_wings (s : State) (u k n o : Nat) : (s.powerOwned u k n o).wings = s.wings := by unfold State.powerOwned; dsimp only; split <;> simp
@[simp] theorem State.powerOwned_work (s : State) (u k n o : Nat) : (s.powerOwned u k n o).work = s.work := by unfold State.powerOwned; dsimp only; split <;> simp
@[simp] theorem State.powerOwned_mem (s : State) (u k n o : Nat) : (s.powerOwned u k n o).mem = s.mem := by unfold State.powerOwned; dsimp only; split <;> simp
@[simp] theorem State.powerOwned_folio (s : State) (u k n o : Nat) : (s.powerOwned u k n o).folio = s.folio := by unfold State.powerOwned; dsimp only; split <;> simp
@[simp] theorem State.powerOwned_torus (s : State) (u k n o : Nat) : (s.powerOwned u k n o).torus = s.torus := by unfold State.powerOwned; dsimp only; split <;> simp
@[simp] theorem State.powerOwned_coll (s : State) (u k n o : Nat) : (s.powerOwned u k n o).coll = s.coll := by unfold State.powerOwned; dsimp only; split <;> simp
@[simp] theorem State.powerOwned_ship (s : State) (u k n o : Nat) : (s.powerOwned u k n o).ship = s.ship := by unfold State.powerOwned; dsimp only; split <;> simp
@[simp] theorem State.powerOwned_host (s : State) (u k n o : Nat) : (s.powerOwned u k n o).host = s.host := by unfold State.powerOwned; dsimp only; split <;> simp
@[simp] theorem State.powerOwned_cur (s : State) (u k n o : Nat) : (s.powerOwned u k n o).cur = s.cur := by unfold State.powerOwned; dsimp only; split <;> simp

@[simp] theorem State.msix_pending (s : State) (fn v : Nat) : (s.msix fn v).pending = s.pending := by unfold State.msix; split <;> (try split) <;> rfl
@[simp] theorem State.msix_free (s : State) (fn v : Nat) : (s.msix fn v).free = s.free := by unfold State.msix; split <;> (try split) <;> rfl
@[simp] theorem State.msix_cat (s : State) (fn v : Nat) : (s.msix fn v).cat = s.cat := by unfold State.msix; split <;> (try split) <;> rfl
@[simp] theorem State.msix_catSeal (s : State) (fn v : Nat) : (s.msix fn v).catSeal = s.catSeal := by unfold State.msix; split <;> (try split) <;> rfl
@[simp] theorem State.msix_inUse (s : State) (fn v : Nat) : (s.msix fn v).inUse = s.inUse := by unfold State.msix; split <;> (try split) <;> rfl
@[simp] theorem State.msix_doms (s : State) (fn v : Nat) : (s.msix fn v).doms = s.doms := by unfold State.msix; split <;> (try split) <;> rfl
@[simp] theorem State.msix_server (s : State) (fn v : Nat) : (s.msix fn v).server = s.server := by unfold State.msix; split <;> (try split) <;> rfl
@[simp] theorem State.msix_flash (s : State) (fn v : Nat) : (s.msix fn v).flash = s.flash := by unfold State.msix; split <;> (try split) <;> rfl
@[simp] theorem State.msix_sec (s : State) (fn v : Nat) : (s.msix fn v).sec = s.sec := by unfold State.msix; split <;> (try split) <;> rfl
@[simp] theorem State.msix_pins (s : State) (fn v : Nat) : (s.msix fn v).pins = s.pins := by unfold State.msix; split <;> (try split) <;> rfl
@[simp] theorem State.msix_beat (s : State) (fn v : Nat) : (s.msix fn v).beat = s.beat := by unfold State.msix; split <;> (try split) <;> rfl
@[simp] theorem State.msix_wings (s : State) (fn v : Nat) : (s.msix fn v).wings = s.wings := by unfold State.msix; split <;> (try split) <;> rfl
@[simp] theorem State.msix_work (s : State) (fn v : Nat) : (s.msix fn v).work = s.work := by unfold State.msix; split <;> (try split) <;> rfl
@[simp] theorem State.msix_mem (s : State) (fn v : Nat) : (s.msix fn v).mem = s.mem := by unfold State.msix; split <;> (try split) <;> rfl
@[simp] theorem State.msix_folio (s : State) (fn v : Nat) : (s.msix fn v).folio = s.folio := by unfold State.msix; split <;> (try split) <;> rfl
@[simp] theorem State.msix_torus (s : State) (fn v : Nat) : (s.msix fn v).torus = s.torus := by unfold State.msix; split <;> (try split) <;> rfl
@[simp] theorem State.msix_coll (s : State) (fn v : Nat) : (s.msix fn v).coll = s.coll := by unfold State.msix; split <;> (try split) <;> rfl
@[simp] theorem State.msix_ship (s : State) (fn v : Nat) : (s.msix fn v).ship = s.ship := by unfold State.msix; split <;> (try split) <;> rfl
@[simp] theorem State.msix_power (s : State) (fn v : Nat) : (s.msix fn v).power = s.power := by unfold State.msix; split <;> (try split) <;> rfl
@[simp] theorem State.msix_cur (s : State) (fn v : Nat) : (s.msix fn v).cur = s.cur := by unfold State.msix; split <;> (try split) <;> rfl

@[simp] theorem State.noteWindow_pending (s : State) (fn : Nat) (n : Note) : (s.noteWindow fn n).pending = s.pending := by unfold State.noteWindow; dsimp only; split <;> simp
@[simp] theorem State.noteWindow_free (s : State) (fn : Nat) (n : Note) : (s.noteWindow fn n).free = s.free := by unfold State.noteWindow; dsimp only; split <;> simp
@[simp] theorem State.noteWindow_catSeal (s : State) (fn : Nat) (n : Note) : (s.noteWindow fn n).catSeal = s.catSeal := by unfold State.noteWindow; dsimp only; split <;> simp
@[simp] theorem State.noteWindow_inUse (s : State) (fn : Nat) (n : Note) : (s.noteWindow fn n).inUse = s.inUse := by unfold State.noteWindow; dsimp only; split <;> simp
@[simp] theorem State.noteWindow_doms (s : State) (fn : Nat) (n : Note) : (s.noteWindow fn n).doms = s.doms := by unfold State.noteWindow; dsimp only; split <;> simp
@[simp] theorem State.noteWindow_flash (s : State) (fn : Nat) (n : Note) : (s.noteWindow fn n).flash = s.flash := by unfold State.noteWindow; dsimp only; split <;> simp
@[simp] theorem State.noteWindow_sec (s : State) (fn : Nat) (n : Note) : (s.noteWindow fn n).sec = s.sec := by unfold State.noteWindow; dsimp only; split <;> simp
@[simp] theorem State.noteWindow_pins (s : State) (fn : Nat) (n : Note) : (s.noteWindow fn n).pins = s.pins := by unfold State.noteWindow; dsimp only; split <;> simp
@[simp] theorem State.noteWindow_beat (s : State) (fn : Nat) (n : Note) : (s.noteWindow fn n).beat = s.beat := by unfold State.noteWindow; dsimp only; split <;> simp
@[simp] theorem State.noteWindow_wings (s : State) (fn : Nat) (n : Note) : (s.noteWindow fn n).wings = s.wings := by unfold State.noteWindow; dsimp only; split <;> simp
@[simp] theorem State.noteWindow_work (s : State) (fn : Nat) (n : Note) : (s.noteWindow fn n).work = s.work := by unfold State.noteWindow; dsimp only; split <;> simp
@[simp] theorem State.noteWindow_mem (s : State) (fn : Nat) (n : Note) : (s.noteWindow fn n).mem = s.mem := by unfold State.noteWindow; dsimp only; split <;> simp
@[simp] theorem State.noteWindow_folio (s : State) (fn : Nat) (n : Note) : (s.noteWindow fn n).folio = s.folio := by unfold State.noteWindow; dsimp only; split <;> simp
@[simp] theorem State.noteWindow_torus (s : State) (fn : Nat) (n : Note) : (s.noteWindow fn n).torus = s.torus := by unfold State.noteWindow; dsimp only; split <;> simp
@[simp] theorem State.noteWindow_coll (s : State) (fn : Nat) (n : Note) : (s.noteWindow fn n).coll = s.coll := by unfold State.noteWindow; dsimp only; split <;> simp
@[simp] theorem State.noteWindow_ship (s : State) (fn : Nat) (n : Note) : (s.noteWindow fn n).ship = s.ship := by unfold State.noteWindow; dsimp only; split <;> simp
@[simp] theorem State.noteWindow_power (s : State) (fn : Nat) (n : Note) : (s.noteWindow fn n).power = s.power := by unfold State.noteWindow; dsimp only; split <;> simp
@[simp] theorem State.noteWindow_cur (s : State) (fn : Nat) (n : Note) : (s.noteWindow fn n).cur = s.cur := by unfold State.noteWindow; dsimp only; split <;> simp

@[simp] theorem State.noteSession_pending (s : State) (id : Nat) (n : Note) : (s.noteSession id n).pending = s.pending := by unfold State.noteSession; split <;> rfl
@[simp] theorem State.noteSession_free (s : State) (id : Nat) (n : Note) : (s.noteSession id n).free = s.free := by unfold State.noteSession; split <;> rfl
@[simp] theorem State.noteSession_cat (s : State) (id : Nat) (n : Note) : (s.noteSession id n).cat = s.cat := by unfold State.noteSession; split <;> rfl
@[simp] theorem State.noteSession_catSeal (s : State) (id : Nat) (n : Note) : (s.noteSession id n).catSeal = s.catSeal := by unfold State.noteSession; split <;> rfl
@[simp] theorem State.noteSession_inUse (s : State) (id : Nat) (n : Note) : (s.noteSession id n).inUse = s.inUse := by unfold State.noteSession; split <;> rfl
@[simp] theorem State.noteSession_doms (s : State) (id : Nat) (n : Note) : (s.noteSession id n).doms = s.doms := by unfold State.noteSession; split <;> rfl
@[simp] theorem State.noteSession_flash (s : State) (id : Nat) (n : Note) : (s.noteSession id n).flash = s.flash := by unfold State.noteSession; split <;> rfl
@[simp] theorem State.noteSession_sec (s : State) (id : Nat) (n : Note) : (s.noteSession id n).sec = s.sec := by unfold State.noteSession; split <;> rfl
@[simp] theorem State.noteSession_pins (s : State) (id : Nat) (n : Note) : (s.noteSession id n).pins = s.pins := by unfold State.noteSession; split <;> rfl
@[simp] theorem State.noteSession_beat (s : State) (id : Nat) (n : Note) : (s.noteSession id n).beat = s.beat := by unfold State.noteSession; split <;> rfl
@[simp] theorem State.noteSession_wings (s : State) (id : Nat) (n : Note) : (s.noteSession id n).wings = s.wings := by unfold State.noteSession; split <;> rfl
@[simp] theorem State.noteSession_work (s : State) (id : Nat) (n : Note) : (s.noteSession id n).work = s.work := by unfold State.noteSession; split <;> rfl
@[simp] theorem State.noteSession_mem (s : State) (id : Nat) (n : Note) : (s.noteSession id n).mem = s.mem := by unfold State.noteSession; split <;> rfl
@[simp] theorem State.noteSession_folio (s : State) (id : Nat) (n : Note) : (s.noteSession id n).folio = s.folio := by unfold State.noteSession; split <;> rfl
@[simp] theorem State.noteSession_torus (s : State) (id : Nat) (n : Note) : (s.noteSession id n).torus = s.torus := by unfold State.noteSession; split <;> rfl
@[simp] theorem State.noteSession_coll (s : State) (id : Nat) (n : Note) : (s.noteSession id n).coll = s.coll := by unfold State.noteSession; split <;> rfl
@[simp] theorem State.noteSession_ship (s : State) (id : Nat) (n : Note) : (s.noteSession id n).ship = s.ship := by unfold State.noteSession; split <;> rfl
@[simp] theorem State.noteSession_host (s : State) (id : Nat) (n : Note) : (s.noteSession id n).host = s.host := by unfold State.noteSession; split <;> rfl
@[simp] theorem State.noteSession_power (s : State) (id : Nat) (n : Note) : (s.noteSession id n).power = s.power := by unfold State.noteSession; split <;> rfl
@[simp] theorem State.noteSession_cur (s : State) (id : Nat) (n : Note) : (s.noteSession id n).cur = s.cur := by unfold State.noteSession; split <;> rfl

@[simp] theorem State.noteAll_pending (s : State) (fns : List Nat) (bit : Nat) (n : Note) : (s.noteAll fns bit n).pending = s.pending := by
  unfold State.noteAll; rw [foldl_keeps State.pending _ _ (fun t x => by simp), foldl_keeps State.pending _ _ (fun t x => by simp)]
@[simp] theorem State.noteAll_free (s : State) (fns : List Nat) (bit : Nat) (n : Note) : (s.noteAll fns bit n).free = s.free := by
  unfold State.noteAll; rw [foldl_keeps State.free _ _ (fun t x => by simp), foldl_keeps State.free _ _ (fun t x => by simp)]
@[simp] theorem State.noteAll_catSeal (s : State) (fns : List Nat) (bit : Nat) (n : Note) : (s.noteAll fns bit n).catSeal = s.catSeal := by
  unfold State.noteAll; rw [foldl_keeps State.catSeal _ _ (fun t x => by simp), foldl_keeps State.catSeal _ _ (fun t x => by simp)]
@[simp] theorem State.noteAll_inUse (s : State) (fns : List Nat) (bit : Nat) (n : Note) : (s.noteAll fns bit n).inUse = s.inUse := by
  unfold State.noteAll; rw [foldl_keeps State.inUse _ _ (fun t x => by simp), foldl_keeps State.inUse _ _ (fun t x => by simp)]
@[simp] theorem State.noteAll_doms (s : State) (fns : List Nat) (bit : Nat) (n : Note) : (s.noteAll fns bit n).doms = s.doms := by
  unfold State.noteAll; rw [foldl_keeps State.doms _ _ (fun t x => by simp), foldl_keeps State.doms _ _ (fun t x => by simp)]
@[simp] theorem State.noteAll_flash (s : State) (fns : List Nat) (bit : Nat) (n : Note) : (s.noteAll fns bit n).flash = s.flash := by
  unfold State.noteAll; rw [foldl_keeps State.flash _ _ (fun t x => by simp), foldl_keeps State.flash _ _ (fun t x => by simp)]
@[simp] theorem State.noteAll_sec (s : State) (fns : List Nat) (bit : Nat) (n : Note) : (s.noteAll fns bit n).sec = s.sec := by
  unfold State.noteAll; rw [foldl_keeps State.sec _ _ (fun t x => by simp), foldl_keeps State.sec _ _ (fun t x => by simp)]
@[simp] theorem State.noteAll_pins (s : State) (fns : List Nat) (bit : Nat) (n : Note) : (s.noteAll fns bit n).pins = s.pins := by
  unfold State.noteAll; rw [foldl_keeps State.pins _ _ (fun t x => by simp), foldl_keeps State.pins _ _ (fun t x => by simp)]
@[simp] theorem State.noteAll_beat (s : State) (fns : List Nat) (bit : Nat) (n : Note) : (s.noteAll fns bit n).beat = s.beat := by
  unfold State.noteAll; rw [foldl_keeps State.beat _ _ (fun t x => by simp), foldl_keeps State.beat _ _ (fun t x => by simp)]
@[simp] theorem State.noteAll_wings (s : State) (fns : List Nat) (bit : Nat) (n : Note) : (s.noteAll fns bit n).wings = s.wings := by
  unfold State.noteAll; rw [foldl_keeps State.wings _ _ (fun t x => by simp), foldl_keeps State.wings _ _ (fun t x => by simp)]
@[simp] theorem State.noteAll_work (s : State) (fns : List Nat) (bit : Nat) (n : Note) : (s.noteAll fns bit n).work = s.work := by
  unfold State.noteAll; rw [foldl_keeps State.work _ _ (fun t x => by simp), foldl_keeps State.work _ _ (fun t x => by simp)]
@[simp] theorem State.noteAll_mem (s : State) (fns : List Nat) (bit : Nat) (n : Note) : (s.noteAll fns bit n).mem = s.mem := by
  unfold State.noteAll; rw [foldl_keeps State.mem _ _ (fun t x => by simp), foldl_keeps State.mem _ _ (fun t x => by simp)]
@[simp] theorem State.noteAll_folio (s : State) (fns : List Nat) (bit : Nat) (n : Note) : (s.noteAll fns bit n).folio = s.folio := by
  unfold State.noteAll; rw [foldl_keeps State.folio _ _ (fun t x => by simp), foldl_keeps State.folio _ _ (fun t x => by simp)]
@[simp] theorem State.noteAll_torus (s : State) (fns : List Nat) (bit : Nat) (n : Note) : (s.noteAll fns bit n).torus = s.torus := by
  unfold State.noteAll; rw [foldl_keeps State.torus _ _ (fun t x => by simp), foldl_keeps State.torus _ _ (fun t x => by simp)]
@[simp] theorem State.noteAll_coll (s : State) (fns : List Nat) (bit : Nat) (n : Note) : (s.noteAll fns bit n).coll = s.coll := by
  unfold State.noteAll; rw [foldl_keeps State.coll _ _ (fun t x => by simp), foldl_keeps State.coll _ _ (fun t x => by simp)]
@[simp] theorem State.noteAll_ship (s : State) (fns : List Nat) (bit : Nat) (n : Note) : (s.noteAll fns bit n).ship = s.ship := by
  unfold State.noteAll; rw [foldl_keeps State.ship _ _ (fun t x => by simp), foldl_keeps State.ship _ _ (fun t x => by simp)]
@[simp] theorem State.noteAll_power (s : State) (fns : List Nat) (bit : Nat) (n : Note) : (s.noteAll fns bit n).power = s.power := by
  unfold State.noteAll; rw [foldl_keeps State.power _ _ (fun t x => by simp), foldl_keeps State.power _ _ (fun t x => by simp)]
@[simp] theorem State.noteAll_cur (s : State) (fns : List Nat) (bit : Nat) (n : Note) : (s.noteAll fns bit n).cur = s.cur := by
  unfold State.noteAll; rw [foldl_keeps State.cur _ _ (fun t x => by simp), foldl_keeps State.cur _ _ (fun t x => by simp)]

@[simp] theorem State.put_pending (s : State) (acc sub v : Nat) : (s.put acc sub v).pending = s.pending := by unfold State.put; dsimp only; split <;> split <;> simp
@[simp] theorem State.put_free (s : State) (acc sub v : Nat) : (s.put acc sub v).free = s.free := by unfold State.put; dsimp only; split <;> split <;> simp
@[simp] theorem State.put_catSeal (s : State) (acc sub v : Nat) : (s.put acc sub v).catSeal = s.catSeal := by unfold State.put; dsimp only; split <;> split <;> simp
@[simp] theorem State.put_inUse (s : State) (acc sub v : Nat) : (s.put acc sub v).inUse = s.inUse := by unfold State.put; dsimp only; split <;> split <;> simp
@[simp] theorem State.put_doms (s : State) (acc sub v : Nat) : (s.put acc sub v).doms = s.doms := by unfold State.put; dsimp only; split <;> split <;> simp
@[simp] theorem State.put_sec (s : State) (acc sub v : Nat) : (s.put acc sub v).sec = s.sec := by unfold State.put; dsimp only; split <;> split <;> simp
@[simp] theorem State.put_pins (s : State) (acc sub v : Nat) : (s.put acc sub v).pins = s.pins := by unfold State.put; dsimp only; split <;> split <;> simp
@[simp] theorem State.put_beat (s : State) (acc sub v : Nat) : (s.put acc sub v).beat = s.beat := by unfold State.put; dsimp only; split <;> split <;> simp
@[simp] theorem State.put_wings (s : State) (acc sub v : Nat) : (s.put acc sub v).wings = s.wings := by unfold State.put; dsimp only; split <;> split <;> simp
@[simp] theorem State.put_work (s : State) (acc sub v : Nat) : (s.put acc sub v).work = s.work := by unfold State.put; dsimp only; split <;> split <;> simp
@[simp] theorem State.put_mem (s : State) (acc sub v : Nat) : (s.put acc sub v).mem = s.mem := by unfold State.put; dsimp only; split <;> split <;> simp
@[simp] theorem State.put_folio (s : State) (acc sub v : Nat) : (s.put acc sub v).folio = s.folio := by unfold State.put; dsimp only; split <;> split <;> simp
@[simp] theorem State.put_torus (s : State) (acc sub v : Nat) : (s.put acc sub v).torus = s.torus := by unfold State.put; dsimp only; split <;> split <;> simp
@[simp] theorem State.put_coll (s : State) (acc sub v : Nat) : (s.put acc sub v).coll = s.coll := by unfold State.put; dsimp only; split <;> split <;> simp
@[simp] theorem State.put_ship (s : State) (acc sub v : Nat) : (s.put acc sub v).ship = s.ship := by unfold State.put; dsimp only; split <;> split <;> simp
@[simp] theorem State.put_power (s : State) (acc sub v : Nat) : (s.put acc sub v).power = s.power := by unfold State.put; dsimp only; split <;> split <;> simp
@[simp] theorem State.put_cur (s : State) (acc sub v : Nat) : (s.put acc sub v).cur = s.cur := by unfold State.put; dsimp only; split <;> split <;> simp

@[simp] theorem State.placeRecord_pending (s : State) (r : ErrRec) : (s.placeRecord r).pending = s.pending := by
  unfold State.placeRecord; dsimp only; simp only [State.noteAll_pending, State.count_pending]; split
  · rfl
  · split <;> simp
@[simp] theorem State.placeRecord_free (s : State) (r : ErrRec) : (s.placeRecord r).free = s.free := by
  unfold State.placeRecord; dsimp only; simp only [State.noteAll_free, State.count_free]; split
  · rfl
  · split <;> simp
@[simp] theorem State.placeRecord_catSeal (s : State) (r : ErrRec) : (s.placeRecord r).catSeal = s.catSeal := by
  unfold State.placeRecord; dsimp only; simp only [State.noteAll_catSeal, State.count_catSeal]; split
  · rfl
  · split <;> simp
@[simp] theorem State.placeRecord_inUse (s : State) (r : ErrRec) : (s.placeRecord r).inUse = s.inUse := by
  unfold State.placeRecord; dsimp only; simp only [State.noteAll_inUse, State.count_inUse]; split
  · rfl
  · split <;> simp
@[simp] theorem State.placeRecord_doms (s : State) (r : ErrRec) : (s.placeRecord r).doms = s.doms := by
  unfold State.placeRecord; dsimp only; simp only [State.noteAll_doms, State.count_doms]; split
  · rfl
  · split <;> simp
@[simp] theorem State.placeRecord_flash (s : State) (r : ErrRec) : (s.placeRecord r).flash = s.flash := by
  unfold State.placeRecord; dsimp only; simp only [State.noteAll_flash, State.count_flash]; split
  · rfl
  · split <;> simp
@[simp] theorem State.placeRecord_sec (s : State) (r : ErrRec) : (s.placeRecord r).sec = s.sec := by
  unfold State.placeRecord; dsimp only; simp only [State.noteAll_sec, State.count_sec]; split
  · rfl
  · split <;> simp
@[simp] theorem State.placeRecord_pins (s : State) (r : ErrRec) : (s.placeRecord r).pins = s.pins := by
  unfold State.placeRecord; dsimp only; simp only [State.noteAll_pins, State.count_pins]; split
  · rfl
  · split <;> simp
@[simp] theorem State.placeRecord_beat (s : State) (r : ErrRec) : (s.placeRecord r).beat = s.beat := by
  unfold State.placeRecord; dsimp only; simp only [State.noteAll_beat, State.count_beat]; split
  · rfl
  · split <;> simp
@[simp] theorem State.placeRecord_wings (s : State) (r : ErrRec) : (s.placeRecord r).wings = s.wings := by
  unfold State.placeRecord; dsimp only; simp only [State.noteAll_wings, State.count_wings]; split
  · rfl
  · split <;> simp
@[simp] theorem State.placeRecord_work (s : State) (r : ErrRec) : (s.placeRecord r).work = s.work := by
  unfold State.placeRecord; dsimp only; simp only [State.noteAll_work, State.count_work]; split
  · rfl
  · split <;> simp
@[simp] theorem State.placeRecord_folio (s : State) (r : ErrRec) : (s.placeRecord r).folio = s.folio := by
  unfold State.placeRecord; dsimp only; simp only [State.noteAll_folio, State.count_folio]; split
  · rfl
  · split <;> simp
@[simp] theorem State.placeRecord_torus (s : State) (r : ErrRec) : (s.placeRecord r).torus = s.torus := by
  unfold State.placeRecord; dsimp only; simp only [State.noteAll_torus, State.count_torus]; split
  · rfl
  · split <;> simp
@[simp] theorem State.placeRecord_coll (s : State) (r : ErrRec) : (s.placeRecord r).coll = s.coll := by
  unfold State.placeRecord; dsimp only; simp only [State.noteAll_coll, State.count_coll]; split
  · rfl
  · split <;> simp
@[simp] theorem State.placeRecord_ship (s : State) (r : ErrRec) : (s.placeRecord r).ship = s.ship := by
  unfold State.placeRecord; dsimp only; simp only [State.noteAll_ship, State.count_ship]; split
  · rfl
  · split <;> simp
@[simp] theorem State.placeRecord_power (s : State) (r : ErrRec) : (s.placeRecord r).power = s.power := by
  unfold State.placeRecord; dsimp only; simp only [State.noteAll_power, State.count_power]; split
  · rfl
  · split <;> simp

@[simp] theorem State.wingFatal_pending (s : State) (w code d : Nat) : (s.wingFatal w code d).pending = s.pending := by unfold State.wingFatal; dsimp only; split <;> rfl
@[simp] theorem State.wingFatal_free (s : State) (w code d : Nat) : (s.wingFatal w code d).free = s.free := by unfold State.wingFatal; dsimp only; split <;> rfl
@[simp] theorem State.wingFatal_out (s : State) (w code d : Nat) : (s.wingFatal w code d).out = s.out := by unfold State.wingFatal; dsimp only; split <;> rfl
@[simp] theorem State.wingFatal_cat (s : State) (w code d : Nat) : (s.wingFatal w code d).cat = s.cat := by unfold State.wingFatal; dsimp only; split <;> rfl
@[simp] theorem State.wingFatal_catSeal (s : State) (w code d : Nat) : (s.wingFatal w code d).catSeal = s.catSeal := by unfold State.wingFatal; dsimp only; split <;> rfl
@[simp] theorem State.wingFatal_inUse (s : State) (w code d : Nat) : (s.wingFatal w code d).inUse = s.inUse := by unfold State.wingFatal; dsimp only; split <;> rfl
@[simp] theorem State.wingFatal_doms (s : State) (w code d : Nat) : (s.wingFatal w code d).doms = s.doms := by unfold State.wingFatal; dsimp only; split <;> rfl
@[simp] theorem State.wingFatal_server (s : State) (w code d : Nat) : (s.wingFatal w code d).server = s.server := by unfold State.wingFatal; dsimp only; split <;> rfl
@[simp] theorem State.wingFatal_flash (s : State) (w code d : Nat) : (s.wingFatal w code d).flash = s.flash := by unfold State.wingFatal; dsimp only; split <;> rfl
@[simp] theorem State.wingFatal_sec (s : State) (w code d : Nat) : (s.wingFatal w code d).sec = s.sec := by unfold State.wingFatal; dsimp only; split <;> rfl
@[simp] theorem State.wingFatal_pins (s : State) (w code d : Nat) : (s.wingFatal w code d).pins = s.pins := by unfold State.wingFatal; dsimp only; split <;> rfl
@[simp] theorem State.wingFatal_beat (s : State) (w code d : Nat) : (s.wingFatal w code d).beat = s.beat := by unfold State.wingFatal; dsimp only; split <;> rfl
@[simp] theorem State.wingFatal_work (s : State) (w code d : Nat) : (s.wingFatal w code d).work = s.work := by unfold State.wingFatal; dsimp only; split <;> rfl
@[simp] theorem State.wingFatal_mem (s : State) (w code d : Nat) : (s.wingFatal w code d).mem = s.mem := by unfold State.wingFatal; dsimp only; split <;> rfl
@[simp] theorem State.wingFatal_folio (s : State) (w code d : Nat) : (s.wingFatal w code d).folio = s.folio := by unfold State.wingFatal; dsimp only; split <;> rfl
@[simp] theorem State.wingFatal_torus (s : State) (w code d : Nat) : (s.wingFatal w code d).torus = s.torus := by unfold State.wingFatal; dsimp only; split <;> rfl
@[simp] theorem State.wingFatal_coll (s : State) (w code d : Nat) : (s.wingFatal w code d).coll = s.coll := by unfold State.wingFatal; dsimp only; split <;> rfl
@[simp] theorem State.wingFatal_ship (s : State) (w code d : Nat) : (s.wingFatal w code d).ship = s.ship := by unfold State.wingFatal; dsimp only; split <;> rfl
@[simp] theorem State.wingFatal_host (s : State) (w code d : Nat) : (s.wingFatal w code d).host = s.host := by unfold State.wingFatal; dsimp only; split <;> rfl
@[simp] theorem State.wingFatal_power (s : State) (w code d : Nat) : (s.wingFatal w code d).power = s.power := by unfold State.wingFatal; dsimp only; split <;> rfl
@[simp] theorem State.wingFatal_cur (s : State) (w code d : Nat) : (s.wingFatal w code d).cur = s.cur := by unfold State.wingFatal; dsimp only; split <;> rfl

@[simp] theorem State.packageFatal_pending (s : State) : (s.packageFatal).pending = s.pending := by unfold State.packageFatal; dsimp only; split <;> simp
@[simp] theorem State.packageFatal_free (s : State) : (s.packageFatal).free = s.free := by unfold State.packageFatal; dsimp only; split <;> simp
@[simp] theorem State.packageFatal_catSeal (s : State) : (s.packageFatal).catSeal = s.catSeal := by unfold State.packageFatal; dsimp only; split <;> simp
@[simp] theorem State.packageFatal_inUse (s : State) : (s.packageFatal).inUse = s.inUse := by unfold State.packageFatal; dsimp only; split <;> simp
@[simp] theorem State.packageFatal_doms (s : State) : (s.packageFatal).doms = s.doms := by unfold State.packageFatal; dsimp only; split <;> simp
@[simp] theorem State.packageFatal_sec (s : State) : (s.packageFatal).sec = s.sec := by unfold State.packageFatal; dsimp only; split <;> simp
@[simp] theorem State.packageFatal_pins (s : State) : (s.packageFatal).pins = s.pins := by unfold State.packageFatal; dsimp only; split <;> simp
@[simp] theorem State.packageFatal_beat (s : State) : (s.packageFatal).beat = s.beat := by unfold State.packageFatal; dsimp only; split <;> simp
@[simp] theorem State.packageFatal_wings (s : State) : (s.packageFatal).wings = s.wings := by unfold State.packageFatal; dsimp only; split <;> simp
@[simp] theorem State.packageFatal_work (s : State) : (s.packageFatal).work = s.work := by unfold State.packageFatal; dsimp only; split <;> simp
@[simp] theorem State.packageFatal_mem (s : State) : (s.packageFatal).mem = s.mem := by unfold State.packageFatal; dsimp only; split <;> simp
@[simp] theorem State.packageFatal_folio (s : State) : (s.packageFatal).folio = s.folio := by unfold State.packageFatal; dsimp only; split <;> simp
@[simp] theorem State.packageFatal_torus (s : State) : (s.packageFatal).torus = s.torus := by unfold State.packageFatal; dsimp only; split <;> simp
@[simp] theorem State.packageFatal_coll (s : State) : (s.packageFatal).coll = s.coll := by unfold State.packageFatal; dsimp only; split <;> simp
@[simp] theorem State.packageFatal_ship (s : State) : (s.packageFatal).ship = s.ship := by unfold State.packageFatal; dsimp only; split <;> simp
@[simp] theorem State.packageFatal_power (s : State) : (s.packageFatal).power = s.power := by unfold State.packageFatal; dsimp only; split <;> simp

@[simp] theorem State.raise_pending (s : State) (code u i : Nat) (w : Option Nat) (dt : List Byte) : (s.raise code u i w dt).pending = s.pending := by
  unfold State.raise; dsimp only; split <;> split <;> simp
@[simp] theorem State.raise_free (s : State) (code u i : Nat) (w : Option Nat) (dt : List Byte) : (s.raise code u i w dt).free = s.free := by
  unfold State.raise; dsimp only; split <;> split <;> simp
@[simp] theorem State.raise_catSeal (s : State) (code u i : Nat) (w : Option Nat) (dt : List Byte) : (s.raise code u i w dt).catSeal = s.catSeal := by
  unfold State.raise; dsimp only; split <;> split <;> simp
@[simp] theorem State.raise_inUse (s : State) (code u i : Nat) (w : Option Nat) (dt : List Byte) : (s.raise code u i w dt).inUse = s.inUse := by
  unfold State.raise; dsimp only; split <;> split <;> simp
@[simp] theorem State.raise_doms (s : State) (code u i : Nat) (w : Option Nat) (dt : List Byte) : (s.raise code u i w dt).doms = s.doms := by
  unfold State.raise; dsimp only; split <;> split <;> simp
@[simp] theorem State.raise_sec (s : State) (code u i : Nat) (w : Option Nat) (dt : List Byte) : (s.raise code u i w dt).sec = s.sec := by
  unfold State.raise; dsimp only; split <;> split <;> simp
@[simp] theorem State.raise_pins (s : State) (code u i : Nat) (w : Option Nat) (dt : List Byte) : (s.raise code u i w dt).pins = s.pins := by
  unfold State.raise; dsimp only; split <;> split <;> simp
@[simp] theorem State.raise_beat (s : State) (code u i : Nat) (w : Option Nat) (dt : List Byte) : (s.raise code u i w dt).beat = s.beat := by
  unfold State.raise; dsimp only; split <;> split <;> simp
@[simp] theorem State.raise_work (s : State) (code u i : Nat) (w : Option Nat) (dt : List Byte) : (s.raise code u i w dt).work = s.work := by
  unfold State.raise; dsimp only; split <;> split <;> simp
@[simp] theorem State.raise_folio (s : State) (code u i : Nat) (w : Option Nat) (dt : List Byte) : (s.raise code u i w dt).folio = s.folio := by
  unfold State.raise; dsimp only; split <;> split <;> simp
@[simp] theorem State.raise_torus (s : State) (code u i : Nat) (w : Option Nat) (dt : List Byte) : (s.raise code u i w dt).torus = s.torus := by
  unfold State.raise; dsimp only; split <;> split <;> simp
@[simp] theorem State.raise_coll (s : State) (code u i : Nat) (w : Option Nat) (dt : List Byte) : (s.raise code u i w dt).coll = s.coll := by
  unfold State.raise; dsimp only; split <;> split <;> simp
@[simp] theorem State.raise_ship (s : State) (code u i : Nat) (w : Option Nat) (dt : List Byte) : (s.raise code u i w dt).ship = s.ship := by
  unfold State.raise; dsimp only; split <;> split <;> simp
@[simp] theorem State.raise_power (s : State) (code u i : Nat) (w : Option Nat) (dt : List Byte) : (s.raise code u i w dt).power = s.power := by
  unfold State.raise; dsimp only; split <;> split <;> simp

@[simp] theorem State.wingMismatch_pending (s : State) (a w ty : Nat) : (s.wingMismatch a w ty).pending = s.pending := by unfold State.wingMismatch; dsimp only; rw [apply_ite State.pending]; simp
@[simp] theorem State.wingMismatch_free (s : State) (a w ty : Nat) : (s.wingMismatch a w ty).free = s.free := by unfold State.wingMismatch; dsimp only; rw [apply_ite State.free]; simp
@[simp] theorem State.wingMismatch_catSeal (s : State) (a w ty : Nat) : (s.wingMismatch a w ty).catSeal = s.catSeal := by unfold State.wingMismatch; dsimp only; rw [apply_ite State.catSeal]; simp
@[simp] theorem State.wingMismatch_inUse (s : State) (a w ty : Nat) : (s.wingMismatch a w ty).inUse = s.inUse := by unfold State.wingMismatch; dsimp only; rw [apply_ite State.inUse]; simp
@[simp] theorem State.wingMismatch_doms (s : State) (a w ty : Nat) : (s.wingMismatch a w ty).doms = s.doms := by unfold State.wingMismatch; dsimp only; rw [apply_ite State.doms]; simp
@[simp] theorem State.wingMismatch_sec (s : State) (a w ty : Nat) : (s.wingMismatch a w ty).sec = s.sec := by unfold State.wingMismatch; dsimp only; rw [apply_ite State.sec]; simp
@[simp] theorem State.wingMismatch_pins (s : State) (a w ty : Nat) : (s.wingMismatch a w ty).pins = s.pins := by unfold State.wingMismatch; dsimp only; rw [apply_ite State.pins]; simp
@[simp] theorem State.wingMismatch_beat (s : State) (a w ty : Nat) : (s.wingMismatch a w ty).beat = s.beat := by unfold State.wingMismatch; dsimp only; rw [apply_ite State.beat]; simp
@[simp] theorem State.wingMismatch_work (s : State) (a w ty : Nat) : (s.wingMismatch a w ty).work = s.work := by unfold State.wingMismatch; dsimp only; rw [apply_ite State.work]; simp
@[simp] theorem State.wingMismatch_folio (s : State) (a w ty : Nat) : (s.wingMismatch a w ty).folio = s.folio := by unfold State.wingMismatch; dsimp only; rw [apply_ite State.folio]; simp
@[simp] theorem State.wingMismatch_torus (s : State) (a w ty : Nat) : (s.wingMismatch a w ty).torus = s.torus := by unfold State.wingMismatch; dsimp only; rw [apply_ite State.torus]; simp
@[simp] theorem State.wingMismatch_coll (s : State) (a w ty : Nat) : (s.wingMismatch a w ty).coll = s.coll := by unfold State.wingMismatch; dsimp only; rw [apply_ite State.coll]; simp
@[simp] theorem State.wingMismatch_ship (s : State) (a w ty : Nat) : (s.wingMismatch a w ty).ship = s.ship := by unfold State.wingMismatch; dsimp only; rw [apply_ite State.ship]; simp
@[simp] theorem State.wingMismatch_power (s : State) (a w ty : Nat) : (s.wingMismatch a w ty).power = s.power := by unfold State.wingMismatch; dsimp only; rw [apply_ite State.power]; simp

/-! ### Reads after writes -/

theorem catGet_catSet (m : NMap) (k j v : Nat) : catGet (catSet m k v) j = if j = k then v else catGet m j := by
  unfold catGet catSet
  by_cases hv : v = defaultOf k <;> by_cases hj : j = k <;> simp [hv, hj, mget_mdel_ne, mget_mput_ne]

/-- An object read after one is written. -/
theorem State.obj_setObj (s : State) (acc sub v a b : Nat) :
    (s.setObj acc sub v).obj a b = if objKey a b = objKey acc sub then v else s.obj a b := catGet_catSet _ _ _ _

@[simp] theorem State.obj_setObj_self (s : State) (acc sub v : Nat) : (s.setObj acc sub v).obj acc sub = v := by
  simp [State.obj_setObj]

theorem State.obj_setObj_ne (s : State) (acc sub v a b : Nat) (h : objKey a b ≠ objKey acc sub) :
    (s.setObj acc sub v).obj a b = s.obj a b := by simp [State.obj_setObj, h]

/-- A value depends on the Catalogue alone. -/
theorem State.obj_congr (s t : State) (h : s.cat = t.cat) (a b : Nat) : s.obj a b = t.obj a b := by unfold State.obj; rw [h]

theorem State.obj_count (s : State) (acc sub n a b : Nat) :
    (s.count acc sub n).obj a b =
      if objKey a b = objKey acc sub ∧ n ≠ 0 then (s.obj acc sub + n) % 2 ^ (8 * objLen acc sub) else s.obj a b := by
  unfold State.count; split
  · next h => simp [h]
  · next h => simp [State.obj_setObj, h]

theorem State.wing_setWing (s : State) (w x : Nat) (v : Wing) :
    (s.setWing w v).wing x = if x = w then v else s.wing x := mget_mset _ _ _ _ _

@[simp] theorem State.wing_setWing_self (s : State) (w : Nat) (v : Wing) : (s.setWing w v).wing w = v := by
  simp [State.wing_setWing]

theorem State.window_setWindow (s : State) (fn x : Nat) (v : Window) :
    (s.setWindow fn v).window x = if x = fn then v else s.window x := mget_mset _ _ _ _ _

@[simp] theorem State.window_setWindow_self (s : State) (fn : Nat) (v : Window) : (s.setWindow fn v).window fn = v := by
  simp [State.window_setWindow]

theorem State.seq_setSeq (s : State) (h sl a b : Nat) (q : Seq) :
    (s.setSeq h sl q).seq a b = if slotKey a b = slotKey h sl then q else s.seq a b := mget_mset _ _ _ _ _

@[simp] theorem State.seq_setSeq_self (s : State) (h sl : Nat) (q : Seq) : (s.setSeq h sl q).seq h sl = q := by
  simp [State.seq_setSeq]

@[simp] theorem State.engine_setEngine_self (s : State) (h sl : Nat) (e : Engine) : (s.setEngine h sl e).engine h sl = e :=
  mget_mset_self _ _ _ _

theorem State.engine_setEngine (s : State) (h sl a b : Nat) (e : Engine) :
    (s.setEngine h sl e).engine a b = if slotKey a b = slotKey h sl then e else s.engine a b := mget_mset _ _ _ _ _

@[simp] theorem State.core_setCore_self (s : State) (h k : Nat) (c : Core) : (s.setCore h k c).core h k = c :=
  mget_mset_self _ _ _ _

theorem State.core_setCore (s : State) (h k a b : Nat) (c : Core) :
    (s.setCore h k c).core a b = if slotKey a b = slotKey h k then c else s.core a b := mget_mset _ _ _ _ _

@[simp] theorem State.ring_setRing_self (s : State) (h k : Nat) (r : Ring) : (s.setRing h k r).ring h k = r :=
  mget_mset_self _ _ _ _

theorem State.ring_setRing (s : State) (h k a b : Nat) (r : Ring) :
    (s.setRing h k r).ring a b = if a * 256 + b = h * 256 + k then r else s.ring a b := mget_mset _ _ _ _ _

@[simp] theorem State.seq_setEngine (s : State) (h sl a b : Nat) (e : Engine) : (s.setEngine h sl e).seq a b = s.seq a b := rfl
@[simp] theorem State.seq_setCore (s : State) (h k a b : Nat) (c : Core) : (s.setCore h k c).seq a b = s.seq a b := rfl
@[simp] theorem State.seq_setRing (s : State) (h k a b : Nat) (r : Ring) : (s.setRing h k r).seq a b = s.seq a b := rfl
@[simp] theorem State.engine_setSeq (s : State) (h sl a b : Nat) (q : Seq) : (s.setSeq h sl q).engine a b = s.engine a b := rfl
@[simp] theorem State.core_setSeq (s : State) (h sl a b : Nat) (q : Seq) : (s.setSeq h sl q).core a b = s.core a b := rfl
@[simp] theorem State.ring_setSeq (s : State) (h sl a b : Nat) (q : Seq) : (s.setSeq h sl q).ring a b = s.ring a b := rfl
@[simp] theorem State.core_setEngine (s : State) (h sl a b : Nat) (e : Engine) : (s.setEngine h sl e).core a b = s.core a b := rfl
@[simp] theorem State.ring_setEngine (s : State) (h sl a b : Nat) (e : Engine) : (s.setEngine h sl e).ring a b = s.ring a b := rfl

@[simp] theorem State.seq_countDue (s : State) (w acc sub n a b : Nat) : (s.countDue w acc sub n).seq a b = s.seq a b := by
  unfold State.countDue; split <;> rfl
@[simp] theorem State.engine_countDue (s : State) (w acc sub n a b : Nat) : (s.countDue w acc sub n).engine a b = s.engine a b := by
  unfold State.countDue; split <;> rfl
@[simp] theorem State.core_countDue (s : State) (w acc sub n a b : Nat) : (s.countDue w acc sub n).core a b = s.core a b := by
  unfold State.countDue; split <;> rfl
@[simp] theorem State.ring_countDue (s : State) (w acc sub n a b : Nat) : (s.countDue w acc sub n).ring a b = s.ring a b := by
  unfold State.countDue; split <;> rfl

/-- A sequencer depends on the work of the package alone. -/
theorem State.seq_congr (s t : State) (h : s.work = t.work) (a b : Nat) : s.seq a b = t.seq a b := by unfold State.seq; rw [h]

/-- The core of a slot depends on the Catalogue and the sparing under way. -/
theorem State.coreOf_congr (s t : State) (h : s.cat = t.cat) (h2 : s.cur = t.cur) (a b : Nat) : s.coreOf a b = t.coreOf a b := by
  unfold State.coreOf; rw [State.obj_congr s t h, h2]

end Sys2Proof.Machine
end

