-- ==== Sys2Proof/Laws/Memory.lean ====
section
/-! SUPPORT. Laws of memory: every operation keeps the canonical form; a write is read back and leaves every other address as it read. -/

namespace Sys2Proof.Machine

open Sys2Proof

/-! ### The canonical form -/

theorem Mem.wf_iff (m : Mem) : m.wf = true ↔
    mwf 0#8 m.cells = true ∧ mwf 0 m.valid = true ∧ rising m.checks = true ∧ m.checks.all (fun e => e.2 != checkDefault e.1) = true := by
  simp [Mem.wf, and_assoc]

theorem foldl_inv {α β : Type} (P : α → Prop) (f : α → β → α) (l : List β) (h : ∀ t x, P t → P (f t x)) :
    ∀ s, P s → P (l.foldl f s) := by
  induction l with
  | nil => intro s hs; exact hs
  | cons x xs ih => intro s hs; exact ih _ (h s x hs)

theorem Mem.wf_putBytes (m : Mem) (a : Nat) (bs : List Byte) (h : m.wf = true) : (m.putBytes a bs).wf = true := by
  rw [Mem.wf_iff] at *
  refine ⟨?_, h.2⟩
  exact foldl_inv (fun c => mwf 0#8 c = true) _ _ (fun t x ht => mwf_mset _ _ _ _ ht) _ h.1

theorem Mem.wf_putCheck (m : Mem) (w : Nat) (c : Byte) (h : m.wf = true) : (m.putCheck w c).wf = true := by
  rw [Mem.wf_iff] at *
  refine ⟨h.1, h.2.1, ?_, ?_⟩
  · simp only [Mem.putCheck]; split
    · rw [mdel_eq_filter]; exact rising_filter _ _ h.2.2.1
    · exact rising_mput _ _ _ h.2.2.1
  · simp only [Mem.putCheck]; split
    · rw [mdel_eq_filter]; exact all_filter _ _ _ h.2.2.2
    · next hc => exact all_mput _ _ _ _ (by simpa using hc) h.2.2.2

theorem Mem.wf_writeWord (m : Mem) (w off : Nat) (bs : List Byte) (h : m.wf = true) : (m.writeWord w off bs).wf = true := by
  unfold Mem.writeWord; exact Mem.wf_putCheck _ _ _ (Mem.wf_putBytes _ _ _ h)

theorem Mem.wf_writeRaw (m : Mem) (a : Nat) (bs : List Byte) (h : m.wf = true) : (m.writeRaw a bs).wf = true := by
  unfold Mem.writeRaw
  exact foldl_inv (fun m : Mem => m.wf = true) _ _ (fun t x ht => Mem.wf_writeWord _ _ _ _ ht) _ h

theorem Mem.wf_dropRange (m : Mem) (lo hi a b : Nat) (h : m.wf = true) :
    ({ m with cells := mdelRange m.cells lo hi, checks := mdelRange m.checks a b } : Mem).wf = true := by
  rw [Mem.wf_iff] at *
  exact ⟨mwf_mdelRange _ _ _ _ h.1, h.2.1, rising_filter _ _ h.2.2.1, all_filter _ _ _ h.2.2.2⟩

theorem Mem.wf_openGranule (m : Mem) (g : Nat) (h : m.wf = true) : (m.openGranule g).wf = true := by
  unfold Mem.openGranule; split
  · exact h
  · rw [Mem.wf_iff] at *
    exact ⟨mwf_mdelRange _ _ _ _ h.1, mwf_mset 0 m.valid g 1 h.2.1, rising_filter _ _ h.2.2.1, all_filter _ _ _ h.2.2.2⟩

theorem Mem.wf_write (m : Mem) (a : Nat) (bs : List Byte) (h : m.wf = true) : (m.write a bs).wf = true := by
  unfold Mem.write; split
  · exact h
  · dsimp only
    apply Mem.wf_writeRaw
    split
    · exact foldl_inv (fun m : Mem => m.wf = true) _ _ (fun t x ht => Mem.wf_openGranule _ _ ht) _ h
    · exact h

theorem Mem.wf_clearGranules (m : Mem) (lo hi : Nat) (h : m.wf = true) : (m.clearGranules lo hi).wf = true := by
  rw [Mem.wf_iff] at *
  exact ⟨mwf_mdelRange _ _ _ _ h.1, mwf_mdelRange _ _ _ _ h.2.1, rising_filter _ _ h.2.2.1, all_filter _ _ _ h.2.2.2⟩

theorem Mem.wf_unwrite (m : Mem) (lo hi : Nat) (h : m.wf = true) : (m.unwrite lo hi).wf = true :=
  Mem.wf_dropRange m lo hi (lo / 8) (hi / 8) h

theorem Mem.wf_writeBack (m : Mem) (sector : Nat) (h : m.wf = true) : (m.writeBack sector).wf = true := by
  unfold Mem.writeBack
  refine foldl_inv (fun m : Mem => m.wf = true) _ _ (fun t x ht => ?_) _ h
  split
  · exact Mem.wf_putCheck _ _ _ (Mem.wf_putBytes _ _ _ ht)
  · exact ht

theorem State.wf_writeMem (s : State) (a : Nat) (bs : List Byte) (h : s.mem.wf = true) : (s.writeMem a bs).mem.wf = true :=
  Mem.wf_write _ _ _ h

theorem State.reset_mem_wf : State.reset.mem.wf = true := rfl

/-! ### Bytes and check bytes after a write -/

theorem foldl_zipIdx_mset (a : Nat) : ∀ (bs : List Byte) (i : Nat) (c : SMap Byte) (x : Nat),
    mget 0#8 ((bs.zipIdx i).foldl (fun c b => mset 0#8 c (a + b.2) b.1) c) x =
      if a + i ≤ x ∧ x < a + i + bs.length then bs.getD (x - (a + i)) 0#8 else mget 0#8 c x
  | [], i, c, x => by
    rw [if_neg (by simp only [List.length_nil]; omega)]; rfl
  | b :: bs, i, c, x => by
    rw [List.zipIdx_cons, List.foldl_cons, foldl_zipIdx_mset a bs (i + 1), mget_mset]
    simp only [List.length_cons]
    by_cases h1 : x = a + i
    · subst h1
      rw [if_neg (by omega), if_pos rfl, if_pos (by omega), Nat.sub_self, List.getD_cons_zero]
    · by_cases h2 : a + (i + 1) ≤ x ∧ x < a + (i + 1) + bs.length
      · rw [if_pos h2, if_pos (by omega)]
        obtain ⟨n, hn⟩ : ∃ n, x - (a + i) = n + 1 := ⟨x - (a + i) - 1, by omega⟩
        rw [hn, List.getD_cons_succ]; congr 1; omega
      · rw [if_neg h2, if_neg h1, if_neg (by omega)]

theorem Mem.byte_putBytes (m : Mem) (a : Nat) (bs : List Byte) (x : Nat) :
    (m.putBytes a bs).byte x = if a ≤ x ∧ x < a + bs.length then bs.getD (x - a) 0#8 else m.byte x := by
  have := foldl_zipIdx_mset a bs 0 m.cells x
  simpa [Mem.byte, Mem.putBytes] using this

theorem Mem.check_putCheck (m : Mem) (w v : Nat) (c : Byte) :
    (m.putCheck w c).check v = if v = w then c else m.check v := by
  unfold Mem.check Mem.putCheck
  by_cases hc : c = checkDefault w <;> by_cases hv : v = w <;> simp [hc, hv, mget_mdel_ne, mget_mput_ne]

@[simp] theorem Mem.byte_putCheck (m : Mem) (w x : Nat) (c : Byte) : (m.putCheck w c).byte x = m.byte x := rfl
@[simp] theorem Mem.check_putBytes (m : Mem) (a x : Nat) (bs : List Byte) : (m.putBytes a bs).check x = m.check x := rfl

/-! ### Little-endian bytes -/

@[simp] theorem length_leBytes (n v : Nat) : (leBytes n v).length = n := by
  induction n generalizing v with
  | zero => rfl
  | succ n ih => simp [leBytes, ih]

theorem getD_leBytes (n v i : Nat) (h : i < n) : (leBytes n v).getD i 0#8 = BitVec.ofNat 8 (v >>> (8 * i)) := by
  induction n generalizing v i with
  | zero => omega
  | succ n ih =>
    cases i with
    | zero => simp [leBytes]
    | succ i =>
      simp only [leBytes, List.getD_cons_succ]
      rw [ih _ _ (by omega), Nat.shiftRight_eq_div_pow, Nat.shiftRight_eq_div_pow]
      congr 1
      rw [Nat.mul_add, Nat.pow_add, Nat.div_div_eq_div_mul, Nat.mul_comm (2 ^ (8 * i))]

theorem leNat_shift : ∀ (bs : List Byte) (i : Nat), BitVec.ofNat 8 (leNat bs >>> (8 * i)) = bs.getD i 0#8
  | [], i => by simp [leNat]
  | b :: bs, 0 => by
    simp only [leNat, Nat.mul_zero, Nat.shiftRight_zero, List.getD_cons_zero]
    apply BitVec.eq_of_toNat_eq
    have := b.isLt
    simp only [BitVec.toNat_ofNat]; omega
  | b :: bs, i + 1 => by
    simp only [leNat, List.getD_cons_succ]
    rw [← leNat_shift bs i, Nat.shiftRight_eq_div_pow, Nat.shiftRight_eq_div_pow]
    congr 1
    have := b.isLt
    rw [Nat.mul_add, Nat.pow_add, Nat.mul_comm (2 ^ (8 * i)), ← Nat.div_div_eq_div_mul]
    congr 1
    show (b.toNat + 256 * leNat bs) / 256 = _
    omega

theorem leNat_lt (bs : List Byte) : leNat bs < 2 ^ (8 * bs.length) := by
  induction bs with
  | nil => simp [leNat]
  | cons b bs ih =>
    have := b.isLt
    simp only [leNat, List.length_cons, Nat.mul_add, Nat.pow_add]
    omega

/-! ### What a word holds -/

theorem secdedCols_lt : ∀ c ∈ secdedCols, c < 256 := by decide

theorem foldl_xor_lt (w : Nat) : ∀ (l : List (Nat × Nat)) (a : Nat), (∀ c ∈ l, c.1 < 256) → a < 256 →
    l.foldl (fun acc c => if bitOf w c.2 then acc ^^^ c.1 else acc) a < 256
  | [], a, _, h => h
  | c :: t, a, hl, h => by
    rw [List.foldl_cons]
    apply foldl_xor_lt w t _ (fun d hd => hl d (List.mem_cons_of_mem _ hd))
    split
    · exact Nat.xor_lt_two_pow (n := 8) h (hl c (List.mem_cons_self ..))
    · exact h

theorem secded_lt (w : Nat) : secded w < 256 := by
  apply foldl_xor_lt
  · intro c hc
    obtain ⟨i, hi⟩ := List.mem_iff_getElem.mp hc
    obtain ⟨hlt, rfl⟩ := hi
    rw [List.getElem_zipIdx]
    exact secdedCols_lt _ (List.getElem_mem _)
  · decide

/-- Reading a word whose check byte is that of its data with a syndrome added. -/
theorem readWord_syndrome (d syn : Nat) (h : syn < 256) :
    readWord d (BitVec.ofNat 8 (secded d ^^^ syn)).toNat = readWord d (secded d ^^^ syn) := by
  have : secded d ^^^ syn < 2 ^ 8 := Nat.xor_lt_two_pow (secded_lt d) h
  rw [BitVec.toNat_ofNat, Nat.mod_eq_of_lt this]

/-- The data of a word does not depend on the data when its syndrome corrects nothing. -/
theorem readWord_good (d : Nat) : readWord d (secded d ^^^ 0) = .good d := by
  simp [readWord]

theorem readWord_bad (d e c s : Nat) (h : readWord e c = .uncorrectable e s) :
    readWord d (secded d ^^^ s) = .uncorrectable d s := by
  have hx : secded d ^^^ s ^^^ secded d = s := by
    rw [Nat.xor_comm (secded d) s, Nat.xor_assoc, Nat.xor_self, Nat.xor_zero]
  unfold readWord at *
  simp only [hx] at *
  by_cases h1 : c ^^^ secded e = 0
  · simp [h1] at h
  · simp only [h1, if_false] at h
    by_cases h2 : ([1, 2, 4, 8, 16, 32, 64, 128] : List Nat).contains (c ^^^ secded e)
    · simp only [h2, if_true] at h; cases h
    · simp only [h2] at h
      cases h3 : secdedCols.findIdx? (· == c ^^^ secded e) with
      | some i => simp [h3] at h
      | none =>
        simp only [h3] at h
        have : c ^^^ secded e = s := by injection h
        rw [this] at h1 h2 h3
        rw [if_neg h1, if_neg h2, h3]

theorem readWord_unc (d c e s : Nat) (h : readWord d c = .uncorrectable e s) : e = d := by
  unfold readWord at h
  simp only at h
  split at h
  · cases h
  · split at h
    · cases h
    · split at h
      · cases h
      · injection h with h1 _; exact h1.symm

theorem readWord_unc_lt (d : Nat) (c : Byte) (e s : Nat) (h : readWord d c.toNat = .uncorrectable e s) : s < 256 := by
  have hc := c.isLt
  unfold readWord at h
  simp only at h
  split at h
  · cases h
  · split at h
    · cases h
    · split at h
      · cases h
      · injection h with _ h2
        rw [← h2]; exact Nat.xor_lt_two_pow (n := 8) hc (secded_lt d)

/-! ### Data after a write -/

/-- The data byte at an address: the stored word's, corrected where the code corrects it. -/
def Mem.data (m : Mem) (a : Nat) : Byte := BitVec.ofNat 8 ((m.read (a / 8)).data >>> (8 * (a % 8)))

theorem Mem.word_congr (m n : Mem) (w : Nat) (h : ∀ i, i < 8 → m.byte (8 * w + i) = n.byte (8 * w + i)) : m.word w = n.word w := by
  unfold Mem.word; congr 1
  apply List.map_congr_left
  intro i hi
  exact h i (List.mem_range.mp hi)

theorem Mem.read_congr (m n : Mem) (w : Nat) (h : ∀ i, i < 8 → m.byte (8 * w + i) = n.byte (8 * w + i)) (hc : m.check w = n.check w) :
    m.read w = n.read w := by
  unfold Mem.read; rw [Mem.word_congr m n w h, hc]

theorem length_slice (bs : List Byte) (a n : Nat) : (slice bs a n).length = n := by
  simp only [slice, List.length_append, List.length_replicate, List.length_take, List.length_drop]; omega

theorem getD_slice (bs : List Byte) (a n i : Nat) (h : i < n) : (slice bs a n).getD i 0#8 = bs.getD (a + i) 0#8 := by
  simp only [slice, List.getD_eq_getElem?_getD]
  by_cases hi : a + i < bs.length
  · rw [List.getElem?_append_left (by simp; omega), List.getElem?_take]
    simp [h]
  · rw [List.getElem?_append_right (by simp; omega), List.getElem?_replicate]
    rw [List.getElem?_eq_none (by omega)]
    split <;> rfl

theorem getD_append_left (a b : List Byte) (i : Nat) (h : i < a.length) : (a ++ b).getD i 0#8 = a.getD i 0#8 := by
  simp only [List.getD_eq_getElem?_getD]; rw [List.getElem?_append_left h]

theorem getD_append_right (a b : List Byte) (i : Nat) (h : a.length ≤ i) : (a ++ b).getD i 0#8 = b.getD (i - a.length) 0#8 := by
  simp only [List.getD_eq_getElem?_getD]; rw [List.getElem?_append_right h]

theorem length_overlay (bs new : List Byte) (off : Nat) (h : off + new.length ≤ bs.length) :
    (overlay bs off new).length = bs.length := by
  simp [overlay, length_slice]; omega

theorem getD_overlay (bs new : List Byte) (off i : Nat) :
    (overlay bs off new).getD i 0#8 = if off ≤ i ∧ i < off + new.length then new.getD (i - off) 0#8 else bs.getD i 0#8 := by
  unfold overlay
  by_cases h1 : i < off
  · rw [List.append_assoc, getD_append_left _ _ _ (by rw [length_slice]; exact h1), getD_slice _ _ _ _ h1, if_neg (by omega), Nat.zero_add]
  · by_cases h2 : i < off + new.length
    · rw [getD_append_left _ _ _ (by simp [length_slice]; omega), getD_append_right _ _ _ (by rw [length_slice]; omega),
        length_slice, if_pos (by omega)]
    · rw [getD_append_right _ _ _ (by simp [length_slice]; omega), if_neg (by omega)]
      simp only [List.length_append, length_slice, List.getD_eq_getElem?_getD, List.getElem?_drop]
      congr 2; omega

theorem unwritten_data (m : Mem) (w i : Nat) (h : m.unwritten w = true) :
    BitVec.ofNat 8 ((m.read w).data >>> (8 * i)) = 0#8 := by
  have h2 : (m.check w = 0xFF#8) ∧ m.word w = 0 := by
    simp only [Mem.unwritten, Bool.and_eq_true, beq_iff_eq] at h
    exact ⟨h.1.2, h.2⟩
  have h3 : m.read w = .uncorrectable 0 255 := by
    unfold Mem.read; rw [h2.1, h2.2]; decide
  rw [h3]
  show BitVec.ofNat 8 (0 >>> (8 * i)) = 0#8
  rw [Nat.zero_shiftRight]

theorem word_of_bytes (m : Mem) (w : Nat) (bs : List Byte) (hl : bs.length = 8)
    (h : ∀ i, i < 8 → m.byte (8 * w + i) = bs.getD i 0#8) : m.word w = leNat bs := by
  unfold Mem.word; congr 1
  apply List.ext_getElem
  · simp [hl]
  · intro i h1 h2
    have hi : i < 8 := by simpa using h1
    simp only [List.getElem_map, List.getElem_range]
    rw [h i hi, List.getD_eq_getElem?_getD, List.getElem?_eq_getElem h2]; rfl

/-- A word laid down whole with a syndrome that corrects nothing. -/
theorem Mem.data_put (m : Mem) (w syn : Nat) (new : List Byte) (hl : new.length = 8)
    (hs : syn = 0 ∨ ∃ e c : Nat, readWord e c = .uncorrectable e syn) (hlt : syn < 256) (x : Nat) :
    ((m.putBytes (8 * w) new).putCheck w (BitVec.ofNat 8 (secded (leNat new) ^^^ syn))).data x =
      if x / 8 = w then new.getD (x % 8) 0#8 else m.data x := by
  unfold Mem.data
  split
  · next hx =>
    have hword : ((m.putBytes (8 * w) new).putCheck w (BitVec.ofNat 8 (secded (leNat new) ^^^ syn))).word w = leNat new := by
      apply word_of_bytes _ _ _ hl
      intro i hi
      rw [Mem.byte_putCheck, Mem.byte_putBytes, if_pos (by omega)]; congr 1; omega
    have hread : (((m.putBytes (8 * w) new).putCheck w (BitVec.ofNat 8 (secded (leNat new) ^^^ syn))).read w).data = leNat new := by
      unfold Mem.read
      rw [hword, Mem.check_putCheck, if_pos rfl, readWord_syndrome _ _ hlt]
      rcases hs with h | ⟨e, c, h⟩
      · rw [h, readWord_good]; rfl
      · rw [readWord_bad _ _ _ _ h]; rfl
    rw [hx, hread, leNat_shift]
  · next hx =>
    rw [Mem.read_congr _ m (x / 8)]
    · intro i hi
      rw [Mem.byte_putCheck, Mem.byte_putBytes, if_neg (by omega)]
    · rw [Mem.check_putCheck, if_neg hx, Mem.check_putBytes]

/-- What a word written in part holds afterwards. -/
theorem Mem.data_writeWord (m : Mem) (w off : Nat) (bs : List Byte) (hb : off + bs.length ≤ 8) (x : Nat) :
    (m.writeWord w off bs).data x =
      if 8 * w + off ≤ x ∧ x < 8 * w + off + bs.length then bs.getD (x - (8 * w + off)) 0#8 else m.data x := by
  unfold Mem.writeWord
  dsimp only
  have hbl : (if (decide (off = 0) && decide (8 ≤ bs.length) || m.unwritten w) = true then List.replicate 8 0#8
      else leBytes 8 (m.read w).data).length = 8 := by split <;> simp
  have hbd : ∀ i, i < 8 → ¬(off ≤ i ∧ i < off + bs.length) →
      (if (decide (off = 0) && decide (8 ≤ bs.length) || m.unwritten w) = true then List.replicate 8 0#8
        else leBytes 8 (m.read w).data).getD i 0#8 = BitVec.ofNat 8 ((m.read w).data >>> (8 * i)) := by
    intro i hi hn
    split
    · next hu =>
      have hu' : m.unwritten w = true := by
        rcases Bool.or_eq_true_iff.mp hu with h | h
        · simp only [Bool.and_eq_true, decide_eq_true_eq] at h; omega
        · exact h
      rw [unwritten_data m w _ hu', List.getD_eq_getElem?_getD, List.getElem?_replicate]; simp [hi]
    · rw [getD_leBytes _ _ _ hi]
  rw [Mem.data_put]
  · generalize (if (decide (off = 0) && decide (8 ≤ bs.length) || m.unwritten w) = true then List.replicate 8 0#8
      else leBytes 8 (m.read w).data) = base at hbl hbd
    by_cases hx : x / 8 = w
    · have hlt : x % 8 < 8 := Nat.mod_lt _ (by omega)
      rw [if_pos hx, getD_overlay]
      by_cases hc : off ≤ x % 8 ∧ x % 8 < off + bs.length
      · rw [if_pos hc, if_pos (by omega)]; congr 1; omega
      · rw [if_neg hc, if_neg (by omega), hbd _ hlt hc]; unfold Mem.data; rw [hx]
    · rw [if_neg hx, if_neg (by omega)]
  · rw [length_overlay _ _ _ (by omega), hbl]
  · split
    · exact Or.inl rfl
    · split
      · next d s h =>
        have he := readWord_unc _ _ _ _ h
        exact Or.inr ⟨_, _, by subst he; exact h⟩
      · exact Or.inl rfl
  · split
    · omega
    · split
      · next h => exact readWord_unc_lt _ _ _ _ h
      · omega

/-- The words of a write, one after another. -/
theorem Mem.data_writeWords (a : Nat) (bs : List Byte) : ∀ (n : Nat) (m : Mem) (x : Nat),
    ((List.range n).foldl (fun m i =>
      let lo := max a (8 * (a / 8 + i))
      let hi := min (a + bs.length) (8 * (a / 8 + i) + 8)
      m.writeWord (a / 8 + i) (lo % 8) ((bs.drop (lo - a)).take (hi - lo))) m).data x =
      if a ≤ x ∧ x < min (a + bs.length) (8 * (a / 8 + n)) then bs.getD (x - a) 0#8 else m.data x
  | 0, m, x => by
    rw [List.range_zero, List.foldl_nil, if_neg (by omega)]
  | n + 1, m, x => by
    rw [List.range_succ, List.foldl_append, List.foldl_cons, List.foldl_nil]
    dsimp only
    rw [Mem.data_writeWord, Mem.data_writeWords a bs n m x]
    · have hlen : ((bs.drop (max a (8 * (a / 8 + n)) - a)).take (min (a + bs.length) (8 * (a / 8 + n) + 8) - max a (8 * (a / 8 + n)))).length
          = min (a + bs.length) (8 * (a / 8 + n) + 8) - max a (8 * (a / 8 + n)) := by
        simp only [List.length_take, List.length_drop]; omega
      rw [hlen]
      by_cases h1 : max a (8 * (a / 8 + n)) ≤ x ∧ x < min (a + bs.length) (8 * (a / 8 + n) + 8)
      · rw [if_pos (by omega), if_pos (by omega)]
        simp only [List.getD_eq_getElem?_getD, List.getElem?_take, List.getElem?_drop]
        rw [if_pos (by omega)]; congr 2; omega
      · by_cases h2 : a ≤ x ∧ x < min (a + bs.length) (8 * (a / 8 + n))
        · rw [if_neg (by omega), if_pos h2, if_pos (by omega)]
        · rw [if_neg (by omega), if_neg h2, if_neg (by omega)]
    · simp only [List.length_take, List.length_drop]; omega

/-- What memory holds after a write of bytes. -/
theorem Mem.data_writeRaw (m : Mem) (a : Nat) (bs : List Byte) (x : Nat) :
    (m.writeRaw a bs).data x = if a ≤ x ∧ x < a + bs.length then bs.getD (x - a) 0#8 else m.data x := by
  unfold Mem.writeRaw
  dsimp only
  rw [Mem.data_writeWords]
  by_cases h : a ≤ x ∧ x < a + bs.length
  · rw [if_pos (by omega), if_pos h]
  · rw [if_neg (by omega), if_neg h]

/-! ### What a read delivers after a write -/

/-- What memory itself delivers, merge buffers aside. -/
def Mem.base (m : Mem) (a : Nat) : Byte := if isHbm a && !m.granuleValid a then 0#8 else m.data a

theorem Mem.deliver_eq (m : Mem) (a : Nat) : m.deliver a = if isHbm a then (m.overlayByte a).getD (m.base a) else m.base a := rfl

theorem Mem.deliver_sram (m : Mem) (a : Nat) (h : isHbm a = false) : m.deliver a = m.data a := by
  simp [Mem.deliver_eq, Mem.base, h]

theorem Mem.openGranule_valid (m : Mem) (g k : Nat) :
    mget 0 (m.openGranule g).valid k = if k = g then 1 else mget 0 m.valid k := by
  unfold Mem.openGranule
  split
  · next h => split
              · next hk => rw [hk, h]
              · rfl
  · exact mget_mset 0 m.valid g k 1

@[simp] theorem Mem.openGranule_merges (m : Mem) (g : Nat) : (m.openGranule g).merges = m.merges := by
  unfold Mem.openGranule; split <;> rfl

theorem Mem.data_zero (m : Mem) (x : Nat) (hb : ∀ i, i < 8 → m.byte (8 * (x / 8) + i) = 0#8) (hc : m.check (x / 8) = 0#8) :
    m.data x = 0#8 := by
  have hw : m.word (x / 8) = 0 := by
    rw [word_of_bytes m (x / 8) (List.replicate 8 0#8) (by simp)]
    · decide
    · intro i hi
      rw [hb i hi, List.getD_eq_getElem?_getD, List.getElem?_replicate]; simp [hi]
  have hr : m.read (x / 8) = .good 0 := by
    unfold Mem.read; rw [hw, hc]; decide
  unfold Mem.data
  rw [hr]
  show BitVec.ofNat 8 (0 >>> (8 * (x % 8))) = 0#8
  rw [Nat.zero_shiftRight]

/-- Opening a granule changes nothing that a read delivers (R391). -/
theorem Mem.base_openGranule (m : Mem) (g x : Nat) (hgr : 4096 * g + 4096 ≤ usableBytes) : (m.openGranule g).base x = m.base x := by
  by_cases hv : mget 0 m.valid g = 1
  · unfold Mem.openGranule; rw [if_pos hv]
  · by_cases hx : x / 4096 = g
    · by_cases hh : isHbm x = true
      · have h0 : m.granuleValid x = false := by
          unfold Mem.granuleValid; rw [hx]; simp [hv]
        have h1 : (m.openGranule g).granuleValid x = true := by
          unfold Mem.granuleValid; rw [Mem.openGranule_valid, if_pos hx]; rfl
        unfold Mem.base
        rw [hh, h0, h1]
        simp only [Bool.not_true, Bool.and_false, Bool.not_false, Bool.and_true, if_true, Bool.false_eq_true, if_false]
        unfold Mem.openGranule; rw [if_neg hv]
        apply Mem.data_zero
        · intro i hi
          show mget 0#8 (mdelRange m.cells _ _) _ = _
          rw [mget_mdelRange, if_pos (by omega)]
        · show mget (checkDefault (x / 8)) (mdelRange m.checks _ _) _ = _
          rw [mget_mdelRange, if_pos (by omega)]
          unfold checkDefault
          have : isHbm (8 * (x / 8)) = true := by
            unfold isHbm at *; simp only [decide_eq_true_eq] at *; omega
          rw [if_pos this]
      · exfalso; apply hh
        unfold isHbm; rw [decide_eq_true_iff]; omega
    · have hg : (m.openGranule g).granuleValid x = m.granuleValid x := by
        unfold Mem.granuleValid; rw [Mem.openGranule_valid, if_neg hx]
      have hd : (m.openGranule g).data x = m.data x := by
        unfold Mem.openGranule; rw [if_neg hv]
        unfold Mem.data
        rw [Mem.read_congr _ m (x / 8)]
        · intro i hi
          show mget 0#8 (mdelRange m.cells _ _) _ = _
          rw [mget_mdelRange, if_neg (by omega)]; rfl
        · show mget (checkDefault (x / 8)) (mdelRange m.checks _ _) _ = _
          rw [mget_mdelRange, if_neg (by omega)]; rfl
      unfold Mem.base
      rw [hg, hd]

/-- Opening the granules of a write. -/
theorem Mem.openFor_laws (a : Nat) : ∀ (n : Nat) (m : Mem), 4096 * (a / 4096 + n) ≤ usableBytes →
    let t := (List.range n).foldl (fun m i => m.openGranule (a / 4096 + i)) m
    t.merges = m.merges ∧ (∀ x, t.base x = m.base x) ∧ (∀ i, i < n → mget 0 t.valid (a / 4096 + i) = 1)
  | 0, m, _ => ⟨rfl, fun _ => rfl, fun _ h => absurd h (Nat.not_lt_zero _)⟩
  | n + 1, m, h => by
    obtain ⟨h1, h2, h3⟩ := Mem.openFor_laws a n m (by omega)
    dsimp only at *
    rw [List.range_succ, List.foldl_append, List.foldl_cons, List.foldl_nil]
    refine ⟨by rw [Mem.openGranule_merges, h1], fun x => by rw [Mem.base_openGranule _ _ _ (by omega), h2], fun i hi => ?_⟩
    rw [Mem.openGranule_valid]; split
    · rfl
    · exact h3 i (by omega)

theorem foldl_keeps' {α β γ : Type} (p : α → γ) (f : α → β → α) (l : List β) (h : ∀ t x, p (f t x) = p t) :
    ∀ s, p (l.foldl f s) = p s := by
  induction l with
  | nil => intro s; rfl
  | cons x xs ih => intro s; rw [List.foldl_cons, ih, h]

@[simp] theorem Mem.writeRaw_valid (m : Mem) (a : Nat) (bs : List Byte) : (m.writeRaw a bs).valid = m.valid := by
  unfold Mem.writeRaw; dsimp only; rw [foldl_keeps' Mem.valid]; intro t x; rfl

@[simp] theorem Mem.writeRaw_merges (m : Mem) (a : Nat) (bs : List Byte) : (m.writeRaw a bs).merges = m.merges := by
  unfold Mem.writeRaw; dsimp only; rw [foldl_keeps' Mem.merges]; intro t x; rfl

/-- The range of a write lies in HBM whole, or outside it whole. -/
def oneSide (a n : Nat) : Prop := a + n ≤ usableBytes ∨ usableBytes ≤ a

/-- What memory itself delivers after a write. -/
theorem Mem.base_write (m : Mem) (a : Nat) (bs : List Byte) (h : oneSide a bs.length) (x : Nat) :
    (m.write a bs).base x = if a ≤ x ∧ x < a + bs.length then bs.getD (x - a) 0#8 else m.base x := by
  unfold Mem.write
  split
  · next hb => subst hb; rw [if_neg (by simp)]
  · next hb =>
    have hpos : 0 < bs.length := List.length_pos_iff.mpr hb
    by_cases hh : isHbm a = true
    · rw [if_pos hh]
      have ha : a < usableBytes := by unfold isHbm at hh; simpa using hh
      have hend : a + bs.length ≤ usableBytes := by
        rcases h with h | h
        · exact h
        · omega
      have hu : usableBytes = 4096 * 83296256 := by decide
      obtain ⟨_, h2, h3⟩ := Mem.openFor_laws a ((a + bs.length - 1) / 4096 - a / 4096 + 1) m (by omega)
      generalize (List.range ((a + bs.length - 1) / 4096 - a / 4096 + 1)).foldl (fun m i => m.openGranule (a / 4096 + i)) m = t at h2 h3
      have hg : ∀ y, (t.writeRaw a bs).granuleValid y = t.granuleValid y := fun y => by
        unfold Mem.granuleValid; rw [Mem.writeRaw_valid]
      by_cases hx : a ≤ x ∧ x < a + bs.length
      · have hv : t.granuleValid x = true := by
          unfold Mem.granuleValid
          have := h3 (x / 4096 - a / 4096) (by omega)
          rw [show a / 4096 + (x / 4096 - a / 4096) = x / 4096 by omega] at this
          rw [this]; rfl
        unfold Mem.base
        rw [hg, hv, Mem.data_writeRaw, if_pos hx, if_pos hx]; simp
      · rw [if_neg hx, ← h2 x]
        unfold Mem.base
        rw [hg, Mem.data_writeRaw, if_neg hx]
    · have ha : usableBytes ≤ a := by
        unfold isHbm at hh; simpa using hh
      rw [if_neg hh]
      unfold Mem.base
      have hg : (m.writeRaw a bs).granuleValid x = m.granuleValid x := by
        unfold Mem.granuleValid; rw [Mem.writeRaw_valid]
      rw [hg, Mem.data_writeRaw]
      by_cases hx : a ≤ x ∧ x < a + bs.length
      · rw [if_pos hx, if_pos hx]
        have : isHbm x = false := by unfold isHbm; rw [decide_eq_false_iff_not]; omega
        simp [this]
      · rw [if_neg hx, if_neg hx]

@[simp] theorem Mem.write_merges (m : Mem) (a : Nat) (bs : List Byte) : (m.write a bs).merges = m.merges := by
  unfold Mem.write; split
  · rfl
  · dsimp only; rw [Mem.writeRaw_merges]; split
    · exact foldl_keeps' Mem.merges _ _ (fun t x => by simp) m
    · rfl

/-- A write is read back, and every other address reads as before; merge entries stay laid over HBM (R382). -/
theorem Mem.deliver_write (m : Mem) (a : Nat) (bs : List Byte) (h : oneSide a bs.length) (x : Nat) :
    (m.write a bs).deliver x =
      if isHbm x then (m.overlayByte x).getD (if a ≤ x ∧ x < a + bs.length then bs.getD (x - a) 0#8 else m.base x)
      else if a ≤ x ∧ x < a + bs.length then bs.getD (x - a) 0#8 else m.deliver x := by
  have ho : (m.write a bs).overlayByte x = m.overlayByte x := by unfold Mem.overlayByte; rw [Mem.write_merges]
  rw [Mem.deliver_eq, Mem.base_write m a bs h, ho]
  split
  · rfl
  · next hx => rw [Mem.deliver_eq, if_neg hx]

/-- Outside the bytes written a read delivers what it did. -/
theorem Mem.deliver_write_outside (m : Mem) (a : Nat) (bs : List Byte) (h : oneSide a bs.length) (x : Nat)
    (hx : ¬(a ≤ x ∧ x < a + bs.length)) : (m.write a bs).deliver x = m.deliver x := by
  rw [Mem.deliver_write m a bs h, if_neg hx, if_neg hx]
  split
  · next hh => rw [Mem.deliver_eq, if_pos hh]
  · rfl

/-- Outside HBM a write is read back. -/
theorem Mem.deliver_write_sram (m : Mem) (a : Nat) (bs : List Byte) (ha : usableBytes ≤ a) (x : Nat) :
    (m.write a bs).deliver x = if a ≤ x ∧ x < a + bs.length then bs.getD (x - a) 0#8 else m.deliver x := by
  by_cases hx : a ≤ x ∧ x < a + bs.length
  · rw [if_pos hx, Mem.deliver_write m a bs (Or.inr ha)]
    have : isHbm x = false := by unfold isHbm; rw [decide_eq_false_iff_not]; omega
    rw [this, if_neg Bool.false_ne_true, if_pos hx]
  · rw [if_neg hx, Mem.deliver_write_outside m a bs (Or.inr ha) x hx]

end Sys2Proof.Machine
end

