-- ==== Sys2Proof/Laws/Objects.lean ====
section
/-! SUPPORT. What a Catalogue value reads as after the shared operations that store, count, notify and record, what they add to `out`, and the records they write. -/

namespace Sys2Proof.Machine

open Sys2Proof

/-- An object that notifications, flash writes and error records do not write. -/
def Quiet (a b : Nat) : Prop := objKey a b ≠ 0x10200B ∧ objKey a b ≠ 0x10200C ∧ objKey a b ≠ 0x500003 ∧ objKey a b ≠ 0x500006 ∧ objKey a b ≠ 0x500007

/-- A fold of operations that keep a property keeps it. -/
theorem foldl_holds {α β : Type} (P : α → Prop) (f : α → β → α) (l : List β) (h : ∀ t x, P t → P (f t x)) : ∀ s, P s → P (l.foldl f s) := by
  induction l with
  | nil => intro s hs; exact hs
  | cons x xs ih => intro s hs; exact ih _ (h s x hs)

@[simp] theorem State.obj_send (s : State) (o : Out) (a b : Nat) : (s.send o).obj a b = s.obj a b := rfl
@[simp] theorem State.obj_courier (s : State) (d : Option Nat) (m : Courier) (a b : Nat) : (s.courier d m).obj a b = s.obj a b := rfl
@[simp] theorem State.obj_setWing (s : State) (w : Nat) (v : Wing) (a b : Nat) : (s.setWing w v).obj a b = s.obj a b := rfl
@[simp] theorem State.obj_setWindow (s : State) (w : Nat) (v : Window) (a b : Nat) : (s.setWindow w v).obj a b = s.obj a b := rfl
@[simp] theorem State.obj_failCheck (s : State) (c : Check) (a b : Nat) : (s.failCheck c).obj a b = s.obj a b := rfl
@[simp] theorem State.obj_withhold (s : State) (c a b : Nat) : (s.withhold c).obj a b = s.obj a b := rfl
@[simp] theorem State.obj_powerCount (s : State) (u k n a b : Nat) : (s.powerCount u k n).obj a b = s.obj a b := by
  unfold State.powerCount; split <;> rfl
@[simp] theorem State.obj_powerOwned (s : State) (u k n o a b : Nat) : (s.powerOwned u k n o).obj a b = s.obj a b := by
  unfold State.powerOwned; dsimp only; split
  · simp
  · rw [← State.obj_powerCount s u k n a b]; rfl
@[simp] theorem State.obj_msix (s : State) (fn v a b : Nat) : (s.msix fn v).obj a b = s.obj a b := by
  unfold State.msix; split
  · rfl
  · split <;> rfl
@[simp] theorem State.obj_wingFatal (s : State) (w c d a b : Nat) : (s.wingFatal w c d).obj a b = s.obj a b := by
  unfold State.wingFatal; dsimp only; split <;> rfl

theorem State.obj_noteWindow (s : State) (fn : Nat) (n : Note) (a b : Nat) (h : objKey a b ≠ 0x10200C) : (s.noteWindow fn n).obj a b = s.obj a b := by
  unfold State.noteWindow; dsimp only; split
  · simp
  · rw [State.obj_count, if_neg (by intro hc; exact h hc.1)]; rfl

@[simp] theorem State.obj_noteSession (s : State) (id : Nat) (n : Note) (a b : Nat) : (s.noteSession id n).obj a b = s.obj a b := by
  unfold State.noteSession; split <;> rfl

theorem State.obj_noteAll (s : State) (fns : List Nat) (bit : Nat) (n : Note) (a b : Nat) (h : objKey a b ≠ 0x10200C) :
    (s.noteAll fns bit n).obj a b = s.obj a b := by
  unfold State.noteAll; dsimp only
  rw [foldl_keeps (fun t => t.obj a b) _ _ (fun t x => by simp)]
  rw [foldl_keeps (fun t => t.obj a b) _ _ (fun t x => t.obj_noteWindow x n a b h)]

theorem State.obj_persist (s : State) (acc sub v a b : Nat) (h : objKey a b ≠ 0x10200B) : (s.persist acc sub v).obj a b = s.obj a b := by
  unfold State.persist; dsimp only; rw [State.obj_setObj_ne _ _ _ _ _ _ h]; rfl

/-- A value stored by the device, read back. -/
theorem State.obj_put (s : State) (acc sub v a b : Nat) (h1 : objKey a b ≠ 0x10200B) (h2 : objKey a b ≠ 0x10200C) :
    (s.put acc sub v).obj a b = if objKey a b = objKey acc sub then v else s.obj a b := by
  unfold State.put; dsimp only
  rw [apply_ite (fun t : State => t.obj a b), State.obj_noteAll _ _ _ _ _ _ h2, ite_self, apply_ite (fun t : State => t.obj a b),
    State.obj_persist _ _ _ _ _ _ h1, ite_self, State.obj_setObj]

theorem State.obj_put_ne (s : State) (acc sub v a b : Nat) (h1 : objKey a b ≠ 0x10200B) (h2 : objKey a b ≠ 0x10200C) (h : objKey a b ≠ objKey acc sub) :
    (s.put acc sub v).obj a b = s.obj a b := by rw [State.obj_put _ _ _ _ _ _ h1 h2, if_neg h]

theorem State.obj_put_self (s : State) (acc sub v : Nat) (h1 : objKey acc sub ≠ 0x10200B) (h2 : objKey acc sub ≠ 0x10200C) :
    (s.put acc sub v).obj acc sub = v := by rw [State.obj_put _ _ _ _ _ _ h1 h2, if_pos rfl]

theorem State.obj_placeRecord (s : State) (r : ErrRec) (a b : Nat) (h : Quiet a b) : (s.placeRecord r).obj a b = s.obj a b := by
  obtain ⟨h1, h2, h3, h4, h5⟩ := h
  unfold State.placeRecord; dsimp only
  rw [State.obj_noteAll _ _ _ _ _ _ h2, State.obj_count, if_neg (fun hc => h4 hc.1)]
  split
  · rw [State.obj_setObj_ne _ _ _ _ _ _ h3]; simp only [State.obj]
  · split
    · rw [State.obj_count, if_neg (fun hc => h5 hc.1)]; simp only [State.obj]
    · simp only [State.obj]

theorem State.obj_packageFatal (s : State) (a b : Nat) (h : Quiet a b) :
    (s.packageFatal).obj a b = if objKey a b = 0x500008 then 1 else s.obj a b := by
  have hk : objKey 0x5000 8 = 0x500008 := by simp [objKey]
  rw [← hk]
  unfold State.packageFatal
  by_cases h8 : s.obj 0x5000 8 = 1
  · rw [if_pos h8]
    by_cases he : objKey a b = objKey 0x5000 8
    · rw [if_pos he]
      have : s.obj a b = s.obj 0x5000 8 := by unfold State.obj; rw [he]
      rw [this, h8]
    · rw [if_neg he]
  · rw [if_neg h8]
    exact State.obj_put _ _ _ _ _ _ h.1 h.2.1

/-- What a fault does, by its class (R558): its record, then a fatal wing or a fatal package. -/
theorem State.raise_cases (s : State) (code u i : Nat) (w : Option Nat) (d : List Byte) :
    ∃ (r : ErrRec) (t : State), r.code = code ∧ (t = { s with cur := { s.cur with heldRecords := s.cur.heldRecords ++ [r] } } ∨ t = s.placeRecord r) ∧
      ((∃ v, classOf code = 3 ∧ w = some v ∧ s.raise code u i w d = (t.wingFatal v code s.device).courier none (.errorRecord r.bytes)) ∨
       (classOf code = 4 ∧ s.raise code u i w d = t.packageFatal) ∨
       (classOf code ≠ 4 ∧ (classOf code = 3 → w = none) ∧ s.raise code u i w d = t)) := by
  let r : ErrRec := { code := code, device := s.device, unit := u, index := i, wing := w, beat := s.beatNo
                      supp := min (mget 0 s.cur.suppressed code) 0xFFFF, number := s.cur.number, detail := fitBytes 44 d }
  refine ⟨r, if s.obj 0x5300 2 = 1 then { s with cur := { s.cur with heldRecords := s.cur.heldRecords ++ [r] } } else s.placeRecord r, rfl, ?_, ?_⟩
  · split
    · exact .inl rfl
    · exact .inr rfl
  · unfold State.raise
    dsimp only
    generalize (if s.obj 0x5300 2 = 1 then { s with cur := { s.cur with heldRecords := s.cur.heldRecords ++ [r] } } else s.placeRecord r) = t
    split
    · next h3 => exact .inl ⟨_, h3, rfl, rfl⟩
    · next h4 => exact .inr (.inl ⟨h4, rfl⟩)
    · next h3 h4 => exact .inr (.inr ⟨h3, fun h => Option.eq_none_iff_forall_ne_some.mpr (fun v hv => h4 v h hv), rfl⟩)

theorem State.obj_recorded (s t : State) (r : ErrRec) (h : t = { s with cur := { s.cur with heldRecords := s.cur.heldRecords ++ [r] } } ∨ t = s.placeRecord r)
    (a b : Nat) (hq : Quiet a b) : t.obj a b = s.obj a b := by
  rcases h with h | h
  · rw [h]; rfl
  · rw [h]; exact s.obj_placeRecord r a b hq

/-- What a fault's record leaves of the Catalogue: a class F4 fault sets PACKAGE_STATE to 1. -/
theorem State.obj_raise (s : State) (code u i : Nat) (w : Option Nat) (d : List Byte) (a b : Nat) (h : Quiet a b) :
    (s.raise code u i w d).obj a b = if objKey a b = 0x500008 ∧ classOf code = 4 then 1 else s.obj a b := by
  obtain ⟨r, t, _, ht, ⟨v, h3, _, he⟩ | ⟨h4, he⟩ | ⟨h4, _, he⟩⟩ := s.raise_cases code u i w d
  · rw [he, State.obj_courier, State.obj_wingFatal, s.obj_recorded t r ht a b h, h3]; simp
  · rw [he, State.obj_packageFatal _ _ _ h, s.obj_recorded t r ht a b h, h4]; simp
  · rw [he, s.obj_recorded t r ht a b h, if_neg (fun hc => h4 hc.2)]

theorem State.obj_raise_ne (s : State) (code u i : Nat) (w : Option Nat) (d : List Byte) (a b : Nat) (h : Quiet a b) (h8 : objKey a b ≠ 0x500008) :
    (s.raise code u i w d).obj a b = s.obj a b := by rw [State.obj_raise _ _ _ _ _ _ _ _ h, if_neg (fun hc => h8 hc.1)]

/-! ### What leaves the package -/

theorem State.out_send (s : State) (o x : Out) (h : x ∈ s.out) : x ∈ (s.send o).out := List.mem_append_left _ h
theorem State.out_send_self (s : State) (o : Out) : o ∈ (s.send o).out := by simp [State.send]
theorem State.out_courier (s : State) (d : Option Nat) (m : Courier) (x : Out) (h : x ∈ s.out) : x ∈ (s.courier d m).out := s.out_send _ x h
theorem State.out_courier_self (s : State) (d : Option Nat) (m : Courier) : .courier d m ∈ (s.courier d m).out := s.out_send_self _
theorem State.out_msix (s : State) (fn v : Nat) (x : Out) (h : x ∈ s.out) : x ∈ (s.msix fn v).out := by
  unfold State.msix; split
  · exact h
  · split
    · exact h
    · exact s.out_send _ x h
@[simp] theorem State.out_count (s : State) (acc sub n : Nat) : (s.count acc sub n).out = s.out := by unfold State.count; split <;> rfl
theorem State.out_noteWindow (s : State) (fn : Nat) (n : Note) (x : Out) (h : x ∈ s.out) : x ∈ (s.noteWindow fn n).out := by
  unfold State.noteWindow; dsimp only; split
  · exact State.out_msix _ _ _ x h
  · rw [State.out_count]; exact h
theorem State.out_noteSession (s : State) (id : Nat) (n : Note) (x : Out) (h : x ∈ s.out) : x ∈ (s.noteSession id n).out := by
  unfold State.noteSession; split
  · exact h
  · exact State.out_send _ _ x h
theorem State.out_noteAll (s : State) (fns : List Nat) (bit : Nat) (n : Note) (x : Out) (h : x ∈ s.out) : x ∈ (s.noteAll fns bit n).out := by
  unfold State.noteAll; dsimp only
  exact foldl_holds (fun t : State => x ∈ t.out) _ _ (fun t y ht => t.out_noteSession y n x ht) _
    (foldl_holds (fun t : State => x ∈ t.out) _ _ (fun t y ht => t.out_noteWindow y n x ht) _ h)
theorem State.out_put (s : State) (acc sub v : Nat) (x : Out) (h : x ∈ s.out) : x ∈ (s.put acc sub v).out := by
  unfold State.put; dsimp only
  repeat' split
  all_goals first | exact State.out_noteAll _ _ _ _ x h | exact h
theorem State.out_placeRecord (s : State) (r : ErrRec) (x : Out) (h : x ∈ s.out) : x ∈ (s.placeRecord r).out := by
  unfold State.placeRecord; dsimp only
  refine State.out_noteAll _ _ _ _ x ?_
  rw [State.out_count]
  repeat' split
  all_goals exact h
theorem State.out_packageFatal (s : State) (x : Out) (h : x ∈ s.out) : x ∈ (s.packageFatal).out := by
  unfold State.packageFatal; split
  · exact h
  · exact State.out_put _ _ _ _ x (State.out_send _ _ x (State.out_courier _ _ _ x h))
theorem State.out_wingFatal (s : State) (w c d : Nat) : (s.wingFatal w c d).out = s.out := by
  unfold State.wingFatal; dsimp only; split <;> rfl
theorem State.out_raise (s : State) (code u i : Nat) (w : Option Nat) (d : List Byte) (x : Out) (h : x ∈ s.out) : x ∈ (s.raise code u i w d).out := by
  obtain ⟨r, t, _, ht, hc⟩ := s.raise_cases code u i w d
  have hp : x ∈ t.out := by
    rcases ht with ht | ht
    · rw [ht]; exact h
    · rw [ht]; exact s.out_placeRecord r x h
  rcases hc with ⟨v, _, _, he⟩ | ⟨_, he⟩ | ⟨_, _, he⟩
  · rw [he]; exact State.out_courier _ _ _ x (by rw [State.out_wingFatal]; exact hp)
  · rw [he]; exact State.out_packageFatal _ x hp
  · rw [he]; exact hp

/-! ### Records -/

/-- A placed record is among the recent ones. -/
theorem State.records_placeRecord (s : State) (r : ErrRec) : ∃ x ∈ (s.placeRecord r).cur.records, x.code = r.code := by
  refine ⟨{ r with number := s.cur.number % 2 ^ 32 }, ?_, rfl⟩
  have : (s.placeRecord r).cur.records = (s.cur.records ++ [{ r with number := s.cur.number % 2 ^ 32 }]).drop
      ((s.cur.records ++ [{ r with number := s.cur.number % 2 ^ 32 }]).length - 256) := by
    unfold State.placeRecord; dsimp only
    rw [State.noteAll_cur, State.count_cur]
    repeat' split
    all_goals simp only [State.count_cur, State.setObj_cur]
  rw [this, List.drop_append, List.mem_append]
  right
  simp

theorem State.packageFatal_records (s : State) : (s.packageFatal).cur.records = s.cur.records ∧ (s.packageFatal).cur.heldRecords = s.cur.heldRecords := by
  unfold State.packageFatal; split
  · exact ⟨rfl, rfl⟩
  · simp

/-- A fault's record stands in the package, written or held while the firmware is paused. -/
theorem State.records_raise (s : State) (code u i : Nat) (w : Option Nat) (d : List Byte) :
    ∃ r, r.code = code ∧ (r ∈ (s.raise code u i w d).cur.records ∨ r ∈ (s.raise code u i w d).cur.heldRecords) := by
  obtain ⟨r, t, hr, ht, hc⟩ := s.raise_cases code u i w d
  have hp : ∃ x : ErrRec, x.code = code ∧ (x ∈ t.cur.records ∨ x ∈ t.cur.heldRecords) := by
    rcases ht with ht | ht
    · exact ⟨r, hr, .inr (by rw [ht]; simp)⟩
    · obtain ⟨x, hx, hxc⟩ := s.records_placeRecord r
      exact ⟨x, hxc.trans hr, .inl (by rw [ht]; exact hx)⟩
  obtain ⟨x, hx, hm⟩ := hp
  refine ⟨x, hx, ?_⟩
  rcases hc with ⟨v, _, _, he⟩ | ⟨_, he⟩ | ⟨_, _, he⟩
  · rw [he]; simpa using hm
  · rw [he, (State.packageFatal_records _).1, (State.packageFatal_records _).2]; exact hm
  · rw [he]; exact hm

end Sys2Proof.Machine
end

