-- ==== Sys2Proof/Laws/Work.lean ====
section
/-! SUPPORT. What the shared operations of descriptors do: the sequencer's moves, completion records, energy, requests, reads and writes. -/

namespace Sys2Proof.Machine

open Sys2Proof


@[simp] theorem State.holdSeq_pending (s : State) (c : Ctx) (h : Hold) : (s.holdSeq c h).pending = s.pending := rfl
@[simp] theorem State.holdSeq_free (s : State) (c : Ctx) (h : Hold) : (s.holdSeq c h).free = s.free := rfl
@[simp] theorem State.holdSeq_out (s : State) (c : Ctx) (h : Hold) : (s.holdSeq c h).out = s.out := rfl
@[simp] theorem State.holdSeq_cat (s : State) (c : Ctx) (h : Hold) : (s.holdSeq c h).cat = s.cat := rfl
@[simp] theorem State.holdSeq_catSeal (s : State) (c : Ctx) (h : Hold) : (s.holdSeq c h).catSeal = s.catSeal := rfl
@[simp] theorem State.holdSeq_inUse (s : State) (c : Ctx) (h : Hold) : (s.holdSeq c h).inUse = s.inUse := rfl
@[simp] theorem State.holdSeq_doms (s : State) (c : Ctx) (h : Hold) : (s.holdSeq c h).doms = s.doms := rfl
@[simp] theorem State.holdSeq_server (s : State) (c : Ctx) (h : Hold) : (s.holdSeq c h).server = s.server := rfl
@[simp] theorem State.holdSeq_flash (s : State) (c : Ctx) (h : Hold) : (s.holdSeq c h).flash = s.flash := rfl
@[simp] theorem State.holdSeq_sec (s : State) (c : Ctx) (h : Hold) : (s.holdSeq c h).sec = s.sec := rfl
@[simp] theorem State.holdSeq_pins (s : State) (c : Ctx) (h : Hold) : (s.holdSeq c h).pins = s.pins := rfl
@[simp] theorem State.holdSeq_beat (s : State) (c : Ctx) (h : Hold) : (s.holdSeq c h).beat = s.beat := rfl
@[simp] theorem State.holdSeq_wings (s : State) (c : Ctx) (h : Hold) : (s.holdSeq c h).wings = s.wings := rfl
@[simp] theorem State.holdSeq_mem (s : State) (c : Ctx) (h : Hold) : (s.holdSeq c h).mem = s.mem := rfl
@[simp] theorem State.holdSeq_folio (s : State) (c : Ctx) (h : Hold) : (s.holdSeq c h).folio = s.folio := rfl
@[simp] theorem State.holdSeq_torus (s : State) (c : Ctx) (h : Hold) : (s.holdSeq c h).torus = s.torus := rfl
@[simp] theorem State.holdSeq_coll (s : State) (c : Ctx) (h : Hold) : (s.holdSeq c h).coll = s.coll := rfl
@[simp] theorem State.holdSeq_ship (s : State) (c : Ctx) (h : Hold) : (s.holdSeq c h).ship = s.ship := rfl
@[simp] theorem State.holdSeq_host (s : State) (c : Ctx) (h : Hold) : (s.holdSeq c h).host = s.host := rfl
@[simp] theorem State.holdSeq_power (s : State) (c : Ctx) (h : Hold) : (s.holdSeq c h).power = s.power := rfl
@[simp] theorem State.holdSeq_cur (s : State) (c : Ctx) (h : Hold) : (s.holdSeq c h).cur = s.cur := rfl

@[simp] theorem State.holdRings_pending (s : State) (c : Ctx) (h : Hold) (rs : List Nat) : (s.holdRings c h rs).pending = s.pending := rfl
@[simp] theorem State.holdRings_free (s : State) (c : Ctx) (h : Hold) (rs : List Nat) : (s.holdRings c h rs).free = s.free := rfl
@[simp] theorem State.holdRings_out (s : State) (c : Ctx) (h : Hold) (rs : List Nat) : (s.holdRings c h rs).out = s.out := rfl
@[simp] theorem State.holdRings_cat (s : State) (c : Ctx) (h : Hold) (rs : List Nat) : (s.holdRings c h rs).cat = s.cat := rfl
@[simp] theorem State.holdRings_catSeal (s : State) (c : Ctx) (h : Hold) (rs : List Nat) : (s.holdRings c h rs).catSeal = s.catSeal := rfl
@[simp] theorem State.holdRings_inUse (s : State) (c : Ctx) (h : Hold) (rs : List Nat) : (s.holdRings c h rs).inUse = s.inUse := rfl
@[simp] theorem State.holdRings_doms (s : State) (c : Ctx) (h : Hold) (rs : List Nat) : (s.holdRings c h rs).doms = s.doms := rfl
@[simp] theorem State.holdRings_server (s : State) (c : Ctx) (h : Hold) (rs : List Nat) : (s.holdRings c h rs).server = s.server := rfl
@[simp] theorem State.holdRings_flash (s : State) (c : Ctx) (h : Hold) (rs : List Nat) : (s.holdRings c h rs).flash = s.flash := rfl
@[simp] theorem State.holdRings_sec (s : State) (c : Ctx) (h : Hold) (rs : List Nat) : (s.holdRings c h rs).sec = s.sec := rfl
@[simp] theorem State.holdRings_pins (s : State) (c : Ctx) (h : Hold) (rs : List Nat) : (s.holdRings c h rs).pins = s.pins := rfl
@[simp] theorem State.holdRings_beat (s : State) (c : Ctx) (h : Hold) (rs : List Nat) : (s.holdRings c h rs).beat = s.beat := rfl
@[simp] theorem State.holdRings_wings (s : State) (c : Ctx) (h : Hold) (rs : List Nat) : (s.holdRings c h rs).wings = s.wings := rfl
@[simp] theorem State.holdRings_mem (s : State) (c : Ctx) (h : Hold) (rs : List Nat) : (s.holdRings c h rs).mem = s.mem := rfl
@[simp] theorem State.holdRings_folio (s : State) (c : Ctx) (h : Hold) (rs : List Nat) : (s.holdRings c h rs).folio = s.folio := rfl
@[simp] theorem State.holdRings_torus (s : State) (c : Ctx) (h : Hold) (rs : List Nat) : (s.holdRings c h rs).torus = s.torus := rfl
@[simp] theorem State.holdRings_coll (s : State) (c : Ctx) (h : Hold) (rs : List Nat) : (s.holdRings c h rs).coll = s.coll := rfl
@[simp] theorem State.holdRings_ship (s : State) (c : Ctx) (h : Hold) (rs : List Nat) : (s.holdRings c h rs).ship = s.ship := rfl
@[simp] theorem State.holdRings_host (s : State) (c : Ctx) (h : Hold) (rs : List Nat) : (s.holdRings c h rs).host = s.host := rfl
@[simp] theorem State.holdRings_power (s : State) (c : Ctx) (h : Hold) (rs : List Nat) : (s.holdRings c h rs).power = s.power := rfl
@[simp] theorem State.holdRings_cur (s : State) (c : Ctx) (h : Hold) (rs : List Nat) : (s.holdRings c h rs).cur = s.cur := rfl

@[simp] theorem State.holdDep_pending (s : State) (c : Ctx) (xs : List Ext) : (s.holdDep c xs).pending = s.pending := rfl
@[simp] theorem State.holdDep_free (s : State) (c : Ctx) (xs : List Ext) : (s.holdDep c xs).free = s.free := rfl
@[simp] theorem State.holdDep_out (s : State) (c : Ctx) (xs : List Ext) : (s.holdDep c xs).out = s.out := rfl
@[simp] theorem State.holdDep_cat (s : State) (c : Ctx) (xs : List Ext) : (s.holdDep c xs).cat = s.cat := rfl
@[simp] theorem State.holdDep_catSeal (s : State) (c : Ctx) (xs : List Ext) : (s.holdDep c xs).catSeal = s.catSeal := rfl
@[simp] theorem State.holdDep_inUse (s : State) (c : Ctx) (xs : List Ext) : (s.holdDep c xs).inUse = s.inUse := rfl
@[simp] theorem State.holdDep_doms (s : State) (c : Ctx) (xs : List Ext) : (s.holdDep c xs).doms = s.doms := rfl
@[simp] theorem State.holdDep_server (s : State) (c : Ctx) (xs : List Ext) : (s.holdDep c xs).server = s.server := rfl
@[simp] theorem State.holdDep_flash (s : State) (c : Ctx) (xs : List Ext) : (s.holdDep c xs).flash = s.flash := rfl
@[simp] theorem State.holdDep_sec (s : State) (c : Ctx) (xs : List Ext) : (s.holdDep c xs).sec = s.sec := rfl
@[simp] theorem State.holdDep_pins (s : State) (c : Ctx) (xs : List Ext) : (s.holdDep c xs).pins = s.pins := rfl
@[simp] theorem State.holdDep_beat (s : State) (c : Ctx) (xs : List Ext) : (s.holdDep c xs).beat = s.beat := rfl
@[simp] theorem State.holdDep_wings (s : State) (c : Ctx) (xs : List Ext) : (s.holdDep c xs).wings = s.wings := rfl
@[simp] theorem State.holdDep_mem (s : State) (c : Ctx) (xs : List Ext) : (s.holdDep c xs).mem = s.mem := rfl
@[simp] theorem State.holdDep_folio (s : State) (c : Ctx) (xs : List Ext) : (s.holdDep c xs).folio = s.folio := rfl
@[simp] theorem State.holdDep_torus (s : State) (c : Ctx) (xs : List Ext) : (s.holdDep c xs).torus = s.torus := rfl
@[simp] theorem State.holdDep_coll (s : State) (c : Ctx) (xs : List Ext) : (s.holdDep c xs).coll = s.coll := rfl
@[simp] theorem State.holdDep_ship (s : State) (c : Ctx) (xs : List Ext) : (s.holdDep c xs).ship = s.ship := rfl
@[simp] theorem State.holdDep_host (s : State) (c : Ctx) (xs : List Ext) : (s.holdDep c xs).host = s.host := rfl
@[simp] theorem State.holdDep_power (s : State) (c : Ctx) (xs : List Ext) : (s.holdDep c xs).power = s.power := rfl
@[simp] theorem State.holdDep_cur (s : State) (c : Ctx) (xs : List Ext) : (s.holdDep c xs).cur = s.cur := rfl

@[simp] theorem State.advance_pending (s : State) (c : Ctx) : (s.advance c).pending = s.pending := rfl
@[simp] theorem State.advance_free (s : State) (c : Ctx) : (s.advance c).free = s.free := rfl
@[simp] theorem State.advance_out (s : State) (c : Ctx) : (s.advance c).out = s.out := rfl
@[simp] theorem State.advance_cat (s : State) (c : Ctx) : (s.advance c).cat = s.cat := rfl
@[simp] theorem State.advance_catSeal (s : State) (c : Ctx) : (s.advance c).catSeal = s.catSeal := rfl
@[simp] theorem State.advance_inUse (s : State) (c : Ctx) : (s.advance c).inUse = s.inUse := rfl
@[simp] theorem State.advance_doms (s : State) (c : Ctx) : (s.advance c).doms = s.doms := rfl
@[simp] theorem State.advance_server (s : State) (c : Ctx) : (s.advance c).server = s.server := rfl
@[simp] theorem State.advance_flash (s : State) (c : Ctx) : (s.advance c).flash = s.flash := rfl
@[simp] theorem State.advance_sec (s : State) (c : Ctx) : (s.advance c).sec = s.sec := rfl
@[simp] theorem State.advance_pins (s : State) (c : Ctx) : (s.advance c).pins = s.pins := rfl
@[simp] theorem State.advance_beat (s : State) (c : Ctx) : (s.advance c).beat = s.beat := rfl
@[simp] theorem State.advance_wings (s : State) (c : Ctx) : (s.advance c).wings = s.wings := rfl
@[simp] theorem State.advance_mem (s : State) (c : Ctx) : (s.advance c).mem = s.mem := rfl
@[simp] theorem State.advance_folio (s : State) (c : Ctx) : (s.advance c).folio = s.folio := rfl
@[simp] theorem State.advance_torus (s : State) (c : Ctx) : (s.advance c).torus = s.torus := rfl
@[simp] theorem State.advance_coll (s : State) (c : Ctx) : (s.advance c).coll = s.coll := rfl
@[simp] theorem State.advance_ship (s : State) (c : Ctx) : (s.advance c).ship = s.ship := rfl
@[simp] theorem State.advance_host (s : State) (c : Ctx) : (s.advance c).host = s.host := rfl
@[simp] theorem State.advance_power (s : State) (c : Ctx) : (s.advance c).power = s.power := rfl
@[simp] theorem State.advance_cur (s : State) (c : Ctx) : (s.advance c).cur = s.cur := rfl

@[simp] theorem State.openRec_pending (s : State) (c : Ctx) (a b d e : Nat) : ((s.openRec c a b d e).2).pending = s.pending := rfl
@[simp] theorem State.openRec_free (s : State) (c : Ctx) (a b d e : Nat) : ((s.openRec c a b d e).2).free = s.free := rfl
@[simp] theorem State.openRec_out (s : State) (c : Ctx) (a b d e : Nat) : ((s.openRec c a b d e).2).out = s.out := rfl
@[simp] theorem State.openRec_cat (s : State) (c : Ctx) (a b d e : Nat) : ((s.openRec c a b d e).2).cat = s.cat := rfl
@[simp] theorem State.openRec_catSeal (s : State) (c : Ctx) (a b d e : Nat) : ((s.openRec c a b d e).2).catSeal = s.catSeal := rfl
@[simp] theorem State.openRec_inUse (s : State) (c : Ctx) (a b d e : Nat) : ((s.openRec c a b d e).2).inUse = s.inUse := rfl
@[simp] theorem State.openRec_doms (s : State) (c : Ctx) (a b d e : Nat) : ((s.openRec c a b d e).2).doms = s.doms := rfl
@[simp] theorem State.openRec_server (s : State) (c : Ctx) (a b d e : Nat) : ((s.openRec c a b d e).2).server = s.server := rfl
@[simp] theorem State.openRec_flash (s : State) (c : Ctx) (a b d e : Nat) : ((s.openRec c a b d e).2).flash = s.flash := rfl
@[simp] theorem State.openRec_sec (s : State) (c : Ctx) (a b d e : Nat) : ((s.openRec c a b d e).2).sec = s.sec := rfl
@[simp] theorem State.openRec_pins (s : State) (c : Ctx) (a b d e : Nat) : ((s.openRec c a b d e).2).pins = s.pins := rfl
@[simp] theorem State.openRec_beat (s : State) (c : Ctx) (a b d e : Nat) : ((s.openRec c a b d e).2).beat = s.beat := rfl
@[simp] theorem State.openRec_wings (s : State) (c : Ctx) (a b d e : Nat) : ((s.openRec c a b d e).2).wings = s.wings := rfl
@[simp] theorem State.openRec_mem (s : State) (c : Ctx) (a b d e : Nat) : ((s.openRec c a b d e).2).mem = s.mem := rfl
@[simp] theorem State.openRec_folio (s : State) (c : Ctx) (a b d e : Nat) : ((s.openRec c a b d e).2).folio = s.folio := rfl
@[simp] theorem State.openRec_torus (s : State) (c : Ctx) (a b d e : Nat) : ((s.openRec c a b d e).2).torus = s.torus := rfl
@[simp] theorem State.openRec_coll (s : State) (c : Ctx) (a b d e : Nat) : ((s.openRec c a b d e).2).coll = s.coll := rfl
@[simp] theorem State.openRec_ship (s : State) (c : Ctx) (a b d e : Nat) : ((s.openRec c a b d e).2).ship = s.ship := rfl
@[simp] theorem State.openRec_host (s : State) (c : Ctx) (a b d e : Nat) : ((s.openRec c a b d e).2).host = s.host := rfl
@[simp] theorem State.openRec_power (s : State) (c : Ctx) (a b d e : Nat) : ((s.openRec c a b d e).2).power = s.power := rfl
@[simp] theorem State.openRec_cur (s : State) (c : Ctx) (a b d e : Nat) : ((s.openRec c a b d e).2).cur = s.cur := rfl

@[simp] theorem State.updRec_pending (s : State) (h sl id : Nat) (f : CRec → CRec) : (s.updRec h sl id f).pending = s.pending := rfl
@[simp] theorem State.updRec_free (s : State) (h sl id : Nat) (f : CRec → CRec) : (s.updRec h sl id f).free = s.free := rfl
@[simp] theorem State.updRec_out (s : State) (h sl id : Nat) (f : CRec → CRec) : (s.updRec h sl id f).out = s.out := rfl
@[simp] theorem State.updRec_cat (s : State) (h sl id : Nat) (f : CRec → CRec) : (s.updRec h sl id f).cat = s.cat := rfl
@[simp] theorem State.updRec_catSeal (s : State) (h sl id : Nat) (f : CRec → CRec) : (s.updRec h sl id f).catSeal = s.catSeal := rfl
@[simp] theorem State.updRec_inUse (s : State) (h sl id : Nat) (f : CRec → CRec) : (s.updRec h sl id f).inUse = s.inUse := rfl
@[simp] theorem State.updRec_doms (s : State) (h sl id : Nat) (f : CRec → CRec) : (s.updRec h sl id f).doms = s.doms := rfl
@[simp] theorem State.updRec_server (s : State) (h sl id : Nat) (f : CRec → CRec) : (s.updRec h sl id f).server = s.server := rfl
@[simp] theorem State.updRec_flash (s : State) (h sl id : Nat) (f : CRec → CRec) : (s.updRec h sl id f).flash = s.flash := rfl
@[simp] theorem State.updRec_sec (s : State) (h sl id : Nat) (f : CRec → CRec) : (s.updRec h sl id f).sec = s.sec := rfl
@[simp] theorem State.updRec_pins (s : State) (h sl id : Nat) (f : CRec → CRec) : (s.updRec h sl id f).pins = s.pins := rfl
@[simp] theorem State.updRec_beat (s : State) (h sl id : Nat) (f : CRec → CRec) : (s.updRec h sl id f).beat = s.beat := rfl
@[simp] theorem State.updRec_wings (s : State) (h sl id : Nat) (f : CRec → CRec) : (s.updRec h sl id f).wings = s.wings := rfl
@[simp] theorem State.updRec_mem (s : State) (h sl id : Nat) (f : CRec → CRec) : (s.updRec h sl id f).mem = s.mem := rfl
@[simp] theorem State.updRec_folio (s : State) (h sl id : Nat) (f : CRec → CRec) : (s.updRec h sl id f).folio = s.folio := rfl
@[simp] theorem State.updRec_torus (s : State) (h sl id : Nat) (f : CRec → CRec) : (s.updRec h sl id f).torus = s.torus := rfl
@[simp] theorem State.updRec_coll (s : State) (h sl id : Nat) (f : CRec → CRec) : (s.updRec h sl id f).coll = s.coll := rfl
@[simp] theorem State.updRec_ship (s : State) (h sl id : Nat) (f : CRec → CRec) : (s.updRec h sl id f).ship = s.ship := rfl
@[simp] theorem State.updRec_host (s : State) (h sl id : Nat) (f : CRec → CRec) : (s.updRec h sl id f).host = s.host := rfl
@[simp] theorem State.updRec_power (s : State) (h sl id : Nat) (f : CRec → CRec) : (s.updRec h sl id f).power = s.power := rfl
@[simp] theorem State.updRec_cur (s : State) (h sl id : Nat) (f : CRec → CRec) : (s.updRec h sl id f).cur = s.cur := rfl

@[simp] theorem State.tally_pending (s : State) (h sl : Nat) (t : Tally) : (s.tally h sl t).pending = s.pending := by simp [State.tally]
@[simp] theorem State.tally_free (s : State) (h sl : Nat) (t : Tally) : (s.tally h sl t).free = s.free := by simp [State.tally]
@[simp] theorem State.tally_out (s : State) (h sl : Nat) (t : Tally) : (s.tally h sl t).out = s.out := by simp [State.tally]
@[simp] theorem State.tally_cat (s : State) (h sl : Nat) (t : Tally) : (s.tally h sl t).cat = s.cat := by simp [State.tally]
@[simp] theorem State.tally_catSeal (s : State) (h sl : Nat) (t : Tally) : (s.tally h sl t).catSeal = s.catSeal := by simp [State.tally]
@[simp] theorem State.tally_inUse (s : State) (h sl : Nat) (t : Tally) : (s.tally h sl t).inUse = s.inUse := by simp [State.tally]
@[simp] theorem State.tally_doms (s : State) (h sl : Nat) (t : Tally) : (s.tally h sl t).doms = s.doms := by simp [State.tally]
@[simp] theorem State.tally_server (s : State) (h sl : Nat) (t : Tally) : (s.tally h sl t).server = s.server := by simp [State.tally]
@[simp] theorem State.tally_flash (s : State) (h sl : Nat) (t : Tally) : (s.tally h sl t).flash = s.flash := by simp [State.tally]
@[simp] theorem State.tally_sec (s : State) (h sl : Nat) (t : Tally) : (s.tally h sl t).sec = s.sec := by simp [State.tally]
@[simp] theorem State.tally_pins (s : State) (h sl : Nat) (t : Tally) : (s.tally h sl t).pins = s.pins := by simp [State.tally]
@[simp] theorem State.tally_beat (s : State) (h sl : Nat) (t : Tally) : (s.tally h sl t).beat = s.beat := by simp [State.tally]
@[simp] theorem State.tally_wings (s : State) (h sl : Nat) (t : Tally) : (s.tally h sl t).wings = s.wings := by simp [State.tally]
@[simp] theorem State.tally_mem (s : State) (h sl : Nat) (t : Tally) : (s.tally h sl t).mem = s.mem := by simp [State.tally]
@[simp] theorem State.tally_folio (s : State) (h sl : Nat) (t : Tally) : (s.tally h sl t).folio = s.folio := by simp [State.tally]
@[simp] theorem State.tally_torus (s : State) (h sl : Nat) (t : Tally) : (s.tally h sl t).torus = s.torus := by simp [State.tally]
@[simp] theorem State.tally_coll (s : State) (h sl : Nat) (t : Tally) : (s.tally h sl t).coll = s.coll := by simp [State.tally]
@[simp] theorem State.tally_ship (s : State) (h sl : Nat) (t : Tally) : (s.tally h sl t).ship = s.ship := by simp [State.tally]
@[simp] theorem State.tally_host (s : State) (h sl : Nat) (t : Tally) : (s.tally h sl t).host = s.host := by simp [State.tally]
@[simp] theorem State.tally_power (s : State) (h sl : Nat) (t : Tally) : (s.tally h sl t).power = s.power := by simp [State.tally]
@[simp] theorem State.tally_cur (s : State) (h sl : Nat) (t : Tally) : (s.tally h sl t).cur = s.cur := by simp [State.tally]

@[simp] theorem State.noop_pending (s : State) (c : Ctx) : (s.noop c).pending = s.pending := by simp [State.noop]
@[simp] theorem State.noop_free (s : State) (c : Ctx) : (s.noop c).free = s.free := by simp [State.noop]
@[simp] theorem State.noop_out (s : State) (c : Ctx) : (s.noop c).out = s.out := by simp [State.noop]
@[simp] theorem State.noop_cat (s : State) (c : Ctx) : (s.noop c).cat = s.cat := by simp [State.noop]
@[simp] theorem State.noop_catSeal (s : State) (c : Ctx) : (s.noop c).catSeal = s.catSeal := by simp [State.noop]
@[simp] theorem State.noop_inUse (s : State) (c : Ctx) : (s.noop c).inUse = s.inUse := by simp [State.noop]
@[simp] theorem State.noop_doms (s : State) (c : Ctx) : (s.noop c).doms = s.doms := by simp [State.noop]
@[simp] theorem State.noop_server (s : State) (c : Ctx) : (s.noop c).server = s.server := by simp [State.noop]
@[simp] theorem State.noop_flash (s : State) (c : Ctx) : (s.noop c).flash = s.flash := by simp [State.noop]
@[simp] theorem State.noop_sec (s : State) (c : Ctx) : (s.noop c).sec = s.sec := by simp [State.noop]
@[simp] theorem State.noop_pins (s : State) (c : Ctx) : (s.noop c).pins = s.pins := by simp [State.noop]
@[simp] theorem State.noop_beat (s : State) (c : Ctx) : (s.noop c).beat = s.beat := by simp [State.noop]
@[simp] theorem State.noop_wings (s : State) (c : Ctx) : (s.noop c).wings = s.wings := by simp [State.noop]
@[simp] theorem State.noop_mem (s : State) (c : Ctx) : (s.noop c).mem = s.mem := by simp [State.noop]
@[simp] theorem State.noop_folio (s : State) (c : Ctx) : (s.noop c).folio = s.folio := by simp [State.noop]
@[simp] theorem State.noop_torus (s : State) (c : Ctx) : (s.noop c).torus = s.torus := by simp [State.noop]
@[simp] theorem State.noop_coll (s : State) (c : Ctx) : (s.noop c).coll = s.coll := by simp [State.noop]
@[simp] theorem State.noop_ship (s : State) (c : Ctx) : (s.noop c).ship = s.ship := by simp [State.noop]
@[simp] theorem State.noop_host (s : State) (c : Ctx) : (s.noop c).host = s.host := by simp [State.noop]
@[simp] theorem State.noop_power (s : State) (c : Ctx) : (s.noop c).power = s.power := by simp [State.noop]
@[simp] theorem State.noop_cur (s : State) (c : Ctx) : (s.noop c).cur = s.cur := by simp [State.noop]

@[simp] theorem State.done_pending (s : State) (c : Ctx) (l a b : Nat) (t : Tally) : (s.done c l a b t).pending = s.pending := by simp [State.done]
@[simp] theorem State.done_free (s : State) (c : Ctx) (l a b : Nat) (t : Tally) : (s.done c l a b t).free = s.free := by simp [State.done]
@[simp] theorem State.done_out (s : State) (c : Ctx) (l a b : Nat) (t : Tally) : (s.done c l a b t).out = s.out := by simp [State.done]
@[simp] theorem State.done_cat (s : State) (c : Ctx) (l a b : Nat) (t : Tally) : (s.done c l a b t).cat = s.cat := by simp [State.done]
@[simp] theorem State.done_catSeal (s : State) (c : Ctx) (l a b : Nat) (t : Tally) : (s.done c l a b t).catSeal = s.catSeal := by simp [State.done]
@[simp] theorem State.done_inUse (s : State) (c : Ctx) (l a b : Nat) (t : Tally) : (s.done c l a b t).inUse = s.inUse := by simp [State.done]
@[simp] theorem State.done_doms (s : State) (c : Ctx) (l a b : Nat) (t : Tally) : (s.done c l a b t).doms = s.doms := by simp [State.done]
@[simp] theorem State.done_server (s : State) (c : Ctx) (l a b : Nat) (t : Tally) : (s.done c l a b t).server = s.server := by simp [State.done]
@[simp] theorem State.done_flash (s : State) (c : Ctx) (l a b : Nat) (t : Tally) : (s.done c l a b t).flash = s.flash := by simp [State.done]
@[simp] theorem State.done_sec (s : State) (c : Ctx) (l a b : Nat) (t : Tally) : (s.done c l a b t).sec = s.sec := by simp [State.done]
@[simp] theorem State.done_pins (s : State) (c : Ctx) (l a b : Nat) (t : Tally) : (s.done c l a b t).pins = s.pins := by simp [State.done]
@[simp] theorem State.done_beat (s : State) (c : Ctx) (l a b : Nat) (t : Tally) : (s.done c l a b t).beat = s.beat := by simp [State.done]
@[simp] theorem State.done_wings (s : State) (c : Ctx) (l a b : Nat) (t : Tally) : (s.done c l a b t).wings = s.wings := by simp [State.done]
@[simp] theorem State.done_mem (s : State) (c : Ctx) (l a b : Nat) (t : Tally) : (s.done c l a b t).mem = s.mem := by simp [State.done]
@[simp] theorem State.done_folio (s : State) (c : Ctx) (l a b : Nat) (t : Tally) : (s.done c l a b t).folio = s.folio := by simp [State.done]
@[simp] theorem State.done_torus (s : State) (c : Ctx) (l a b : Nat) (t : Tally) : (s.done c l a b t).torus = s.torus := by simp [State.done]
@[simp] theorem State.done_coll (s : State) (c : Ctx) (l a b : Nat) (t : Tally) : (s.done c l a b t).coll = s.coll := by simp [State.done]
@[simp] theorem State.done_ship (s : State) (c : Ctx) (l a b : Nat) (t : Tally) : (s.done c l a b t).ship = s.ship := by simp [State.done]
@[simp] theorem State.done_host (s : State) (c : Ctx) (l a b : Nat) (t : Tally) : (s.done c l a b t).host = s.host := by simp [State.done]
@[simp] theorem State.done_power (s : State) (c : Ctx) (l a b : Nat) (t : Tally) : (s.done c l a b t).power = s.power := by simp [State.done]
@[simp] theorem State.done_cur (s : State) (c : Ctx) (l a b : Nat) (t : Tally) : (s.done c l a b t).cur = s.cur := by simp [State.done]

@[simp] theorem State.energyEvent_pending (s : State) (h w a k n : Nat) : (s.energyEvent h w a k n).pending = s.pending := by simp [State.energyEvent]
@[simp] theorem State.energyEvent_free (s : State) (h w a k n : Nat) : (s.energyEvent h w a k n).free = s.free := by simp [State.energyEvent]
@[simp] theorem State.energyEvent_out (s : State) (h w a k n : Nat) : (s.energyEvent h w a k n).out = s.out := by simp [State.energyEvent]
@[simp] theorem State.energyEvent_cat (s : State) (h w a k n : Nat) : (s.energyEvent h w a k n).cat = s.cat := by simp [State.energyEvent]
@[simp] theorem State.energyEvent_catSeal (s : State) (h w a k n : Nat) : (s.energyEvent h w a k n).catSeal = s.catSeal := by simp [State.energyEvent]
@[simp] theorem State.energyEvent_inUse (s : State) (h w a k n : Nat) : (s.energyEvent h w a k n).inUse = s.inUse := by simp [State.energyEvent]
@[simp] theorem State.energyEvent_doms (s : State) (h w a k n : Nat) : (s.energyEvent h w a k n).doms = s.doms := by simp [State.energyEvent]
@[simp] theorem State.energyEvent_server (s : State) (h w a k n : Nat) : (s.energyEvent h w a k n).server = s.server := by simp [State.energyEvent]
@[simp] theorem State.energyEvent_flash (s : State) (h w a k n : Nat) : (s.energyEvent h w a k n).flash = s.flash := by simp [State.energyEvent]
@[simp] theorem State.energyEvent_sec (s : State) (h w a k n : Nat) : (s.energyEvent h w a k n).sec = s.sec := by simp [State.energyEvent]
@[simp] theorem State.energyEvent_pins (s : State) (h w a k n : Nat) : (s.energyEvent h w a k n).pins = s.pins := by simp [State.energyEvent]
@[simp] theorem State.energyEvent_beat (s : State) (h w a k n : Nat) : (s.energyEvent h w a k n).beat = s.beat := by simp [State.energyEvent]
@[simp] theorem State.energyEvent_wings (s : State) (h w a k n : Nat) : (s.energyEvent h w a k n).wings = s.wings := by simp [State.energyEvent]
@[simp] theorem State.energyEvent_work (s : State) (h w a k n : Nat) : (s.energyEvent h w a k n).work = s.work := by simp [State.energyEvent]
@[simp] theorem State.energyEvent_mem (s : State) (h w a k n : Nat) : (s.energyEvent h w a k n).mem = s.mem := by simp [State.energyEvent]
@[simp] theorem State.energyEvent_folio (s : State) (h w a k n : Nat) : (s.energyEvent h w a k n).folio = s.folio := by simp [State.energyEvent]
@[simp] theorem State.energyEvent_torus (s : State) (h w a k n : Nat) : (s.energyEvent h w a k n).torus = s.torus := by simp [State.energyEvent]
@[simp] theorem State.energyEvent_coll (s : State) (h w a k n : Nat) : (s.energyEvent h w a k n).coll = s.coll := by simp [State.energyEvent]
@[simp] theorem State.energyEvent_ship (s : State) (h w a k n : Nat) : (s.energyEvent h w a k n).ship = s.ship := by simp [State.energyEvent]
@[simp] theorem State.energyEvent_host (s : State) (h w a k n : Nat) : (s.energyEvent h w a k n).host = s.host := by simp [State.energyEvent]
@[simp] theorem State.energyEvent_cur (s : State) (h w a k n : Nat) : (s.energyEvent h w a k n).cur = s.cur := by simp [State.energyEvent]

@[simp] theorem State.accessed_pending (s : State) (h o : Nat) (xs : List (Nat × Nat)) : (s.accessed h o xs).pending = s.pending := by simp [State.accessed]
@[simp] theorem State.accessed_free (s : State) (h o : Nat) (xs : List (Nat × Nat)) : (s.accessed h o xs).free = s.free := by simp [State.accessed]
@[simp] theorem State.accessed_out (s : State) (h o : Nat) (xs : List (Nat × Nat)) : (s.accessed h o xs).out = s.out := by simp [State.accessed]
@[simp] theorem State.accessed_cat (s : State) (h o : Nat) (xs : List (Nat × Nat)) : (s.accessed h o xs).cat = s.cat := by simp [State.accessed]
@[simp] theorem State.accessed_catSeal (s : State) (h o : Nat) (xs : List (Nat × Nat)) : (s.accessed h o xs).catSeal = s.catSeal := by simp [State.accessed]
@[simp] theorem State.accessed_inUse (s : State) (h o : Nat) (xs : List (Nat × Nat)) : (s.accessed h o xs).inUse = s.inUse := by simp [State.accessed]
@[simp] theorem State.accessed_doms (s : State) (h o : Nat) (xs : List (Nat × Nat)) : (s.accessed h o xs).doms = s.doms := by simp [State.accessed]
@[simp] theorem State.accessed_server (s : State) (h o : Nat) (xs : List (Nat × Nat)) : (s.accessed h o xs).server = s.server := by simp [State.accessed]
@[simp] theorem State.accessed_flash (s : State) (h o : Nat) (xs : List (Nat × Nat)) : (s.accessed h o xs).flash = s.flash := by simp [State.accessed]
@[simp] theorem State.accessed_sec (s : State) (h o : Nat) (xs : List (Nat × Nat)) : (s.accessed h o xs).sec = s.sec := by simp [State.accessed]
@[simp] theorem State.accessed_pins (s : State) (h o : Nat) (xs : List (Nat × Nat)) : (s.accessed h o xs).pins = s.pins := by simp [State.accessed]
@[simp] theorem State.accessed_beat (s : State) (h o : Nat) (xs : List (Nat × Nat)) : (s.accessed h o xs).beat = s.beat := by simp [State.accessed]
@[simp] theorem State.accessed_wings (s : State) (h o : Nat) (xs : List (Nat × Nat)) : (s.accessed h o xs).wings = s.wings := by simp [State.accessed]
@[simp] theorem State.accessed_work (s : State) (h o : Nat) (xs : List (Nat × Nat)) : (s.accessed h o xs).work = s.work := by simp [State.accessed]
@[simp] theorem State.accessed_mem (s : State) (h o : Nat) (xs : List (Nat × Nat)) : (s.accessed h o xs).mem = s.mem := by simp [State.accessed]
@[simp] theorem State.accessed_folio (s : State) (h o : Nat) (xs : List (Nat × Nat)) : (s.accessed h o xs).folio = s.folio := by simp [State.accessed]
@[simp] theorem State.accessed_torus (s : State) (h o : Nat) (xs : List (Nat × Nat)) : (s.accessed h o xs).torus = s.torus := by simp [State.accessed]
@[simp] theorem State.accessed_coll (s : State) (h o : Nat) (xs : List (Nat × Nat)) : (s.accessed h o xs).coll = s.coll := by simp [State.accessed]
@[simp] theorem State.accessed_ship (s : State) (h o : Nat) (xs : List (Nat × Nat)) : (s.accessed h o xs).ship = s.ship := by simp [State.accessed]
@[simp] theorem State.accessed_host (s : State) (h o : Nat) (xs : List (Nat × Nat)) : (s.accessed h o xs).host = s.host := by simp [State.accessed]
@[simp] theorem State.accessed_cur (s : State) (h o : Nat) (xs : List (Nat × Nat)) : (s.accessed h o xs).cur = s.cur := by simp [State.accessed]

@[simp] theorem State.request_pending (s : State) (h i : Nat) (b : Bool) (xs : List Ext) : (s.request h i b xs).pending = s.pending := by unfold State.request; dsimp only; split <;> rfl
@[simp] theorem State.request_free (s : State) (h i : Nat) (b : Bool) (xs : List Ext) : (s.request h i b xs).free = s.free := by unfold State.request; dsimp only; split <;> rfl
@[simp] theorem State.request_out (s : State) (h i : Nat) (b : Bool) (xs : List Ext) : (s.request h i b xs).out = s.out := by unfold State.request; dsimp only; split <;> rfl
@[simp] theorem State.request_cat (s : State) (h i : Nat) (b : Bool) (xs : List Ext) : (s.request h i b xs).cat = s.cat := by unfold State.request; dsimp only; split <;> rfl
@[simp] theorem State.request_catSeal (s : State) (h i : Nat) (b : Bool) (xs : List Ext) : (s.request h i b xs).catSeal = s.catSeal := by unfold State.request; dsimp only; split <;> rfl
@[simp] theorem State.request_inUse (s : State) (h i : Nat) (b : Bool) (xs : List Ext) : (s.request h i b xs).inUse = s.inUse := by unfold State.request; dsimp only; split <;> rfl
@[simp] theorem State.request_doms (s : State) (h i : Nat) (b : Bool) (xs : List Ext) : (s.request h i b xs).doms = s.doms := by unfold State.request; dsimp only; split <;> rfl
@[simp] theorem State.request_server (s : State) (h i : Nat) (b : Bool) (xs : List Ext) : (s.request h i b xs).server = s.server := by unfold State.request; dsimp only; split <;> rfl
@[simp] theorem State.request_flash (s : State) (h i : Nat) (b : Bool) (xs : List Ext) : (s.request h i b xs).flash = s.flash := by unfold State.request; dsimp only; split <;> rfl
@[simp] theorem State.request_sec (s : State) (h i : Nat) (b : Bool) (xs : List Ext) : (s.request h i b xs).sec = s.sec := by unfold State.request; dsimp only; split <;> rfl
@[simp] theorem State.request_pins (s : State) (h i : Nat) (b : Bool) (xs : List Ext) : (s.request h i b xs).pins = s.pins := by unfold State.request; dsimp only; split <;> rfl
@[simp] theorem State.request_beat (s : State) (h i : Nat) (b : Bool) (xs : List Ext) : (s.request h i b xs).beat = s.beat := by unfold State.request; dsimp only; split <;> rfl
@[simp] theorem State.request_wings (s : State) (h i : Nat) (b : Bool) (xs : List Ext) : (s.request h i b xs).wings = s.wings := by unfold State.request; dsimp only; split <;> rfl
@[simp] theorem State.request_work (s : State) (h i : Nat) (b : Bool) (xs : List Ext) : (s.request h i b xs).work = s.work := by unfold State.request; dsimp only; split <;> rfl
@[simp] theorem State.request_folio (s : State) (h i : Nat) (b : Bool) (xs : List Ext) : (s.request h i b xs).folio = s.folio := by unfold State.request; dsimp only; split <;> rfl
@[simp] theorem State.request_torus (s : State) (h i : Nat) (b : Bool) (xs : List Ext) : (s.request h i b xs).torus = s.torus := by unfold State.request; dsimp only; split <;> rfl
@[simp] theorem State.request_coll (s : State) (h i : Nat) (b : Bool) (xs : List Ext) : (s.request h i b xs).coll = s.coll := by unfold State.request; dsimp only; split <;> rfl
@[simp] theorem State.request_ship (s : State) (h i : Nat) (b : Bool) (xs : List Ext) : (s.request h i b xs).ship = s.ship := by unfold State.request; dsimp only; split <;> rfl
@[simp] theorem State.request_host (s : State) (h i : Nat) (b : Bool) (xs : List Ext) : (s.request h i b xs).host = s.host := by unfold State.request; dsimp only; split <;> rfl
@[simp] theorem State.request_power (s : State) (h i : Nat) (b : Bool) (xs : List Ext) : (s.request h i b xs).power = s.power := by unfold State.request; dsimp only; split <;> rfl
@[simp] theorem State.request_cur (s : State) (h i : Nat) (b : Bool) (xs : List Ext) : (s.request h i b xs).cur = s.cur := by unfold State.request; dsimp only; split <;> rfl

@[simp] theorem State.writeMem_pending (s : State) (a : Nat) (bs : List Byte) : (s.writeMem a bs).pending = s.pending := rfl
@[simp] theorem State.writeMem_free (s : State) (a : Nat) (bs : List Byte) : (s.writeMem a bs).free = s.free := rfl
@[simp] theorem State.writeMem_out (s : State) (a : Nat) (bs : List Byte) : (s.writeMem a bs).out = s.out := rfl
@[simp] theorem State.writeMem_cat (s : State) (a : Nat) (bs : List Byte) : (s.writeMem a bs).cat = s.cat := rfl
@[simp] theorem State.writeMem_catSeal (s : State) (a : Nat) (bs : List Byte) : (s.writeMem a bs).catSeal = s.catSeal := rfl
@[simp] theorem State.writeMem_inUse (s : State) (a : Nat) (bs : List Byte) : (s.writeMem a bs).inUse = s.inUse := rfl
@[simp] theorem State.writeMem_doms (s : State) (a : Nat) (bs : List Byte) : (s.writeMem a bs).doms = s.doms := rfl
@[simp] theorem State.writeMem_server (s : State) (a : Nat) (bs : List Byte) : (s.writeMem a bs).server = s.server := rfl
@[simp] theorem State.writeMem_flash (s : State) (a : Nat) (bs : List Byte) : (s.writeMem a bs).flash = s.flash := rfl
@[simp] theorem State.writeMem_sec (s : State) (a : Nat) (bs : List Byte) : (s.writeMem a bs).sec = s.sec := rfl
@[simp] theorem State.writeMem_pins (s : State) (a : Nat) (bs : List Byte) : (s.writeMem a bs).pins = s.pins := rfl
@[simp] theorem State.writeMem_wings (s : State) (a : Nat) (bs : List Byte) : (s.writeMem a bs).wings = s.wings := rfl
@[simp] theorem State.writeMem_work (s : State) (a : Nat) (bs : List Byte) : (s.writeMem a bs).work = s.work := rfl
@[simp] theorem State.writeMem_folio (s : State) (a : Nat) (bs : List Byte) : (s.writeMem a bs).folio = s.folio := rfl
@[simp] theorem State.writeMem_torus (s : State) (a : Nat) (bs : List Byte) : (s.writeMem a bs).torus = s.torus := rfl
@[simp] theorem State.writeMem_coll (s : State) (a : Nat) (bs : List Byte) : (s.writeMem a bs).coll = s.coll := rfl
@[simp] theorem State.writeMem_ship (s : State) (a : Nat) (bs : List Byte) : (s.writeMem a bs).ship = s.ship := rfl
@[simp] theorem State.writeMem_host (s : State) (a : Nat) (bs : List Byte) : (s.writeMem a bs).host = s.host := rfl
@[simp] theorem State.writeMem_power (s : State) (a : Nat) (bs : List Byte) : (s.writeMem a bs).power = s.power := rfl
@[simp] theorem State.writeMem_cur (s : State) (a : Nat) (bs : List Byte) : (s.writeMem a bs).cur = s.cur := rfl

@[simp] theorem State.seq_powerCount (s : State) (u k n a b : Nat) : (s.powerCount u k n).seq a b = s.seq a b := by
  unfold State.seq; simp
@[simp] theorem State.seq_energyEvent (s : State) (h w ac k n a b : Nat) : (s.energyEvent h w ac k n).seq a b = s.seq a b := by
  unfold State.seq; simp
@[simp] theorem State.seq_request (s : State) (h i : Nat) (w : Bool) (xs : List Ext) (a b : Nat) : (s.request h i w xs).seq a b = s.seq a b := by
  unfold State.seq; simp
@[simp] theorem State.seq_tally (s : State) (h sl : Nat) (t : Tally) (a b : Nat) : (s.tally h sl t).seq a b = s.seq a b := by
  simp [State.tally]
@[simp] theorem State.engine_tally (s : State) (h sl : Nat) (t : Tally) (a b : Nat) : (s.tally h sl t).engine a b = s.engine a b := by
  simp [State.tally]
@[simp] theorem State.core_tally (s : State) (h sl : Nat) (t : Tally) (a b : Nat) : (s.tally h sl t).core a b = s.core a b := by
  simp [State.tally]
@[simp] theorem State.ring_tally (s : State) (h sl : Nat) (t : Tally) (a b : Nat) : (s.tally h sl t).ring a b = s.ring a b := by
  simp [State.tally]

/-- Where the sequencer goes after the descriptor (R208): the next one, or from the end of a claim body back to its CLAIM. -/
def State.follow (s : State) (c : Ctx) : Nat := match (s.seq c.hall c.slot).loop with
  | some (start, last) => if c.pos = last then start else c.pos + 1
  | none => c.pos + 1

/-- Advancing moves the sequencer and nothing else of it. -/
theorem State.advance_seq (s : State) (c : Ctx) :
    (s.advance c).seq c.hall c.slot = { s.seq c.hall c.slot with pos := s.follow c, hold := .none, waits := [], iter := 0, taken := none } := by
  unfold State.advance; exact State.seq_setSeq_self _ _ _ _

/-- The sequencer after a descriptor that is done. -/
theorem State.done_seq (s : State) (c : Ctx) (l a b : Nat) (t : Tally) :
    let q := s.seq c.hall c.slot
    (s.done c l a b t).seq c.hall c.slot =
      { q with pos := s.follow c, hold := .none, waits := [], iter := 0, taken := none, nextRec := q.nextRec + 1,
               records := updFirst (fun r => r.id == q.nextRec) (fun r => r.tally t) (q.records ++
                 [{ id := q.nextRec, pos := c.pos, desc := c.desc, status := 0, length := l, trunc := 0, sat := 0, special := 0,
                    detail0 := a, detail1 := b }]) } := by
  unfold State.done
  dsimp only
  rw [State.advance_seq]
  unfold State.follow
  simp [State.updRec, State.openRec]

@[simp] theorem State.engine_done (s : State) (c : Ctx) (l x y : Nat) (t : Tally) (a b : Nat) :
    (s.done c l x y t).engine a b = s.engine a b := by
  simp [State.done, State.advance, State.updRec, State.openRec]
@[simp] theorem State.core_done (s : State) (c : Ctx) (l x y : Nat) (t : Tally) (a b : Nat) :
    (s.done c l x y t).core a b = s.core a b := by
  simp [State.done, State.advance, State.updRec, State.openRec]
@[simp] theorem State.ring_done (s : State) (c : Ctx) (l x y : Nat) (t : Tally) (a b : Nat) :
    (s.done c l x y t).ring a b = s.ring a b := by
  simp [State.done, State.advance, State.updRec, State.openRec]

/-- What `ready` answers is the descriptor at the sequencer's position. -/
theorem State.ready_some (s : State) (hall slot : Nat) (c : Ctx) (h : s.ready hall slot = some c) :
    c.hall = hall ∧ c.slot = slot ∧ c.wing = (s.seq hall slot).wing ∧ c.pos = (s.seq hall slot).pos ∧
      (s.seq hall slot).program[(s.seq hall slot).pos]? = some c.desc ∧
      (s.seq hall slot).status = .running ∧ (s.seq hall slot).hold = .none ∧ s.cur.hallsStopped = false := by
  unfold State.ready at h
  dsimp only at h
  by_cases hc : (s.seq hall slot).status = .running ∧ (s.seq hall slot).hold = .none ∧ s.slotStopped hall slot = false ∧ s.cur.hallsStopped = false
  · rw [if_pos hc] at h
    cases hp : (s.seq hall slot).program[(s.seq hall slot).pos]? with
    | none => rw [hp] at h; cases h
    | some d =>
      rw [hp] at h
      simp only [Option.map_some, Option.some.injEq] at h
      subst h
      exact ⟨rfl, rfl, rfl, rfl, rfl, hc.1, hc.2.1, hc.2.2.2⟩
  · rw [if_neg hc] at h; cases h

/-- A descriptor issues when its core does not fail at it. -/
theorem State.issue_ok (s : State) (c : Ctx) (f : State → Ctx → State) (h : s.slipAt c.hall c.slot c.pos = none) : s.issue c f = f s c := by
  unfold State.issue; rw [h]

/-- Running on the next descriptor, at which its core does not fail. -/
theorem State.onDesc_some (s : State) (hall slot : Nat) (p : Ctx → Bool) (f : State → Ctx → State) (c : Ctx)
    (h : s.ready hall slot = some c) (hs : s.slipAt hall slot c.pos = none) (hp : p c = true) : s.onDesc hall slot p f = f s c := by
  obtain ⟨h1, h2, -⟩ := State.ready_some s hall slot c h
  unfold State.onDesc; rw [h]; simp only [hp, if_true]
  exact State.issue_ok s c f (by rw [h1, h2]; exact hs)

/-- A write by a descriptor outside HBM is made at once. -/
theorem State.beatWrite_sram (s : State) (o : Option Writer) (a : Nat) (bs : List Byte) (h : isHbm a = false) : s.beatWrite o a bs = s.writeMem a bs := by
  unfold State.beatWrite; simp [h]

/-! ### Writes of a descriptor outside HBM -/

/-- Bytes that no write covers are delivered as before. -/
theorem State.beatWrites_outside (o : Option Writer) (ws : List (Nat × List Byte)) (x : Nat) (hx : ∀ w ∈ ws, ¬(w.1 ≤ x ∧ x < w.1 + w.2.length)) :
    ∀ (s : State), (∀ w ∈ ws, usableBytes ≤ w.1) →
      (ws.foldl (fun t w => t.beatWrite o w.1 w.2) s).mem.deliver x = s.mem.deliver x := by
  induction ws with
  | nil => intro s _; rfl
  | cons w ws ih =>
    intro s h
    rw [List.foldl_cons, ih (fun v hv => hx v (List.mem_cons_of_mem _ hv)) _ (fun v hv => h v (List.mem_cons_of_mem _ hv)),
      State.beatWrite_sram]
    · exact Mem.deliver_write_outside _ _ _ (Or.inr (h w (List.mem_cons_self ..))) x (hx w (List.mem_cons_self ..))
    · unfold isHbm; rw [decide_eq_false_iff_not]; exact Nat.not_lt.mpr (h w (List.mem_cons_self ..))

/-- Writes that do not overlap. -/
def Disjoint (ws : List (Nat × List Byte)) : Prop :=
  ws.Pairwise (fun a b => a.1 + a.2.length ≤ b.1 ∨ b.1 + b.2.length ≤ a.1)

/-- The bytes of each write are delivered. -/
theorem State.beatWrites_inside (o : Option Writer) (ws : List (Nat × List Byte)) (hd : Disjoint ws) :
    ∀ (s : State), (∀ w ∈ ws, usableBytes ≤ w.1) → ∀ w ∈ ws, ∀ j, j < w.2.length →
      (ws.foldl (fun t w => t.beatWrite o w.1 w.2) s).mem.deliver (w.1 + j) = w.2.getD j 0#8 := by
  induction ws with
  | nil => intro s _ w hw; cases hw
  | cons v ws ih =>
    intro s h w hw j hj
    have hd' : (∀ b ∈ ws, v.1 + v.2.length ≤ b.1 ∨ b.1 + b.2.length ≤ v.1) ∧ Disjoint ws := List.pairwise_cons.mp hd
    rw [List.foldl_cons]
    rcases List.mem_cons.mp hw with rfl | hw
    · rw [State.beatWrites_outside o ws _ (fun b hb => by have := hd'.1 b hb; omega) _ (fun b hb => h b (List.mem_cons_of_mem _ hb)),
        State.beatWrite_sram]
      · show (s.mem.write w.1 w.2).deliver (w.1 + j) = _
        rw [Mem.deliver_write_sram _ _ _ (h w (List.mem_cons_self ..)), if_pos (by omega)]; congr 1; omega
      · unfold isHbm; rw [decide_eq_false_iff_not]; exact Nat.not_lt.mpr (h w (List.mem_cons_self ..))
    · exact ih hd'.2 _ (fun b hb => h b (List.mem_cons_of_mem _ hb)) w hw j hj

theorem foldl_keeps_mem {α β : Type} (p : State → α) (f : State → β → State) (l : List β)
    (h : ∀ t, ∀ x ∈ l, p (f t x) = p t) (s : State) : p (l.foldl f s) = p s := by
  induction l generalizing s with
  | nil => rfl
  | cons x xs ih => rw [List.foldl_cons, ih (fun t y hy => h t y (List.mem_cons_of_mem _ hy)), h s x (List.mem_cons_self ..)]

/-- What writes outside HBM leave alone. -/
theorem State.beatWrites_work (o : Option Writer) (ws : List (Nat × List Byte)) (s : State) (h : ∀ w ∈ ws, usableBytes ≤ w.1) :
    (ws.foldl (fun t w => t.beatWrite o w.1 w.2) s).work = s.work := by
  apply foldl_keeps_mem State.work
  intro t w hw
  rw [State.beatWrite_sram]
  · rfl
  · unfold isHbm; rw [decide_eq_false_iff_not]; exact Nat.not_lt.mpr (h w hw)

/-! ### Clean reads -/

theorem foldl_same {α β : Type} (f : α → β → α) (l : List β) (s : α) (h : ∀ x ∈ l, f s x = s) : l.foldl f s = s := by
  induction l with
  | nil => rfl
  | cons x xs ih => rw [List.foldl_cons, h x (List.mem_cons_self ..)]; exact ih (fun y hy => h y (List.mem_cons_of_mem _ hy))

theorem Mem.see_sram (m : Mem) (w : Nat) (h : isHbm (8 * w) = false) : m.see w = m.read w := by
  unfold Mem.see; simp [h]

theorem wordsOf_mem (a n w : Nat) (h : w ∈ wordsOf a n) : a / 8 ≤ w ∧ w ≤ (a + n - 1) / 8 ∧ n ≠ 0 := by
  unfold wordsOf at h
  split at h
  · cases h
  · next hn =>
    obtain ⟨i, hi, rfl⟩ := List.mem_map.mp h
    have := List.mem_range.mp hi
    omega

/-- A clean read changes nothing. -/
theorem State.touch_clean (s : State) (a n : Nat) (h : Clean s [(a, n)]) : s.touch .beat a n = s := by
  have hc := h (a, n) (List.mem_cons_self ..)
  unfold State.touch
  split
  · next hh =>
    apply foldl_same
    intro k hk
    have hg := hc.2 hh k hk
    have h1 : s.mem.correctedIn k = [] := by
      unfold Mem.correctedIn
      rw [List.filterMap_eq_nil_iff]
      intro i hi
      obtain ⟨d, hd⟩ := hg i (List.mem_range.mp hi)
      rw [hd]
    have h2 : s.mem.badIn k = [] := by
      unfold Mem.badIn
      rw [List.filter_eq_nil_iff]
      intro w hw
      obtain ⟨i, hi, rfl⟩ := List.mem_map.mp hw
      obtain ⟨d, hd⟩ := hg i (List.mem_range.mp hi)
      unfold Mem.bad; rw [hd]; simp
    unfold State.touchSector
    rw [h1, h2]; rfl
  · next hh =>
    apply foldl_same
    intro w hw
    obtain ⟨hu, d, hd⟩ := hc.1 w hw
    have hb := wordsOf_mem a n w hw
    have hs : isHbm (8 * w) = false := by
      unfold isHbm at *
      have hu : usableBytes = 8 * 42647683072 := by decide
      simp only [decide_eq_true_eq, decide_eq_false_iff_not] at *
      omega
    rw [hu, Mem.see_sram _ _ hs] at *
    unfold State.touchSram
    simp [hd]

theorem State.touches_clean (xs : List Ext) (s : State) (h : Clean s xs) : xs.foldl (fun t x => t.touch .beat x.1 x.2) s = s := by
  apply foldl_same
  intro x hx
  apply State.touch_clean
  intro y hy
  rw [List.mem_singleton.mp hy]
  exact h x hx

/-- A clean read of a descriptor counts energy and asks for HBM; it changes nothing else. -/
theorem State.readAll_clean (s : State) (c : Ctx) (xs : List Ext) (h : Clean s xs) :
    s.readAll c xs = (s.request c.hall c.slot false xs).accessed c.hall (tagOwner c.wing c.account) xs := by
  unfold State.readAll; rw [State.touches_clean xs s h]

@[simp] theorem State.request_deliver (s : State) (h i : Nat) (b : Bool) (xs : List Ext) (a : Nat) :
    (s.request h i b xs).mem.deliver a = s.mem.deliver a := by
  unfold State.request; dsimp only; split <;> rfl

/-- Clean ranges stop no descriptor: not its data, not what says where the data lies. -/
theorem State.faults_clean (s : State) (xs : List Ext) (h : Clean s xs) : s.dataFault xs = none ∧ s.readFault xs = none := by
  have hw : ∀ x ∈ xs, ∀ w ∈ wordsOf x.1 x.2, s.mem.unwritten w = false ∧ s.mem.bad w = false := by
    intro x hx w hm
    obtain ⟨hu, d, hd⟩ := (h x hx).1 w hm
    refine ⟨hu, ?_⟩
    unfold Mem.bad; rw [hd]
  have h1 : xs.findSome? (fun x => s.mem.firstUnwritten x.1 x.2) = none := by
    rw [List.findSome?_eq_none_iff]
    intro x hx
    unfold Mem.firstUnwritten
    rw [List.find?_eq_none]
    intro w hm
    simp [(hw x hx w hm).1]
  have h2 : xs.findSome? (fun x => s.sourceBad x.1 x.2) = none := by
    rw [List.findSome?_eq_none_iff]
    intro x hx
    unfold State.sourceBad
    rw [List.find?_eq_none]
    intro w hm
    simp [(hw x hx w hm).2]
  have h3 : (xs.any fun x => (s.mem.firstBad x.1 x.2).isSome) = false := by
    rw [List.any_eq_false]
    intro x hx
    have : s.mem.firstBad x.1 x.2 = none := by
      unfold Mem.firstBad
      rw [List.find?_eq_none]
      intro w hm
      simp [(hw x hx w hm).2]
    simp [this]
  have hd : s.dataFault xs = none := by unfold State.dataFault; rw [h1, h2]; rfl
  exact ⟨hd, by unfold State.readFault; rw [hd, h3]; rfl⟩

end Sys2Proof.Machine
end

