-- ==== Sys2Proof/WellFormed.lean ====
section
/-! DEFINITION. Ranges of the operands of a command: which halls, slots, wings, functions, devices, doors and the like a package has (R1-R17, R65, R399, R502). A meaning is total; a command outside these ranges names nothing that exists. -/

namespace Sys2Proof

/-- The operands of a command lie in the ranges the manual gives the things they name. -/
def Instr.wellFormed : Instr → Bool
  | .read _ => true
  | .describe _ => true
  | .snapshot _ => true
  | .write _ => true
  | .readBlock _ => true
  | .writeBlock _ => true
  | .sessionOpenPhase1 _ => true
  | .sessionOpenPhase3 _ => true
  | .sessionClose _ => true
  | .halfOpenTimeout _ => true
  | .sessionIdleTimeout _ => true
  | .domainClaimExpiry _ => true
  | .catalogueForwardTimeout fn => decide (fn < 17)
  | .catalogueForward source wing view _ _ => decide (source < 64) && decide (wing < 16) && decide (view < 256)
  | .persistWriteComplete _ => true
  | .registerWrite fn bar _ _ => decide (fn < 17) && decide (bar < 7)
  | .catDoorbellGo fn => decide (fn < 17)
  | .halt _ => true
  | .run _ => true
  | .clearFatal _ => true
  | .restoreDefaults _ => true
  | .windowWrite _ => true
  | .hallStoreShareWrite _ => true
  | .beatBoundary => true
  | .streamStall hall _ => decide (hall < 8)
  | .beatMarker _ _ _ master _ => decide (master < 64)
  | .markerMissed => true
  | .markerLossElection => true
  | .masterElection _ => true
  | .timingFrame device roundTrip => decide (device < 64) && decide (roundTrip.lead < 65536)
  | .beatInEdge _ => true
  | .beatInLost _ => true
  | .masterDecision => true
  | .overrunLimit => true
  | .ready device _ _ ceiling _ => decide (device < 64) && decide (ceiling < 16)
  | .notReady device _ _ ceiling _ => decide (device < 64) && decide (ceiling < 16)
  | .workFinished _ => true
  | .readyCutoff => true
  | .stageGroupStart hall g => decide (hall < 8) && decide (g.leader < 40) && g.slips.all (fun x => decide (x.1 < 40)) && g.realPart.all (fun x => decide (x.1 < 40))
  | .sealBegin _ => true
  | .commitToken device _ => decide (device < 64)
  | .withdrawToken device _ => decide (device < 64)
  | .sparingComplete => true
  | .matmul hall slot _ => decide (hall < 8) && decide (slot < 40)
  | .chain hall slot => decide (hall < 8) && decide (slot < 40)
  | .attend hall slot => decide (hall < 8) && decide (slot < 40)
  | .vectorAdd hall slot => decide (hall < 8) && decide (slot < 40)
  | .vectorSub hall slot => decide (hall < 8) && decide (slot < 40)
  | .vectorMul hall slot => decide (hall < 8) && decide (slot < 40)
  | .vectorDiv hall slot => decide (hall < 8) && decide (slot < 40)
  | .vectorMax hall slot => decide (hall < 8) && decide (slot < 40)
  | .vectorMin hall slot => decide (hall < 8) && decide (slot < 40)
  | .vectorCmpLt hall slot => decide (hall < 8) && decide (slot < 40)
  | .vectorCmpEq hall slot => decide (hall < 8) && decide (slot < 40)
  | .vectorFma hall slot => decide (hall < 8) && decide (slot < 40)
  | .vectorRowscale hall slot => decide (hall < 8) && decide (slot < 40)
  | .vectorColscale hall slot => decide (hall < 8) && decide (slot < 40)
  | .vectorConvert hall slot => decide (hall < 8) && decide (slot < 40)
  | .vectorSqrt hall slot => decide (hall < 8) && decide (slot < 40)
  | .vectorExp2 hall slot => decide (hall < 8) && decide (slot < 40)
  | .vectorLog2 hall slot => decide (hall < 8) && decide (slot < 40)
  | .vectorRecip hall slot => decide (hall < 8) && decide (slot < 40)
  | .vectorRsqrt hall slot => decide (hall < 8) && decide (slot < 40)
  | .vectorTanh hall slot => decide (hall < 8) && decide (slot < 40)
  | .vectorSum hall slot => decide (hall < 8) && decide (slot < 40)
  | .vectorLineMax hall slot => decide (hall < 8) && decide (slot < 40)
  | .vectorLineMin hall slot => decide (hall < 8) && decide (slot < 40)
  | .vectorSumsq hall slot => decide (hall < 8) && decide (slot < 40)
  | .rowstatReset hall slot => decide (hall < 8) && decide (slot < 40)
  | .rowstatRead hall slot => decide (hall < 8) && decide (slot < 40)
  | .rowstatLoad hall slot => decide (hall < 8) && decide (slot < 40)
  | .move hall slot => decide (hall < 8) && decide (slot < 40)
  | .moveZero hall slot => decide (hall < 8) && decide (slot < 40)
  | .moveIndexed hall slot => decide (hall < 8) && decide (slot < 40)
  | .folioGather hall slot => decide (hall < 8) && decide (slot < 40)
  | .folioCopy hall slot => decide (hall < 8) && decide (slot < 40)
  | .folioLoanTake hall slot => decide (hall < 8) && decide (slot < 40)
  | .folioLoanRelease hall slot => decide (hall < 8) && decide (slot < 40)
  | .folioLoanChecks => true
  | .streamOpen hall slot => decide (hall < 8) && decide (slot < 40)
  | .streamOpenGranted hall slot _ => decide (hall < 8) && decide (slot < 40)
  | .streamClose hall slot => decide (hall < 8) && decide (slot < 40)
  | .streamCloseDone hall slot => decide (hall < 8) && decide (slot < 40)
  | .streamCancel hall slot => decide (hall < 8) && decide (slot < 40)
  | .streamCancelDone hall slot => decide (hall < 8) && decide (slot < 40)
  | .claim hall slot => decide (hall < 8) && decide (slot < 40)
  | .counterWait hall slot => decide (hall < 8) && decide (slot < 40)
  | .counterWaitSatisfied hall slot => decide (hall < 8) && decide (slot < 40)
  | .signalLocal hall slot => decide (hall < 8) && decide (slot < 40)
  | .signalRemote hall slot => decide (hall < 8) && decide (slot < 40)
  | .remoteFlag source wing flag _ => decide (source < 64) && decide (wing < 16) && decide (flag < 64)
  | .flagWait hall slot => decide (hall < 8) && decide (slot < 40)
  | .flagWaitSatisfied hall slot => decide (hall < 8) && decide (slot < 40)
  | .phase hall slot => decide (hall < 8) && decide (slot < 40)
  | .seal hall slot => decide (hall < 8) && decide (slot < 40)
  | .broadcast hall slot => decide (hall < 8) && decide (slot < 40)
  | .allGather hall slot => decide (hall < 8) && decide (slot < 40)
  | .reduceScatter hall slot => decide (hall < 8) && decide (slot < 40)
  | .allReduce hall slot => decide (hall < 8) && decide (slot < 40)
  | .barrier hall slot => decide (hall < 8) && decide (slot < 40)
  | .allToAll hall slot => decide (hall < 8) && decide (slot < 40)
  | .allToAllV hall slot => decide (hall < 8) && decide (slot < 40)
  | .courierAllReduce hall slot => decide (hall < 8) && decide (slot < 40)
  | .collectWait hall slot => decide (hall < 8) && decide (slot < 40)
  | .collectWaitDone hall slot => decide (hall < 8) && decide (slot < 40)
  | .dependencyWaitEnd hall slot _ => decide (hall < 8) && decide (slot < 40)
  | .arrayInstruction hall slot _ => decide (hall < 8) && decide (slot < 40)
  | .tileLoaded hall slot => decide (hall < 8) && decide (slot < 40)
  | .resultRowLeaves hall slot _ => decide (hall < 8) && decide (slot < 40)
  | .arrayIdle hall slot => decide (hall < 8) && decide (slot < 40)
  | .rowstatPartialArrival hall slot => decide (hall < 8) && decide (slot < 40)
  | .adapterInstruction hall slot => decide (hall < 8) && decide (slot < 40)
  | .peerSend hall slot => decide (hall < 8) && decide (slot < 40)
  | .peerDataArrival source wing hall _ _ _ => decide (source < 64) && decide (wing < 16) && decide (hall < 8)
  | .ringAnnouncement source wing hall _ _ expected _ => decide (source < 64) && decide (wing < 16) && decide (hall < 8) && decide (expected < 41)
  | .peerCredit source hall _ _ _ => decide (source < 64) && decide (hall < 8)
  | .fillLineLands hall _ _ => decide (hall < 8)
  | .consumerTakesSlot hall slot => decide (hall < 8) && decide (slot < 40)
  | .hbmRequestAdmitted hall _ _ _ => decide (hall < 8)
  | .lightPathComplete hall slot => decide (hall < 8) && decide (slot < 40)
  | .jobAccept wing => decide (wing < 16)
  | .jobStart wing _ _ _ => decide (wing < 16)
  | .jobDistribution source wing view _ _ _ => decide (source < 64) && decide (wing < 16) && decide (view < 17)
  | .scrubRead stack _ _ => decide (stack < 8)
  | .lapOverdue stack _ => decide (stack < 8)
  | .hallStoreScrubRead hall _ => decide (hall < 8)
  | .mergeEntryWrite stack _ => decide (stack < 8)
  | .mode _ => true
  | .doorDetectDone door _ => decide (door < 16)
  | .doorSignalLocked door _ => decide (door < 16)
  | .doorAlignDone door _ => decide (door < 16)
  | .linkControlFlit door _ => decide (door < 16)
  | .doorCreditReceived door => decide (door < 16)
  | .doorTrainingFailed door => decide (door < 16)
  | .doorRetrain door => decide (door < 16)
  | .flitReceived door _ _ _ => decide (door < 16)
  | .resendTimeout door => decide (door < 16)
  | .doorDown door _ => decide (door < 16)
  | .laneFailure door lane _ => decide (door < 16) && decide (lane < 9)
  | .laneSpared door lane _ => decide (door < 16) && decide (lane < 9)
  | .routerForward port channel => decide (port < 25) && decide (channel < 5)
  | .linkCut device _ => decide (device < 64)
  | .deviceMissing device => decide (device < 64)
  | .neighbourSilent direction => decide (direction < 4)
  | .linkRestored device _ => decide (device < 64)
  | .errorRecordAnnouncement _ => true
  | .laserFeedLost module _ => decide (module < 4)
  | .prepareRemoval _ => true
  | .returnToService _ => true
  | .laserPresent module => decide (module < 4)
  | .laserEnable module => decide (module < 4)
  | .laserOutputInRange module _ _ => decide (module < 4)
  | .groupDefine _ => true
  | .groupDelete _ => true
  | .launch source wing _ => decide (source < 64) && decide (wing < 16)
  | .courierData source wing _ => decide (source < 64) && decide (wing < 16)
  | .abort source wing _ => decide (source < 64) && decide (wing < 16)
  | .collectivePiece source wing _ _ => decide (source < 64) && decide (wing < 16)
  | .reductionSlotsTaken group _ => decide (group < 65535)
  | .collectiveTimeout group _ => decide (group < 65535)
  | .runJob wing queue => decide (wing < 16) && decide (queue < 64)
  | .loadImage wing queue => decide (wing < 16) && decide (queue < 64)
  | .unloadImage wing queue => decide (wing < 16) && decide (queue < 64)
  | .ship wing queue => decide (wing < 16) && decide (queue < 64)
  | .nop wing queue => decide (wing < 16) && decide (queue < 64)
  | .sqTail fn wing queue _ => decide (fn < 17) && decide (wing < 16) && decide (queue < 64)
  | .cqHead fn wing queue _ => decide (fn < 17) && decide (wing < 16) && decide (queue < 64)
  | .sqEnable fn wing queue _ => decide (fn < 17) && decide (wing < 16) && decide (queue < 64)
  | .sqDisable fn wing queue _ => decide (fn < 17) && decide (wing < 16) && decide (queue < 64)
  | .cqEnable fn wing queue _ => decide (fn < 17) && decide (wing < 16) && decide (queue < 64)
  | .cqDisable fn wing queue _ => decide (fn < 17) && decide (wing < 16) && decide (queue < 64)
  | .completionWrite wing queue => decide (wing < 16) && decide (queue < 64)
  | .coalesceTimer wing queue => decide (wing < 16) && decide (queue < 64)
  | .msixUnmask fn vector => decide (fn < 17) && decide (vector < 2048)
  | .aperture fn wing _ => decide (fn < 17) && decide (wing < 16)
  | .bar4Read fn _ _ _ => decide (fn < 17)
  | .bar4Write fn _ _ _ => decide (fn < 17)
  | .flr fn => decide (fn < 17)
  | .vfEnableClear fn => decide (fn < 17)
  | .hotReset => true
  | .doeDiscovery _ => true
  | .getVersion transport _ => decide (transport < 2 ^ 32)
  | .getCapabilities transport _ => decide (transport < 2 ^ 32)
  | .negotiateAlgorithms transport _ => decide (transport < 2 ^ 32)
  | .getDigests transport _ => decide (transport < 2 ^ 32)
  | .getCertificate transport _ => decide (transport < 2 ^ 32)
  | .challenge transport _ => decide (transport < 2 ^ 32)
  | .getMeasurements transport _ => decide (transport < 2 ^ 32)
  | .openResend _ => true
  | .ailasOpen source wing _ => decide (source < 64) && decide (wing < 16)
  | .accept _ => true
  | .chunkSend _ _ => true
  | .chunk source wing _ => decide (source < 64) && decide (wing < 16)
  | .ack _ => true
  | .retransmissionTimeout _ => true
  | .noRoute _ => true
  | .close _ => true
  | .closeAck _ => true
  | .shipCancel _ => true
  | .ailasFragment source wing _ => decide (source < 64) && decide (wing < 16)
  | .ethernetFrame door _ _ => decide (door < 16)
  | .ethDoorDown door _ => decide (door < 16)
  | .powerWindow => true
  | .powerCalibration _ => true
  | .divergenceClear _ => true
  | .voltageSettled hall _ => decide (hall < 8)
  | .shareUpdate _ _ _ => true
  | .sensorRead _ _ => true
  | .thermalCeilingStep hall => decide (hall < 8)
  | .thermalTrip _ _ => true
  | .coolantOkFall => true
  | .coolantStop => true
  | .hbmSelfRefreshEntered => true
  | .coolantOkRise => true
  | .coolantCommand _ _ => true
  | .coreTestComplete hall core _ _ => decide (hall < 8) && decide (core < 42)
  | .rotationStep hall => decide (hall < 8)
  | .rotationTestComplete hall _ _ => decide (hall < 8)
  | .packageFatal _ _ _ _ => true
  | .forwardingStop => true
  | .curatorWatchdog _ => true
  | .curatorReturn _ => true
  | .activate _ => true
  | .firmwareActivationComplete => true
  | .confirm _ => true
  | .revert _ => true
  | .trialTimeExpiry => true
  | .removalPrepare _ => true
  | .removalAfterStop _ => true
  | .removalCancel _ => true
  | .resetNRise => true
  | .resetNFall => true
  | .powerOff => true
  | .reset _ => true
  | .quickTestComplete _ => true
  | .stopWithSelfTest _ => true
  | .stopWithoutSelfTest _ => true
  | .selfTestRailCheck _ _ => true
  | .selfTestComplete _ _ _ => true
  | .reportWritten => true
  | .refclkLockLoss => true
  | .slotWrite _ => true
  | .debugOpen _ => true
  | .ethDoorUp door => decide (door < 16)
  | .pcieLinkTrained _ _ _ => true
  | .forwardResult source _ => decide (source < 64)
  | .badOpcode hall slot => decide (hall < 8) && decide (slot < 40)
  | .fieldNetworkNeighbourDiscovery _ => true

end Sys2Proof
end

