-- ==== Sys2Proof/Tests/Slice0.lean ====
section
/-! SUPPORT. The model's own tests: the queue, well-formedness and its refusals, one witness for every statement that has hypotheses, and worked examples of the spec. -/

namespace Sys2Proof.Tests

set_option Elab.async false

open Sys2Proof Sys2Proof.Machine Sys2Proof.Claims

/-! ### Helpers -/

/-- A descriptor from fields: lowest bit and value. -/
def word (fs : List (Nat × Nat)) : Nat := fs.foldl (fun a f => a + f.2 * 2 ^ f.1) 0

/-- The header of an opcode, version 3. -/
def head (op : Nat) : List (Nat × Nat) := [(0, op), (8, 3)]

/-- Slot 0 of hall 0 runs a program. -/
def runs (ds : List Nat) : State := { work := { seqs := [(0, { program := ds, status := .running })] } }

/-- Every sequencer of a state is held. -/
def held (s : State) (h : Hold) : State := { s with work := { s.work with seqs := s.work.seqs.map fun e => (e.1, { e.2 with hold := h }) } }

/-- The descriptor at work at the front of slot 0's program. -/
def first (d : Nat) : Ctx := ⟨0, 0, 0, 0, d⟩

/-- A change of a state's work. -/
def onWork (s : State) (f : Work → Work) : State := { s with work := f s.work }

/-- An object's value in a state. -/
def withObj (s : State) (acc sub v : Nat) : State := s.setObj acc sub v

/-! ### Well-formedness and words -/

/-- One ill-formed command for each range that is checked, at its first value outside. -/
theorem test_ill_formed : ([.catalogueForwardTimeout 17, .catalogueForward 64 0 0 ⟨1, 0, 0, 0, 0, false, false, false, []⟩ 0,
    .catalogueForward 0 16 0 ⟨1, 0, 0, 0, 0, false, false, false, []⟩ 0, .catalogueForward 0 0 256 ⟨1, 0, 0, 0, 0, false, false, false, []⟩ 0,
    .registerWrite 0 7 0 [], .catDoorbellGo 17, .streamStall 8 0, .beatMarker 0 true 0 64 0, .timingFrame 64 ⟨0, 0⟩, .timingFrame 0 ⟨0, 65536⟩, .ready 64 0 0 0 0, .ready 0 0 0 16 0,
    .notReady 0 0 false 16 0, .stageGroupStart 0 ⟨40, [], []⟩, .stageGroupStart 0 ⟨0, [(40, 0, .lockstep)], []⟩, .commitToken 64 0, .withdrawToken 64 0, .matmul 8 0 false, .matmul 0 40 false, .seal 0 40] : List Instr).all
      (fun c => !c.wellFormed) = true := by decide +kernel

theorem test_ill_formed_units : ([.remoteFlag 0 0 64 0, .jobAccept 16, .jobDistribution 0 0 17 0 0 [], .peerCredit 0 8 0 0 false, .scrubRead 8 0 ⟨[], 0, 0, false⟩,
    .mergeEntryWrite 8 0, .doorRetrain 16, .laneFailure 0 9 .clock, .laneSpared 16 0 0, .routerForward 25 0, .routerForward 0 5, .linkCut 64 true, .neighbourSilent 4,
    .laserPresent 4, .reductionSlotsTaken 65535 0, .collectiveTimeout 65535 0, .runJob 16 0, .nop 0 64, .sqTail 17 0 0 0, .cqHead 0 0 64 0, .msixUnmask 0 2048,
    .getVersion (2 ^ 32) [], .coreTestComplete 0 42 true 0, .rotationStep 8, .forwardResult 64 (.command 0 0 0), .ethDoorUp 16] : List Instr).all
      (fun c => !c.wellFormed) = true := by decide +kernel

theorem test_well_formed : ([.matmul 7 39 false, .nop 15 63, .routerForward 24 4, .msixUnmask 16 2047, .coreTestComplete 7 41 true 0, .remoteFlag 63 15 63 0] :
    List Instr).all Instr.wellFormed = true := by decide +kernel

/-- No row of the table gives bits: no word spells a command, and the queue is left as it is. -/
theorem test_no_words (n w : Nat) (s : State) : decodeTableWord n w = none ∧ s.withFetchWord n w = s := ⟨rfl, rfl⟩

/-! ### The queue -/

theorem test_idle : step State.reset = .next State.reset := by rfl

theorem test_front : step { pending := [.nop 0 0, .powerOff] } = exec (.nop 0 0) { pending := [.powerOff] } := by rfl

/-! ### Sequencing and decode faults -/

def dClaim : Nat := word (head 0x18 ++ [(64, 7), (69, 2), (72, 1), (80, 3), (96, 5), (128, 0xFF)])
def dSeal (n : Nat) : Nat := word (head 0x3F ++ [(64, n)])
def dCounterWait : Nat := word (head 0x19 ++ [(72, 7), (96, 5), (128, 0xFF)])
def dSignal : Nat := word (head 0x28 ++ [(72, 9), (96, 4)])
def dRemote : Nat := word (head 0x28 ++ [(64, 1), (72, 63), (96, 4)])
def dFlagWait : Nat := word (head 0x29 ++ [(72, 9), (96, 4)])
def sClaim : State := runs [dClaim, dSignal, dSeal 3]

/-- CLAIM and COUNTER_WAIT, below and at the limit, and the release of the wait. -/
theorem witness_SequencingCompletes_counters :
    At sClaim 0 0 0x18 (first dClaim) ∧ sClaim.claimFault (first dClaim) = none ∧ sClaim.counter (first dClaim) 7 < 5 ∧
    (let s := onWork sClaim (fun w => { w with counters := [(7, 5)] });
      At s 0 0 0x18 (first dClaim) ∧ 5 ≤ s.counter (first dClaim) 7) ∧
    (let s := runs [dCounterWait];
      At s 0 0 0x19 (first dCounterWait) ∧ s.counterWaitFault (first dCounterWait) = none ∧ s.watched (first dCounterWait) < 5) ∧
    (let s := held (onWork (runs [dCounterWait]) fun w => { w with counters := [(7, 5)] }) .counter;
      s.held 0 0 .counter = some (first dCounterWait) ∧ 5 ≤ s.watched (first dCounterWait)) := by
  unfold At; decide +kernel

theorem witness_SequencingCompletes_lengths :
    sClaim.refLen (first dClaim) ((first dClaim).fld 135 128) (first dClaim).clLimit = .ok 5 ∧
      (runs [dCounterWait]).refLen (first dCounterWait) ((first dCounterWait).fld 135 128) (first dCounterWait).cwValue = .ok 5 := by
  have h : (first dClaim).fld 135 128 = 0xFF ∧ (first dClaim).clLimit = 5 ∧ (first dCounterWait).fld 135 128 = 0xFF ∧
    (first dCounterWait).cwValue = 5 := by decide +kernel
  rw [h.1, h.2.1, h.2.2.1, h.2.2.2]; exact ⟨rfl, rfl⟩

/-- SIGNAL of both kinds, WAIT below and at its value, SEAL, and what a hold or a start ends. -/
theorem witness_SequencingCompletes_flags :
    At (runs [dSignal]) 0 0 0x28 (first dSignal) ∧ (first dSignal).sgKind = 0 ∧ (runs [dSignal]).signalFault (first dSignal) = none ∧
    At (runs [dRemote]) 0 0 0x28 (first dRemote) ∧ (first dRemote).sgKind = 1 ∧ (runs [dRemote]).signalFault (first dRemote) = none ∧
    At (runs [dFlagWait]) 0 0 0x29 (first dFlagWait) ∧ (runs [dFlagWait]).flagWaitFault (first dFlagWait) = none ∧
    (let s := held (onWork (runs [dFlagWait]) fun w => { w with flags := [(9, 4)] }) .flag;
      s.held 0 0 .flag = some (first dFlagWait) ∧ (first dFlagWait).sgAdd ≤ s.flagOf (first dFlagWait)) ∧
    (let s := runs [dSeal 1];
      At s 0 0 0x3F (first (dSeal 1)) ∧ s.headerFault (first (dSeal 1)) [(80, 511)] [] false false = none ∧ (first (dSeal 1)).fld 79 64 = 1) ∧
    (let s := held (runs [dSignal]) .dependency;
      s.held 0 0 .dependency = some (first dSignal) ∧ s.depends (first dSignal) (s.seq 0 0).dep = false) ∧
    (let s : State := { work := { seqs := [(39, { program := [dSignal], status := .waiting })] } };
      s.beat.finished = false ∧ s.cur.hallsStopped = false ∧ (s.seq 0 39).status = .waiting ∧
        s.inputsFull 0 ((List.range 40).filter fun x => (s.seq 0 x).status == .waiting && (s.seq 0 x).leader == 0) = true) := by
  unfold At; decide +kernel

/-- An opcode outside the table, and a decode check failed by CLAIM, COUNTER_WAIT and WAIT. -/
theorem witness_DecodeFaults :
    let bad := word (head 0x77)
    let claim := word (head 0x18 ++ [(96, 5), (128, 0xFF)])
    let wait := word (head 0x19 ++ [(72, 32), (128, 0xFF)])
    let flag := word (head 0x29 ++ [(64, 2)])
    At (runs [bad]) 0 0 (first bad).op (first bad) ∧ opcodes.contains (first bad).op = false ∧
    At (runs [claim]) 0 0 0x18 (first claim) ∧ (runs [claim]).claimFault (first claim) = some (flt 0x3604) ∧
    At (runs [wait]) 0 0 0x19 (first wait) ∧ (runs [wait]).counterWaitFault (first wait) = some (flt 0x3604) ∧
    At (runs [flag]) 0 0 0x29 (first flag) ∧ (runs [flag]).flagWaitFault (first flag) = some (flt 0x3604) ∧ classOf 0x3604 = 3 ∧
    (runs [flag]).obj 0x5300 2 ≠ 1 := by
  unfold At; decide +kernel

/-! ### Descriptors that compute and move -/

/-- A check for `Clean` that evaluates. -/
def cleanCheck (s : State) (xs : List (Nat × Nat)) : Bool := xs.all fun x =>
  (wordsOf x.1 x.2).all (fun w => !s.mem.unwritten w && (match s.mem.see w with | .good _ => true | _ => false)) &&
    (!isHbm x.1 || (sectorsOf x.1 x.2).all fun k => (List.range 8).all fun i => (match s.mem.see (8 * k + i) with | .good _ => true | _ => false))

theorem good_of_check {r : WordRead} (h : (match r with | .good _ => true | _ => false) = true) : ∃ d, r = .good d := by
  cases r <;> simp_all

theorem clean_of_check {s : State} {xs : List (Nat × Nat)} (h : cleanCheck s xs = true) : Clean s xs := by
  intro x hx
  have h := (List.all_eq_true.mp h) x hx
  simp only [Bool.and_eq_true, Bool.or_eq_true, Bool.not_eq_true', List.all_eq_true, List.mem_range] at h
  refine ⟨fun w hw => ⟨(h.1 w hw).1, good_of_check (h.1 w hw).2⟩, fun hh k hk i hi => ?_⟩
  rcases h.2 with h2 | h2
  · rw [hh] at h2; cases h2
  · exact good_of_check (h2 k hk i hi)

theorem ok_of_option {ε α : Type} {x : Except ε α} {a : α} (h : x.toOption = some a) : x = .ok a := by
  cases x <;> simp_all [Except.toOption]

/-- The first byte of core 0's buffer in hall 0. -/
def buf : Nat := coreAddr 0 0

/-- An operand word in the core buffer: offset and format code. -/
def opw (off code : Nat) : Nat := off + code * 2 ^ 25

/-- Bytes written to memory. -/
def put (s : State) (a : Nat) (bs : List Byte) : State := { s with mem := s.mem.write a bs }

/-- One VECTOR line of two FP32 elements: MAX over the line. -/
def dVector : Nat := word (head 4 ++ [(64, 0x21), (96, opw 0 0xC), (128, 0x1FFFFFF), (160, opw 0x2000 0xC), (192, 1), (224, 1), (240, 1),
  (256, 2), (272, 0xFF)])

def sVector : State := put (runs [dVector, dSeal 2]) buf (leBytes 4 0xBF800000 ++ leBytes 4 0x40000000)

/-- What the VECTOR of the witness reads. -/
def rVector : List (Nat × Nat) :=
  let c := first dVector
  let x := c.vReads 1 (sVector.space c c.vSrc0 c.slot + c.vSrc0.off) (sVector.space c c.vSrc1 c.slot + c.vSrc1.off)
  x.1 ++ x.2

theorem witness_VectorsComplete : (0x21, Instr.vectorLineMax) ∈ vectorRows ∧ (first dVector).vop = 0x21 ∧
    VectorRuns sVector 0 0 (first dVector) 1 := by
  refine ⟨by simp [vectorRows], by decide +kernel, by unfold At; decide +kernel, by decide +kernel, by decide +kernel, by decide +kernel, ?_⟩
  show _ ∧ _ ∧ Clean sVector rVector
  exact ⟨by decide +kernel, by decide +kernel, clean_of_check (by decide +kernel)⟩

/-- max(-1, 2) = 2, written as FP32 (R136). -/
theorem test_vector_max : (match exec (.vectorLineMax 0 0) sVector with
    | .next t => t.mem.deliverRange (buf + 0x2000) 4 | _ => []) = leBytes 4 0x40000000 := by decide +kernel

/-- ROWSTAT over the last two registers. -/
def dRowstat (op : Nat) : Nat := word (head 5 ++ [(64, op), (80, 4094), (96, 2), (112, 0xFF),
  (128, if op = 1 then 0x1FFFFFF else opw 0 0xE)])
def sRowstat (op : Nat) : State := put (runs [dRowstat op, dSeal 2]) buf (leBytes 16 1 ++ leBytes 16 2)

theorem witness_RowstatCompletes : (∀ op ∈ [1, 2, 3], At (sRowstat op) 0 0 5 (first (dRowstat op)) ∧ (first (dRowstat op)).rsop = op ∧
      (sRowstat op).rowstatFault (first (dRowstat op)) = none ∧
      (sRowstat op).lens (first (dRowstat op)) [((first (dRowstat op)).fld 119 112, (first (dRowstat op)).rsPlan)] = .ok [2]) ∧
    (sRowstat 2).depends (first (dRowstat 2)) [statPlace 0 0] = false ∧ (sRowstat 3).depends (first (dRowstat 3)) [(buf, 32)] = false ∧
    (sRowstat 3).dataFault [(buf, 32)] = none ∧ Clean (sRowstat 3) [(buf, 32)] := by
  refine ⟨by unfold At; decide +kernel, by decide +kernel, by decide +kernel, by decide +kernel, clean_of_check (by decide +kernel)⟩

/-- Wing 0 may use all of hall 0's store and 64 KiB of HBM. -/
def window (s : State) : State := (((s.setObj 0x3000 1 0).setObj 0x3000 2 65536).setObj 0x3010 2 256).setObj 0x3000 5 255

/-- A MOVE of one row from the hall store. -/
def dMove (zero : Bool) (dst len : Nat) : Nat := word (head 8 ++ [(64, if zero then 0 else hallBase), (128, dst), (192, len), (224, 1),
  (240, 0xFF), (249, b2n zero)])
def sMove (zero : Bool) (dst len : Nat) : State := put (window (runs [dMove zero dst len, dSeal 2])) hallBase ((List.range len).map (BitVec.ofNat 8))

theorem moveReads_plain {s : State} {c : Ctx} {rows : Nat} {addrs : List Nat} (hr : (s.moveRows c rows c.mvSrc).toOption = some (addrs, []))
    (hx : c.mvZero = true ∨ (∀ a ∈ addrs, (s.resolveParts c.wing a c.mvLen).isSome) ∧
      s.depends c (addrs.flatMap (moveFromParts s c)) = false ∧
      s.dataFault (addrs.flatMap (moveFromParts s c)) = none ∧
      cleanCheck s (addrs.flatMap (moveFromParts s c)) = true) : MoveReads s c rows addrs := by
  refine ⟨[], ok_of_option hr, rfl, fun x hx => (by cases hx), fun hz => ?_⟩
  rcases hx with h | h
  · rw [h] at hz; cases hz
  · exact ⟨h.1, h.2.1, h.2.2.1, clean_of_check h.2.2.2⟩

/-- To the hall store, zeros to the hall store, and whole sectors to HBM. -/
theorem witness_MovesComplete :
    (let c := first (dMove false (hallBase + 0x8000) 9); let s := sMove false (hallBase + 0x8000) 9;
      MoveRuns s 0 0 c 1 ∧ MoveReads s c 1 [hallBase] ∧ ∀ i, i < 1 → ∀ x ∈ moveTo s c i, usableBytes ≤ x.1) ∧
    (let c := first (dMove true (hallBase + 0x8000) 9); let s := sMove true (hallBase + 0x8000) 9;
      MoveRuns s 0 0 c 1 ∧ MoveReads s c 1 [0] ∧ ∀ i, i < 1 → ∀ x ∈ moveTo s c i, usableBytes ≤ x.1) ∧
    (let c := first (dMove false 128 64); let s := sMove false 128 64;
      MoveRuns s 0 0 c 1 ∧ MoveReads s c 1 [hallBase] ∧
        (∀ i, i < 1 → c.mvDst + i * c.mvDstPitch + c.mvLen ≤ usableBytes ∧ (c.mvDst + i * c.mvDstPitch) % 64 = 0) ∧ c.mvLen % 64 = 0) := by
  refine ⟨⟨by unfold MoveRuns At; decide +kernel, moveReads_plain (by decide +kernel) (by decide +kernel), by decide +kernel⟩,
    ⟨by unfold MoveRuns At; decide +kernel, moveReads_plain (by decide +kernel) (by decide +kernel), by decide +kernel⟩,
    ⟨by unfold MoveRuns At; decide +kernel, moveReads_plain (by decide +kernel) (by decide +kernel), by decide +kernel, by decide +kernel⟩⟩

/-! ### Streams -/

def dOpen : Nat := word (head 0x10 ++ [(64, 254), (72, 3), (96, 0x1000), (128, 64)])
def dEnd (op : Nat) : Nat := word (head op ++ [(64, 254)])
def rSlot (st : Nat) : RSlot := { st := st, tag := 0, len := 64, sender := 0, beat := 0, landed := true, folios := [] }
def rOne : Ring := { isOpen := true, base := 0x1000, slotSize := 64, slots := [rSlot 2, rSlot 1, rSlot 0], head := 0, tail := 2 }
def fOne (tag : Nat) : Fill := { hall := 0, ring := 254, id := 5, slot := 1, tag := tag, lines := [(0, (List.range 64).map (BitVec.ofNat 8))], dropped := false, len := 64, folios := [] }
def sOpen : State := runs [dOpen, dSeal 2]
def sEnd (op : Nat) : State := (runs [dEnd op, dSeal 2]).setRing 0 254 rOne
def sFill (op tag : Nat) : State := onWork (sEnd op) (fun w => { w with fills := [fOne tag] })
def rPeer : Ring := { isOpen := true, inHall := true, base := 0x1000, slotSize := 64, source := 1, peer := 9, credit := 1, slots := [rSlot 0, rSlot 0, rSlot 0], tail := 2 }

theorem witness_StreamsComplete_open :
    (At sOpen 0 0 0x10 (first dOpen) ∧ sOpen.openFault (first dOpen) = none ∧ sOpen.openRoom (first dOpen) = true ∧ sOpen.firstOpen 0 0 = true ∧
      (let s := onWork sOpen fun w => { w with seqs := w.seqs ++ [(1, { program := [dOpen], status := .running, hold := .openRing })], openLosses := [(1, 64)] };
        At s 0 0 0x10 (first dOpen) ∧ s.openFault (first dOpen) = none ∧ s.openRoom (first dOpen) = true ∧ s.firstOpen 0 0 = false)) ∧
    (let s := (List.range 64).foldl (fun s i => s.setRing 0 i { isOpen := true, inHall := true }) sOpen;
      s.openFault (first dOpen) = none ∧ s.openRoom (first dOpen) = false) ∧
    (let s := held sOpen .openRing;
      s.held 0 0 .openRing = some (first dOpen) ∧ s.openRoom (first dOpen) = true ∧ s.firstOpen 0 0 = true ∧ s.openFault (first dOpen) = none) := by
  unfold At; decide +kernel

theorem witness_StreamsComplete_close :
    (At (sEnd 0x11) 0 0 0x11 (first (dEnd 0x11)) ∧ (sEnd 0x11).closeFault (first (dEnd 0x11)) = none ∧ (sEnd 0x11).closeBusy (first (dEnd 0x11)) = false ∧
      (sFill 0x11 0).closeBusy (first (dEnd 0x11)) = true) ∧
    (held (sEnd 0x11) .closeRing).held 0 0 .closeRing = some (first (dEnd 0x11)) ∧
    (At (sEnd 0x12) 0 0 0x12 (first (dEnd 0x12)) ∧ (sEnd 0x12).closeFault (first (dEnd 0x12)) = none ∧ (sEnd 0x12).cancelBusy (first (dEnd 0x12)) = false ∧
      (sFill 0x12 1).cancelBusy (first (dEnd 0x12)) = true) ∧
    (held (sEnd 0x12) .cancelRing).held 0 0 .cancelRing = some (first (dEnd 0x12)) := by
  unfold At; decide +kernel

theorem witness_StreamsComplete_data :
    (let s := sFill 0x11 0;
      (s.fillsOf 0 254).find? (fun x => x.id == 5) = some (fOne 0) ∧ (s.ring 0 254).isOpen = true ∧ (s.ring 0 254).gen = (fOne 0).tag) ∧
    (let r := (State.setRing {} 3 0 rPeer).ring 3 0;
      r.isOpen = true ∧ r.source = 1 ∧ r.closing = false ∧ r.peer = 9 ∧ r.wing = 0 ∧ 0 < r.credit ∧ r.tailEmpty = true ∧ r.slotSize = 64 ∧
        State.knowsCommit {} 9 3 = false ∧ State.knowsCommit { beat := { commits := [(9, 4)] } } 9 3 = true) ∧
    (State.peer { work := { peers := [(peerKey 9 3 0, { credits := 8, granted := true })] } } 9 3 0).granted = true ∧
    (let s := onWork (runs [dSeal 1]) (fun w => { w with lightPath := [(0, 64)] });
      0 < mget 0 s.work.lightPath (slotKey 0 0) ∧ s.held 0 0 .lightPath = none) := by
  decide +kernel

theorem witness_StallFaults :
    let s := onWork ((held (runs [word (head 8)]) .ringSlot).setRing 0 254 { rOne with slots := [rSlot 0, rSlot 0, rSlot 0], stall := 2 })
      (fun w => { w with seqs := w.seqs.map fun e => (e.1, { e.2 with waits := [254] }) })
    2 ≤ (s.ring 0 254).stallCount ∧ (List.range 40).findSome? (s.waitsOn 0 254) = some (first (word (head 8))) := by
  decide +kernel

/-! ### The arrays -/

/-- What a command leads to. -/
def after (c : Instr) (s : State) : State := match exec c s with | .next t => t | _ => s

def bfs (xs : List Nat) : List Byte := xs.flatMap (leBytes 2)

/-- A MATMUL of one row by one column, reduction length k, BF16 to FP32. -/
def dMatmul (k : Nat) : Nat := word (head 1 ++ [(64, opw 0 0xA), (96, opw 0x1000 0xA), (128, opw 0x2000 0xC), (160, 3), (176, 3), (192, 1), (208, 1),
  (224, 1), (240, k), (256, 0xFF), (264, 0xFF)])
def sMatmul (k : Nat) : State := put (put (runs [dMatmul k, dSeal 2]) buf (bfs (0x4000 :: List.replicate (k - 1) 0x3F80))) (buf + 0x1000)
  (bfs (List.replicate k 0x3F80))

/-- A CHAIN with no step, its parameter block all zeros. -/
def dChain : Nat := word (head 2 ++ [(64, opw 0 0xA), (96, opw 0x1000 0xA), (128, opw 0x2000 0xC), (160, 1), (176, 1), (192, 1), (208, 1), (224, 2),
  (240, 0xFF)])
def sChain : State := put (put (runs [dChain, dSeal 2]) buf (bfs [0x3F80, 0x4000, 0, 0])) (buf + 0x1000) (List.replicate 64 0 ++ bfs [0x3F80, 0x3F80, 0, 0])

/-- The one run of a heavy descriptor without adapters. -/
def oneRun : List Run := [Run.mk 0 1 0xFFFF 0 0 0]

theorem witness_HeavyCompletes :
    (At (sMatmul 2) 0 0 1 (first (dMatmul 2)) ∧ HeavyReady (sMatmul 2) (first (dMatmul 2)) [first (dMatmul 2)] 1 2 oneRun [] ∧
      HeavyReads (sMatmul 2) [first (dMatmul 2)] (first (dMatmul 2)) 1 2 [] ∧ (sMatmul 2).coreOf 0 0 = some 0) ∧
    (At sChain 0 0 2 (first dChain) ∧ HeavyReady sChain (first dChain) [first dChain] 1 2 oneRun [] ∧
      HeavyReads sChain [first dChain] (first dChain) 1 2 []) := by
  refine ⟨⟨by unfold At; decide +kernel, ⟨by decide +kernel, by simp, by decide +kernel, by decide +kernel, ⟨[1, 2], by decide +kernel⟩,
    ok_of_option (by decide +kernel), by decide +kernel⟩, by unfold HeavyReads; decide +kernel, by decide +kernel⟩,
    ⟨by unfold At; decide +kernel, ⟨by decide +kernel, by simp, by decide +kernel, by decide +kernel, ⟨[1], by decide +kernel⟩,
    ok_of_option (by decide +kernel), by decide +kernel⟩, by unfold HeavyReads; decide +kernel⟩⟩

def mLoaded (k : Nat) : State := after (.tileLoaded 0 0) (after (.matmul 0 0 false) (sMatmul k))
def mRows (k : Nat) : State := after (.arrayInstruction 0 0 []) (mLoaded k)

/-- Whether the first row on its way out agrees with its check column after an upset, and is its pass's last K tile. -/
def rowAgrees (s : State) (u : Upset) : Option (Bool × Bool) := match (s.engine 0 0).rows with
  | o :: _ => some ((o.compared (upsetSums u o.sums)).all (fun x => x.2.2.ok), o.instr.lastK)
  | _ => none

/-- An array instruction of one row with no operands. -/
def iOne (lastK : Bool) : AInstr :=
  { recId := 0, gid := 0, pos := 0, desc := 0, rank := 0, members := [0], aAddr := 0, block := [], bAddr := 0, dAddr := 0, auxAddr := 0
    row0 := 0, rows := 1, ktile := 0, lastK := lastK, m := 1, k := 1, pass := 0, adapter := 0, aRank := 0, aScale := 0, inverts := false, term := false }

theorem witness_HeavyCompletes_lockstep :
    let s := onWork sChain fun w => { w with seqs := w.seqs.map fun e => (e.1, { e.2 with slips := [(0, .lockstep)] }) }
    s.ready 0 0 = some (first dChain) ∧ (first dChain).op = 0x02 ∧ s.slipAt 0 0 0 = some .lockstep ∧ s.coreOf 0 0 = some 0 := by
  decide +kernel

/-- A row with no columns, on its way out. -/
def rOut (a : AInstr) : OutRow := { instr := a, row := 0, sums := [], aScales := [], bScales := [], checks := [], specials := [], full := [] }
def sRow (lastK : Bool) : State := (runs [dMatmul 2]).setEngine 0 0 { rows := [rOut (iOne lastK)] }

/-- A tile to load; a tile loaded; rows that agree with more K tiles to come and at the last; a row that an upset makes disagree. -/
theorem witness_ArraysComplete_rows :
    (let e := (after (.matmul 0 0 false) (sMatmul 2)).engine 0 0; e.queue.length = 1 ∧ e.shadow = none) ∧
    (let e := (mLoaded 2).engine 0 0; e.queue.length = 1 ∧ e.shadow.isSome) ∧
    rowAgrees (sRow true) .none = some (true, true) ∧ rowAgrees (sRow false) .none = some (true, false) := by
  decide +kernel

theorem witness_ArraysComplete_upset : rowAgrees (mRows 2) (.column 0 0 5 0) = some (false, true) ∧ (mRows 2).coreOf 0 0 = some 0 := by
  decide +kernel

/-- 2.0 · 1.0 + 1.0 · 1.0 = 3.0 in FP32. -/
theorem test_matmul : (after (.resultRowLeaves 0 0 .none) (mRows 2)).mem.deliverRange (buf + 0x2000) 4 = leBytes 4 0x40400000 := by
  decide +kernel

/-- Broadcast words that arrive once each, and one that is lost. -/
theorem witness_ArraysComplete_broadcast :
    (let s := mLoaded 2;
      s.halted 0 0 = false ∧ (s.engine 0 0).shadow.isSome = true ∧ s.coreOf 0 0 = some 0 ∧
        (linkRun (s.mem.linkEnds 64 0) (fun _ => 0) 16 []).2 = [] ∧
        (linkRun (s.mem.linkEnds 64 0) (fun _ => 0) 16 [(0, .flips 1)]).2 = [.corrected] ∧
        ((linkRun (s.mem.linkEnds 64 0) (fun _ => 0) 16 [(0, .lost)]).2.any fun h => match h with | .failed _ => true | _ => false) = true) ∧
    (((after (.matmul 0 0 false) (sMatmul 2)).slipAt 0 0 0 = none) ∧ (sRow true).coreOf 0 0 = some 0 ∧ (sRow true).halted 0 0 = false ∧
      ((sRow true).engine 0 0).shadow = none) := by
  decide +kernel

/-- A CHAIN that sends to the peer ring 5 of hall 3 on device 9. -/
def dPeer : Nat := word (head 2 ++ [(128, opw 0x2000 0xC), (176, 1), (192, 1), (208, 1), (224, 2), (240, 0xFF), (296, 9), (304, 5), (312, 3)])
/-- A row whose pass has an adapter, and its term row. -/
def iWait (term : Bool) : AInstr := { iOne true with desc := dPeer, adapter := buf + 0x8000, aRank := 1, term := term }

theorem witness_ArraysComplete_adapter :
    ((memberCols (iWait false).desc 0).2 ≠ 0 ∧ (rOut (iWait false)).compared (rOut (iWait false)).sums = []) ∧
    (let s := (runs [dPeer]).setEngine 0 0 { rows := [rOut (iWait true)], waits := [⟨iWait false, 0, [.one]⟩] };
      (s.engine 0 0).rows = [rOut (iWait true)] ∧ ((s.engine 0 0).waits.find? fun x => x.instr.gid == 0 && x.instr.pass == 0 && x.row == 0) = some ⟨iWait false, 0, [.one]⟩) ∧
    (let s := put ((runs [dPeer]).setEngine 0 0 { waits := [⟨iWait false, 0, [.one]⟩], uRows := [⟨0, 0, 0, Fmt.bf16.code, [.one], []⟩] }) (buf + 0x8000) (List.replicate 64 0);
      s.halted 0 0 = false ∧ (s.engine 0 0).termDue = some ⟨iWait false, 0, [.one]⟩ ∧ (s.uRow 0 (iWait false) 0 0).isSome = true ∧
        s.dataFault [(adapterLine (buf + 0x8000) .int8 false 1 0, 1)] = none) := by
  decide +kernel

theorem witness_ArraysComplete_waits :
    (let s := (runs [dSeal 1]).setEngine 0 0 { partials := [⟨0, 4095, 0, .one⟩] };
      (s.engine 0 0).partials = [⟨0, 4095, 0, .one⟩] ∧ (s.groupSlots 0 0).headD 0 = 0 ∧
      (s.setEngine 0 0 { partials := [] }).partialNext 0 0 ⟨0, 4095, 0, .one⟩ = true ∧ ((s.setEngine 0 0 { partials := [] }).engine 0 0).region = []) ∧
    (let p : PeerPass := ⟨0, dPeer, 0, 0, 1, [(0, leBytes 4 7)], true⟩;
      let s := ((runs [dPeer]).setEngine 0 0 { peers := [p] }).setPeer 9 3 5 { credits := 1, granted := true, slotSize := 4 };
      (s.engine 0 0).peers = [p] ∧ bitOf p.desc 49 = false ∧ (memberCols p.desc 0).2 ≠ 0 ∧ p.full = true ∧ hasStep p.desc .T = false ∧
      (s.peer 9 3 5).credits ≠ 0 ∧ (p.segs.foldl (fun b g => overlay b g.1 g.2)
        (List.replicate (linesExtent p.rows (heavyDPitch p.desc) (lineBytes (hD p.desc).fmt (hD p.desc).scaled (outN p.desc))) 0#8)).length ≤ (s.peer 9 3 5).slotSize) := by
  decide +kernel

/-! ### Attention, ring consumers, folios -/

/-- A job of one sequence in wing 0, its tables in HBM. -/
def jOne : Job := { image := 0, record := 0, sequences := 1, chunks := 1, beatCount := 1, adapters := 0, layers := 1, manifest := 0, seqTable := 0x4000
                    segDir := 0x1000, adapterTable := 0, layerTable := 0x3000, recordArea := 0, recordCap := 0, start := 0, written := 0, step := 0, chunk := 0
                    lengths := [], rows := 1, opened := true }

/-- Folio 0 of wing 0 holds the 16 positions of the sequence in E4M3, with one loan. -/
def tables (s : State) : State :=
  let s := { s with wings := [(0, { job := some jOne })]
                    folio := { now := { sides := [(0, { format := 4, loans := 1, keys := 16, values := 16, tokens := 16 })] } } }
  let s := (s.setObj 0x7100 1 0x100000).setObj 0x7100 2 4
  let s := put (put (put s 0x1000 (leBytes 8 0x2000)) 0x2000 (leBytes 4 0x10000)) 0x3000 (leBytes 8 0xA00000000)
  put (put s 0x4000 (leBytes 8 1 ++ leBytes 8 0x5000)) 0x5000 (leBytes 8 (0x6000 + 2 ^ 48) ++ leBytes 8 (1 + 2 ^ 32))

/-- ATTEND of one BF16 row of 64 elements to FP32. -/
def dAttend : Nat := word (head 3 ++ [(64, opw 0 0xA), (96, opw 0x1000 0xC), (128, 0x1FFFFFF), (160, 2), (176, 4), (192, 1), (208, 0xFF), (216, 0xFF), (224, 1),
  (256, 0x3F800000), (306, 1), (308, 4), (312, 0xFF)])
def cAttend : Ctx := first dAttend
def sAttend : State := put (tables (runs [dAttend, dSeal 2])) buf (List.replicate 128 0)
def aRows : List ARow := [{ idx := 0, seq := 0, pos := 0, lo := 0, hi := 0, globals := [] }]
def aOuts : List AttOut := (sAttend.iters cAttend).filterMap fun i => (sAttend.attendIter cAttend jOne aRows i (.tables (cAttend.atHead + adv2 i))).toOption
def aXs : List (Nat × Nat) := (sAttend.iters cAttend).flatMap (sAttend.attendReads cAttend 1)
def aReads : List (Nat × Nat) := sAttend.segReads jOne ++ [(jOne.layerTable + 16 * cAttend.atLayer, 16)] ++
  ((aRows.map ARow.seq).eraseDups).flatMap (fun q => sAttend.dirReads jOne q cAttend.atLayer) ++
  ((((sAttend.iters cAttend).map (fun i => cAttend.atHead + adv2 i)).eraseDups).flatMap (sAttend.attendTables cAttend jOne aRows)) ++
  globalReads ((sAttend.segs jOne).filter (fun g => decide (g.first < 1)))

theorem witness_Attend_ready : At sAttend 0 0 3 cAttend ∧ sAttend.attendFault cAttend = none ∧
    sAttend.lens cAttend [(cAttend.fld 215 208, cAttend.atM), (cAttend.fld 223 216, cAttend.atKeys)] = .ok [1, 1] ∧ sAttend.jobOf cAttend = some jOne ∧
    (sAttend.attendRows cAttend jOne 1 1).toOption = some aRows ∧ cAttend.atRing = 0xFF ∧ sAttend.depends cAttend aXs = false ∧ sAttend.dataFault aXs = none ∧
    (∀ i ∈ sAttend.iters cAttend, sAttend.attendDirs cAttend jOne aRows (cAttend.atHead + adv2 i) = none) := by
  unfold At; decide +kernel

theorem witness_Attend_runs : (sAttend.iters cAttend).map (fun i => sAttend.attendIter cAttend jOne aRows i (.tables (cAttend.atHead + adv2 i))) = aOuts.map Except.ok ∧
    sAttend.readFault aReads = none ∧ sAttend.dataFault (aOuts.flatMap fun o => o.acc.reads) = none ∧ Clean sAttend (aReads ++ aXs ++ aOuts.flatMap fun o => o.acc.reads) ∧
    (∀ l ∈ aOuts.flatMap AttOut.lines, usableBytes ≤ l.1) ∧ (aOuts.flatMap AttOut.lines).length = 1 := by
  have hi : sAttend.iters cAttend = [(0, 0, 0)] := by decide +kernel
  have ho : (sAttend.attendIter cAttend jOne aRows (0, 0, 0) (.tables (cAttend.atHead + adv2 (0, 0, 0)))).toOption.isSome = true := by decide +kernel
  refine ⟨?_, by decide +kernel, by decide +kernel, clean_of_check (by decide +kernel), by decide +kernel, by decide +kernel⟩
  unfold aOuts
  rw [hi]
  cases h : sAttend.attendIter cAttend jOne aRows (0, 0, 0) (.tables (cAttend.atHead + adv2 (0, 0, 0))) with
  | error e => rw [h] at ho; cases ho
  | ok o => simp [h, Except.toOption]

def dPhase : Nat := word (head 0x2C ++ [(64, 15)])

/-- A VECTOR held at a ring whose head slot is full, and PHASE. -/
theorem witness_ConsumerAndPhase :
    (let s := held ((runs [dVector, dSeal 2]).setRing 0 254 { rOne with base := 0 }) .ringSlot;
      s.held 0 0 .ringSlot = some (first dVector) ∧ (first dVector).op = 4 ∧ s.vRings (first dVector) = (some (some 254), some none) ∧
      s.lens (first dVector) [((first dVector).fld 279 272, (first dVector).vRows)] = .ok [1] ∧ (s.ring 0 254).headFull = true) ∧
    (At (runs [dPhase]) 0 0 0x2C (first dPhase) ∧ (runs [dPhase]).headerFault (first dPhase) [(68, 511)] [] false false = none ∧ (first dPhase).version = 3) := by
  unfold At; decide +kernel

theorem witness_Consumer_reads :
    let s := put (held ((runs [dVector, dSeal 2]).setRing 0 254 { rOne with base := 0 }) .ringSlot) buf (leBytes 8 0)
    let x := (first dVector).vReads 1 (s.ringSlotAddr 0 (s.ring 0 254) (s.ring 0 254).head) (s.space (first dVector) (first dVector).vSrc1 0 + (first dVector).vSrc1.off)
    s.dataFault (x.1 ++ x.2) = none := by decide +kernel

def dCopy : Nat := word (head 0x0A ++ [(48, 1), (64, 0)])
def dLoan (op : Nat) : Nat := word (head 0x0B ++ [(64, 0), (96, op)])
def dGather : Nat := word (head 9 ++ [(128, 1), (160, 0xFF), (176, 254)])
def sGather : State := (tables (runs [dGather, dSeal 2])).setRing 0 254
  { isOpen := true, inHall := true, slotSize := 4096, slots := [rSlot 0, rSlot 0, rSlot 2], tail := 1 }
/-- The checks of one FOLIO_LOAN wait. -/
def sLoan (op : Nat) : State := let s := tables {}; { s with folio := { s.folio with ops := [⟨0, 0, 0, 0, 0, dLoan op⟩] } }

theorem witness_FoliosComplete_copy :
    (let s := tables (runs [dCopy, dSeal 2]);
      At s 0 0 0x0A (first dCopy) ∧ s.headerFault (first dCopy) [(162, 511)] [] false false = none ∧ (first dCopy).complete = true ∧
      (s.copySource (first dCopy)).toOption = some (0, none, []) ∧ s.folioBad 0 0 = false ∧ s.readFault ([] ++ s.sideRead 0) = none ∧ s.dataFault (s.folioRead 0) = none) := by
  unfold At; decide +kernel

theorem witness_FoliosComplete_loan :
    (∀ op ∈ [1, 2], let s := tables (runs [dLoan op, dSeal 2]);
      At s 0 0 0x0B (first (dLoan op)) ∧ (first (dLoan op)).flOp = op ∧ (first (dLoan op)).flFolio ≠ noFolio ∧ (first (dLoan op)).fld 223 112 = 0 ∧
      s.headerFault (first (dLoan op)) [(104, 111), (144, 159), (224, 511)] [] false false = none ∧
      ((s.loanEntries (first (dLoan op))).toOption.map fun x => (x.1.map LoanEntry.folio, x.2)) = some ([0], []) ∧ s.folioBad 0 0 = false ∧ s.readFault (s.sideRead 0) = none) := by
  unfold At; decide +kernel

theorem witness_FoliosComplete_checks :
    (∀ op ∈ [1, 2], (sLoan op).programsDone = true ∧ (sLoan op).folio.settled = false ∧ (sLoan op).folio.changes = [] ∧ (sLoan op).gatherChanges = [] ∧ (first (dLoan op)).op = 0x0B ∧ (first (dLoan op)).flOp = op ∧
      ((sLoan op).side 0).loans = 1) := by
  decide +kernel

/-- A copy of folio 0, without RELEASE_SRC, that waits to be settled. -/
def sCopyDue : State := let s := tables {}
  { s with folio := { s.folio with ops := [⟨0, 0, 0, 0, 0, dCopy⟩], now := { s.folio.now with full := [(0, { fresh := 1, inUse := 1 })] } } }

theorem witness_FoliosComplete_copied : sCopyDue.programsDone = true ∧ sCopyDue.folio.settled = false ∧ sCopyDue.folio.changes = [] ∧
    sCopyDue.gatherChanges = [] ∧ (first dCopy).op = 0x0A ∧ (sCopyDue.copySource (first dCopy)).toOption = some (0, none, []) ∧
    (sCopyDue.side 0).loans ≠ 0 ∧ ((sCopyDue.copyFolio (first dCopy) 0 (sCopyDue.copyTable (first dCopy))).map Prod.fst) = some 1 ∧
    (first dCopy).fcRelease = false := by
  decide +kernel

theorem witness_FoliosComplete_gather :
    (At sGather 0 0 9 (first dGather) ∧ sGather.gatherFault (first dGather) = none ∧ sGather.lens (first dGather) [((first dGather).fld 167 160, (first dGather).fgPlan)] = .ok [1] ∧
      ((sGather.gatherList (first dGather) 1).toOption.map Prod.fst) = some [0] ∧ (first dGather).gatherSlots (sGather.ring 0 254).slotSize [0] = [[0]] ∧
      (sGather.ring 0 254).tailEmpty = true) := by
  unfold At; decide +kernel

theorem witness_Folios_reads : ∃ reads, sGather.gatherList (first dGather) 1 = .ok ([0], reads) ∧
    sGather.readFault (reads ++ [0].flatMap sGather.sideRead) = none ∧ sGather.dataFault ([0].map fun f => (sGather.folioAddr f, folioBytes f)) = none := by
  refine ⟨_, ok_of_option (a := ([0], sGather.dirReads jOne 0 0 ++ [(0x6000, 4)])) (by decide +kernel), by decide +kernel, by decide +kernel⟩

/-! ### Collectives -/

/-- A group of halls 0 and 1 of this package, and one of this package and device 9. -/
def gHalls : Group := { wing := 0, members := [0, 64], digest := 5, depth := 2, conc := 1, seqs := [], broken := none }
def gPair : Group := { wing := 0, members := [0, 9], digest := 5, depth := 2, conc := 1, seqs := [], broken := none }
def grouped (s : State) (g : Group) : State := { s with coll := { s.coll with groups := [(3, some g)] } }
def onRuns (s : State) (rs : List CollRun) (ls : List Launch) : State := { s with coll := { s.coll with runs := rs, launches := ls } }

def dBarrier : Nat := word (head 0x20 ++ [(64, 3), (80, 5), (112, 0xFF), (256, 1)])
def sBarrier : State := grouped (runs [dBarrier, dSeal 2]) gHalls

theorem witness_CollectivesLaunch : (5, Instr.barrier) ∈ collectRows ∧ (first dBarrier).csCop = 5 ∧ Launches sBarrier 0 0 (first dBarrier) gHalls 0 1 := by
  have h : (first dBarrier).fld 119 112 = 0xFF ∧ (first dBarrier).csPlan = 1 := by decide +kernel
  refine ⟨by simp [collectRows], by decide +kernel, by unfold At; decide +kernel, by decide +kernel, ?_, by decide +kernel, by decide +kernel, by decide +kernel,
    by decide +kernel, by decide +kernel, by decide +kernel, by unfold Agree; decide +kernel⟩
  rw [h.1, h.2]; rfl

def dWait : Nat := word (head 0x21 ++ [(64, 3)])
/-- The launch of slot 1 that the wait of slot 0 names. -/
def lOne : Launch := launchOf gHalls { first dBarrier with slot := 1 } 0 1
def lDone : Launch := { lOne with committed := true }
def idOne : List Byte := leBytes 2 3 ++ leBytes 8 5 ++ leBytes 1 5 ++ leBytes 3 0 ++ leBytes 4 1 ++ leBytes 4 0 ++ leBytes 2 0 ++ leBytes 4 0 ++ leBytes 4 0
/-- Both members' frames are in. -/
def runDone : CollRun := { group := 3, seq := 0, frames := [(0, idOne, false), (1, idOne, false)] }
def sWaiting (rs : List CollRun) (l : Launch) : State := onRuns (grouped (runs [dWait, dSeal 2]) gHalls) rs [l]

/-- A wait whose launch is complete, one that is not, and a held one. -/
theorem witness_CollectivesGoOn_wait :
    (At (sWaiting [runDone] lDone) 0 0 0x21 (first dWait) ∧ (sWaiting [runDone] lDone).headerFault (first dWait) [(88, 511)] [] false false = none ∧
      (sWaiting [runDone] lDone).group 3 = some gHalls ∧ (first dWait).csGroup = 3 ∧ (gHalls.rankOf 0 0).isSome ∧ (sWaiting [runDone] lDone).device = 0 ∧
      (sWaiting [runDone] lDone).waitLaunch (first dWait) = some lDone ∧ ((sWaiting [runDone] lDone).runOf 3 0).aborted = none ∧
      (sWaiting [runDone] lDone).launchDone gHalls lDone = true) ∧
    ((sWaiting [] lOne).waitLaunch (first dWait) = some lOne ∧ lOne.slot ≠ (first dWait).slot ∧ (sWaiting [] lOne).launchDone gHalls lOne = false) ∧
    (held (sWaiting [runDone] lDone) .collect).held 0 0 .collect = some (first dWait) := by
  unfold At; decide +kernel

def frameOf (id : List Byte) (rank : Nat) : List Byte := id ++ leBytes 8 0 ++ leBytes 2 rank ++ leBytes 14 0
/-- A second member's identity with another root. -/
def idOther : List Byte := leBytes 2 3 ++ leBytes 8 5 ++ leBytes 1 5 ++ leBytes 3 0 ++ leBytes 4 1 ++ leBytes 4 0 ++ leBytes 2 7 ++ leBytes 4 0 ++ leBytes 4 0
def sFrames : State := onRuns (grouped (runs [dSeal 1]) gHalls) [{ group := 3, seq := 0, frames := [(0, idOne, false)] }] [lOne]


/-- A piece of two BF16 elements from device 9's member to rank 0. -/
def pieceIn (level : Nat) : List Byte := leBytes 2 3 ++ leBytes 1 2 ++ leBytes 1 0xAA ++ leBytes 1 level ++ leBytes 3 0 ++ leBytes 4 0 ++ leBytes 8 0 ++ leBytes 4 0 ++ leBytes 4 2 ++
  leBytes 2 1 ++ leBytes 2 0xFFFF ++ leBytes 6 0 ++ leBytes 22 0 ++ leBytes 4 0x3F803F80
def sPair : State := grouped (runs [dSeal 1]) gPair
/-- A launch that reduces along the chains and waits for slots. -/
def runChain : CollRun := { group := 3, seq := 0, frames := [(0, leBytes 10 0 ++ leBytes 1 4 ++ leBytes 21 0, false)], waited := 64 }

/-- A reducing piece of row 0 that reaches (1, 0), a relay between members on (0, 0) and (2, 0), in beat 0. -/
def pieceUp : List Byte := leBytes 2 3 ++ leBytes 1 4 ++ leBytes 1 0xAA ++ leBytes 1 1 ++ leBytes 3 0 ++ leBytes 4 0 ++ leBytes 8 0 ++ leBytes 4 0 ++ leBytes 4 2 ++
  leBytes 2 0xFFFF ++ leBytes 2 0xFFFF ++ leBytes 6 0 ++ leBytes 22 0 ++ leBytes 4 0x3F803F80
def gRelay : Group := { wing := 0, members := [0, 16], digest := 5, depth := 2, conc := 1, seqs := [], broken := none }
def idRelay : List Byte := leBytes 10 0 ++ [4, 0x0A, 0, 0] ++ leBytes 4 2 ++ leBytes 14 0
def sRelay : State := { onRuns (grouped ((runs [dSeal 1]).setObj 0x1000 7 8) gRelay)
  [{ group := 3, seq := 0, slots := true, frames := [(0, idRelay, false), (1, idRelay, false)] }] [] with beat := { committed := false } }

/-- The relay sends the piece on to (2, 0) (R441). -/
theorem test_relay_forwards :
    (match exec (.collectivePiece 0 0 pieceUp false) sRelay with
      | .next t => t.out.any fun o => match o with
        | .packet 16 0 2 3 b => (PieceHead.of b).level == 1
        | _ => false
      | _ => false) = true := by decide +kernel

theorem witness_PiecesAndTimeouts :
    (let h := PieceHead.of (pieceIn 0);
      sPair.group h.group = some gPair ∧ (sPair.runOf h.group h.seq).aborted = none ∧ gPair.path.contains sPair.device = true ∧ h.back = false ∧ h.narrowed = false ∧
      gPair.devices.contains sPair.device = true ∧ ((sPair.runOf h.group h.seq).frames.any fun f => (gPair.ranksOn sPair.device).contains f.1) = false) ∧
    (let h := PieceHead.of pieceUp; let r := sRelay.runOf h.group h.seq; let id := sRelay.runIdentity r gRelay;
      sRelay.group h.group = some gRelay ∧ r.aborted = none ∧ gRelay.path.contains sRelay.device = true ∧ gRelay.ranksOn sRelay.device = [] ∧
      gRelay.devices.contains sRelay.device = false ∧ h.origin = 0xFFFF ∧ h.back = false ∧ h.level = 1 ∧ h.beat = sRelay.beat.doing ∧ sRelay.mayForm = true ∧
      r.slots = true ∧ r.framesAll gRelay = true ∧ chained (idCop id) = true ∧ sRelay.launchesOf h.group h.seq = [] ∧
      h.index < pieceCountOf (idDtype id) r.count ∧ sRelay.partialIn r 1 h.index = none ∧ (r.made.all fun m => m.1 != stageRow || m.2.1 != h.index) = true ∧
      1 < gRelay.devices.length ∧ gRelay.rows.contains (devY sRelay.device) = true ∧ devX sRelay.device < gRelay.xLast) ∧
    (let s := onRuns sPair [runChain] [];
      s.run 3 0 = some runChain ∧ runChain ∈ s.chainRuns 3 ∧ runChain.slots = false ∧ (∀ x ∈ s.chainRuns 3, x.seq < 0 → x.slots = true) ∧
      ((s.chainRuns 3).filter fun x => x.slots && !s.runOver gPair x).length < gPair.conc ∧ runChain.waits gPair s.device = true ∧ s.obj 0x9000 3 ≤ runChain.waited) := by
  decide +kernel

/-- A frame that agrees, one that differs in ROOT, courier data, and an abort. -/
theorem witness_CollectivesGoOn_frames :
    sFrames.group 3 = some gHalls ∧ leAt (slice (frameOf idOne 1) 0 32) 0 2 = 3 ∧ leAt (frameOf idOne 1) 40 2 < gHalls.members.length ∧
      gHalls.devices.contains sFrames.device = true ∧ Agree (withFrame (sFrames.runOf 3 0) 1 idOne false) ∧
      (sFrames.runOf 3 (leAt (slice (frameOf idOne 1) 0 32) 24 4)).aborted = none ∧
      CollRun.mismatch { sFrames.runOf 3 0 with frames := withFrame (sFrames.runOf 3 0) 1 idOther false } = some (1, 5) ∧
      (let p := leBytes 2 3 ++ leBytes 4 0 ++ leBytes 50 0; leAt p 0 2 = 3 ∧ leAt p 2 4 = 0 ∧ gHalls.devices.contains 0 = true) ∧
      sFrames.launchesOf 3 0 = [lOne] := by
  unfold Agree; decide +kernel

/-! ### The beat -/

/-- A package in the beat, its work of beat 1 done and committed. -/
def sBeat (f : BeatUnit → BeatUnit) : State := { beat := f { synced := true, committed := true, doing := 1 } }

theorem witness_BoundariesAndMarkers_boundary :
    (let s := sBeat (fun b => { b with action := some false, doing := 0, nextBeat := 0 });
      s.boundaryFalls = true ∧ s.beat.nextBeat < 2 ^ 48 ∧ ¬(s.beat.committed = true ∧ s.beat.doing ≠ s.beat.nextBeat) ∧ ∀ w, w < 16 → (s.wing w).job = none) ∧
    (let s := sBeat (fun b => { b with action := some true, nextBeat := 2 ^ 48 - 1 });
      s.boundaryFalls = true ∧ s.beat.action = some true ∧ s.beat.nextBeat < 2 ^ 48 ∧ s.beat.committed = true ∧ s.beat.doing ≠ s.beat.nextBeat ∧
        s.beat.doing ≠ (s.beat.nextBeat + 1) % 2 ^ 48 ∧ ∀ w, w < 16 → (s.wing w).job = none) ∧
    (∀ a ∈ [none, some false], let s := sBeat (fun b => { b with action := a, committed := false });
      s.boundaryFalls = true ∧ (s.beat.action = none ∨ s.beat.action = some false ∧ s.beat.nextBeat = s.beatNo) ∧
        ¬(s.beat.committed = true ∧ s.beat.doing ≠ s.beatNo ∧ s.beat.doing ≠ (s.beatNo + 1) % 2 ^ 48)) ∧
    State.boundaryFalls {} = false := by
  decide +kernel

theorem no_jobEnds {s : State} (h : ∀ w, w < 16 → (s.wing w).job = none) (n : Nat) : ¬JobEnds s n := by
  rintro ⟨w, hw, j, hj, -⟩; rw [h w hw] at hj; cases hj

/-- START_STATE at both ends of the range, members and master without markers, BEAT_IN with an edge out of 1% and with none. -/
theorem witness_BoundariesAndMarkers_markers :
    (let s := withObj {} 0xA000 1 3; 3 ≤ s.obj 0xA000 1 ∧ s.obj 0xA000 1 ≠ 0x0F ∧ s.obj 0x5000 8 = 0) ∧
    (let s := withObj (sBeat id) 0x6000 4 9; s.beat.synced = true ∧ s.isMaster = false) ∧
    (let s := sBeat (fun b => { b with missed := 2 }); s.beat.synced = true ∧ 2 ≤ s.beat.missed) ∧
    (let s := withObj (sBeat id) 0xA000 1 3; ¬(s.beat.synced = true ∧ false = true ∧ 0 = s.beatNo)) ∧
    (let s := withObj {} 0xA000 1 3; s.obj 0xA000 1 = 3 ∧ s.obj 0x5000 8 = 0) ∧
    (∀ trips ∈ [[], List.replicate 15 201], let s := withObj (sBeat (fun b => { b with trips := [(9, trips)], latencies := [(9, 65426)] })) 0x6000 4 9;
      mget [] s.beat.trips 9 = trips ∧ s.isMaster = false ∧ s.obj 0x6000 4 % 64 = 9) ∧
    (let s := withObj (sBeat id) 0x6000 3 1;
      s.beatInUsed = true ∧ s.obj 0x6000 2 * 250 < 100 * (81 : Int).natAbs ∧ 100 * (80 : Int).natAbs ≤ s.obj 0x6000 2 * 250 ∧ s.beat.beatInDue = false) := by
  decide +kernel

/-- Half of the mean of 16 round trips, 150 ns, and the 100 ns guard (R74); a member takes the lead that the master holds. -/
theorem test_lead : (after (.timingFrame 9 ⟨285, 0⟩) (sBeat fun b => { b with trips := [(9, List.replicate 15 301)] })).obj 0x6000 5 = 250 ∧
    (after (.timingFrame 9 ⟨200, 777⟩) (withObj (sBeat id) 0x6000 4 9)).obj 0x6000 5 = 777 := by
  decide +kernel

theorem witness_ReadyAndDecision_ready :
    (let s := sBeat id; s.isMaster = true ∧ s.beat.ready.contains 0 = false ∧ s.beat.readySent = false ∧ InBeat s) ∧
    (let s := sBeat (fun b => { b with committed := false, doing := 0 });
      InBeat s ∧ s.beat.committed = false ∧ s.workDone = true ∧ s.beat.checks = [] ∧ NoBeatEntries s ∧ s.beat.doing = s.beatNo ∧ s.curatorAway = false ∧ s.beat.missed = 0 ∧ s.beat.readySent = false) ∧
    (let s := sBeat (fun b => { b with committed := false, doing := 0 }); s.canReady = false ∧ s.beat.readySent = false) := by
  unfold InBeat NoBeatEntries; decide +kernel

/-- A master with every member ready, one with a member late, and a wing unfinished at OVERRUN_LIMIT. -/
theorem witness_ReadyAndDecision_master :
    (let s := sBeat (fun b => { b with ready := [0, 1, 2, 3, 8, 9, 10, 11, 16, 17, 18, 19, 24, 25, 26, 27] }); s.isMaster = true ∧ s.beat.action = none ∧ (∀ d ∈ s.members, d ∈ s.beat.ready)) ∧
    (let s := sBeat id; s.isMaster = true ∧ s.beat.action = none ∧ (∃ d ∈ s.members, d ∉ s.beat.ready)) ∧
    (let s := { runs [dSeal 1] with beat := { overrun := 64 } }; s.obj 0x6000 0xD ≤ s.beat.overrun ∧ (s.wing 0).fatal = none ∧ s.wingUnfinished 0 = true) := by
  decide +kernel

/-- A beat that commits, one with a failed check at its fourth failure, one whose work is not done. -/
theorem witness_SealVerdict :
    (let s := sBeat (fun b => { b with committed := false }); UnderWay s ∧ NoBeatEntries s ∧ s.beat.checks = [] ∧ s.workDone = true ∧ s.settleLoans.beat.checks = []) ∧
    (let s := sBeat (fun b => { b with committed := false, checks := [.column], fails := 3 }); UnderWay s ∧ NoBeatEntries s ∧ s.beat.checks ≠ []) ∧
    (let s := { runs [dSeal 1] with beat := { synced := true, committed := false } }; UnderWay s ∧ NoBeatEntries s ∧ s.beat.finished = false ∧ s.workDone = false) := by
  unfold UnderWay InBeat NoBeatEntries; decide +kernel

/-- A slot of a peer ring that holds device 9's data of beat 4. -/
def xSent : RSlot := { rSlot 1 with sender := 9, beat := 4 }
def sSent : State := State.setRing {} 3 0 { rPeer with slots := [xSent, rSlot 0, rSlot 0], tail := 1 }

theorem witness_TokensAndSparing :
    ((sSent.ring 3 0).source = 1 ∧ (sSent.ring 3 0).closing = false ∧ (sSent.work.rings.map Prod.fst).Nodup ∧ (sSent.ring 3 0).slots[0]? = some xSent ∧ xSent.landed = true ∧ xSent.ok = false ∧ xSent.sender = 9 ∧ xSent.beat = 4 ∧ xSent.st = 1 ∧
      sSent.coll.launches = []) ∧
    (let s : State := { beat := { synced := true, committed := false, dead := true }, cur := { sparing := [⟨0, 0, 0, 0xFF⟩] } };
      s.cur.sparing ≠ [] ∧ s.beat.committed = false ∧ s.beat.dead = true ∧ s.curatorAway = false ∧ s.obj 0x5300 2 ≠ 1 ∧ s.obj 0x5000 8 = 0) := by
  decide +kernel

/-! ### The Catalogue -/

/-- A package past START_STATE 1 whose signer's session is open through the physical-function window. -/
def xSigner : Session := { id := 5, slot := 1, role := 3, window := true, lastSeq := 0, txSeq := 0, stored := [], key := [], mask := 0, noteSeq := 0, spdm := {} }
def sUp : State := withObj { server := { sessions := [xSigner] } } 0xA000 1 3

/-- The physical function's window holds a request (R42): operation, accession, subindex, flags from bit 48, data. -/
def asked (s : State) (op acc sub flags : Nat) (data : List Byte) : State :=
  s.setWindow 0 { req := word [(0, op), (8, sub), (16, acc), (32, data.length), (48, flags)], busy := true, buffer := data.zipIdx.map fun e => (e.2, e.1) }

/-- A one-byte write. -/
def wrote (s : State) (acc sub v : Nat) : State := asked s 2 acc sub 0 (leBytes 1 v)

def asks (src : Src) (s : State) (row : Row) (p : Ask → State → Bool) : Bool := match s.take src with
  | .request a u => decide (a.row = row) && decide (a.target = none) && p a u
  | _ => false

def writes (src : Src) (s : State) (row : Row) (p : Ask → State → Nat → Bool) : Bool := asks src s row fun a u => match u.writeCheck a.caller a.req.acc a.req.sub a.req.data with
  | .ok v => p a u v
  | _ => false

theorem asks_holds {src : Src} {s : State} {row : Row} {p : Ask → State → Bool} (h : asks src s row p = true) :
    ∃ a u, Asks s src row a u ∧ p a u = true := by
  simp only [asks] at h
  split at h
  case h_1 a u e => simp only [Bool.and_eq_true, decide_eq_true_eq] at h; exact ⟨a, u, ⟨e, h.1.1, h.1.2⟩, h.2⟩
  case h_2 => cases h

theorem writes_holds {src : Src} {s : State} {row : Row} {p : Ask → State → Nat → Bool} (h : writes src s row p = true) :
    ∃ a u v, Writes s src row a u v ∧ p a u v = true := by
  obtain ⟨a, u, h, g⟩ := asks_holds h
  split at g
  case h_1 v e => exact ⟨a, u, v, ⟨h, e⟩, g⟩
  case h_2 => cases g

/-- The object may be read. -/
def reads (a : Ask) (p : Obj → Bool) : Bool := match a.caller.look a.req.acc a.req.sub with
  | .ok o => p o
  | .error _ => false

/-- READ of an object and of none, DESCRIBE, SNAPSHOT, READ_BLOCK and SESSION_CLOSE. -/
theorem witness_ReadsAnswered :
    (∃ a u, Asks (asked sUp 1 0x1000 1 0 []) (.window 0) .read a u ∧
      (a.req.op == 1 && reads a (fun o => !o.hidden)) = true) ∧
    (∃ a u, Asks (asked sUp 1 1 1 0 []) (.window 0) .read a u ∧
      (a.req.op == 1 && !reads a (fun _ => true)) = true) ∧
    (∃ a u, Asks (asked sUp 1 0x1000 1 0x80 []) (.window 0) .describe a u ∧ reads a (fun _ => true) = true) ∧
    (∃ a u, Asks (asked sUp 1 0xC180 0 0x100 []) (.window 0) .snapshot a u ∧ reads a (fun _ => true) = true) ∧
    (∃ a u, Asks (asked sUp 3 0x910F 3 0 []) (.window 0) .readBlock a u ∧ reads a (fun o => o.ty == 0x0D && !o.hidden) = true) ∧
    (∃ a u, Asks (asked sUp 1 0x1022 2 0 []) (.window 0) .sessionClose a u ∧
      (reads a (fun o => !o.hidden) && u.sessionOf a.caller == some 5) = true) :=
  ⟨asks_holds (by decide +kernel), asks_holds (by decide +kernel), asks_holds (by decide +kernel), asks_holds (by decide +kernel),
    asks_holds (by decide +kernel), asks_holds (by decide +kernel)⟩

/-- The anchor, asked for device 27, the last of its torus. -/
def sFar : State := asked (withObj sUp 0x1000 8 1) 1 0x1000 1 (0x40 + 27) []
/-- A request under way, or before it in the order of the beat, lets another wait. -/
theorem witness_ReadsAnswered_turn :
    (let s := asked { sUp with server := { sUp.server with forwards := [(0, 27)] } } 1 0x1000 1 0 []; s.paused = false ∧ s.turn (s.windowOrder 0) = false) ∧
    (let s := asked { sUp with host := { vfEnable := true, numVfs := 16 } } 1 0x1000 1 0 []; s.paused = false ∧ s.turn (s.windowOrder 0) = true ∧
      s.turn (s.windowOrder 1) = false) := by
  decide +kernel

theorem witness_ReadsAnswered_far : ∃ a u, sFar.take (.window 0) = .request a u ∧ (a.row = .read ∧ a.target = some 27) := by
  refine ⟨_, _, rfl, ?_⟩; decide +kernel

/-- The key of an operator in slot 8, and a signature of the last message of phase 3 under it. -/
def opKey : List Byte := beBytes 32 0x1255a6968bcbe278cab73ef036efd80f9edc5ddb0270ff98015c7856f8de5105 ++
  beBytes 32 0x3bd9c5adbbe4068a88e0555104aa79762c0ce444f3ef74e64fd0799da4ff4cc3
def opSig : List Byte := beBytes 32 0x7cf27b188d034f7e8a52380304b51ac3c08969e277f21b35a60b48fc47669978 ++
  beBytes 32 0x62afa506aae631696a9e250cc907d44e057a2468a2ac3481f010d3b1e0289de7
def sClosed : State := withObj (withObj {} 0xA000 1 3) 0x1030 8 (3 + 256 * leNat opKey)
def phase1Of : List Byte := [1, 8] ++ List.replicate 34 0 ++ opKey
def halfOf : HalfOpen := { id := 7, slot := 8, window := true, phase1 := [], phase2 := [], ephKey := 1 }

theorem witness_SessionsOpen :
    (∃ a u, Asks (asked sClosed 6 0 0 0 phase1Of) (.window 0) .open1 a u ∧
      (a.req.data.length == 100 && beAt a.req.data 0 1 == 1 && a.back.isWindow && beAt a.req.data 1 1 == 8 && u.operatorRole 8 != 0 &&
        keyPoint (slice a.req.data 36 64) != none && u.server.sessions.isEmpty && u.server.half.isEmpty && u.windowSession == none) = true) ∧
    (∃ a u, Asks (asked { sClosed with server := { half := [halfOf] } } 6 0 0 0 ([3, 0, 0, 0, 0, 0, 0, 7] ++ opSig)) (.window 0) .open3 a u ∧
      (a.req.data.length == 72 && a.back.isWindow && u.server.half.find? (fun h => h.id == beAt a.req.data 4 4 && h.window == a.back.isWindow) == some halfOf &&
        u.operatorRole 8 != 0 && ecdsaVerify (u.operatorKey 8) (halfOf.phase1 ++ halfOf.phase2 ++ a.req.data.take 8) (slice a.req.data 8 64) &&
        u.server.sessions.isEmpty) = true) :=
  ⟨asks_holds (by decide +kernel), asks_holds (by decide +kernel)⟩

def oneWindow : State := withObj sUp 0x3000 2 0x10000000
def onWing (s : State) (w : Nat) (f : Wing → Wing) : State := s.setWing w (f (s.wing w))
def fresh (u : State) (a : Ask) : Bool := u.server.claims.find? (fun x => x.key == objKey a.req.acc a.req.sub) == none

/-- A signer's session over Lormal, and its first frame: a first segment of SPDM_REQUEST. -/
def xLormal : Session := { xSigner with id := 9, window := false, key := [1] }
def sLormal : State := withObj { server := { sessions := [xLormal] }, cat := [(objKey 0x1020 3, 2)] } 0xA000 1 3
/-- A node of the field network, and a datagram that it sends to the device. -/
def iNode : Iface := { mac := leBytes 6 7, addrs := [linkLocal (leBytes 6 7)], vlan := 0, tc := 0, hops := 255 }
def toDevice (body : List Byte) : List Byte := iNode.udp (leBytes 6 2) (linkLocal (leBytes 6 7)) (linkLocal (leBytes 6 2)) 5000 (sLormal.obj 0x1020 2) body
def spdmFrame : List Byte := toDevice (withTag [1] (lormalHead 0x20 4 9 1 0xB200 1 0 0 2 0 ++ [0x10, 0x84]))

/-- Plain writes at once and at beat open, a first segment, the wing's commands, its bounds, restoring defaults. -/
theorem witness_WritesTakeEffect :
    (∃ a u v, Writes (asked sUp 2 0x6000 13 0 (leBytes 2 8)) (.window 0) .write a u v ∧ (v == 8 && plainObject a.req.acc a.req.sub) = true) ∧
    (∃ a u v, Writes (asked sUp 2 0x7200 1 0 (leBytes 2 64)) (.window 0) .write a u v ∧
      (plainObject a.req.acc a.req.sub && bitOf (objFlags a.req.acc a.req.sub) 4) = true) ∧
    (∃ a u, Asks sLormal (.frame spdmFrame) .writeBlock a u ∧ (u.blockCheck a.caller a.req.acc a.req.sub a.req.data.length == rcOk && !a.req.last &&
      a.req.offset == 0 && fresh u a) = true) ∧
    (∃ a u v, Writes (wrote (withObj sUp 0x300F 3 1) 0x300F 4 1) (.window 0) .halt a u v ∧ (u.wingState (accWing a) == 1) = true) ∧
    (∃ a u v, Writes (wrote sUp 0x300F 4 2) (.window 0) .run a u v ∧ (u.wingState (accWing a) == 0) = true) ∧
    (∃ a u v, Writes (wrote (withObj sUp 0x300F 3 3) 0x300F 4 3) (.window 0) .clearFatal a u v ∧ (u.wingState (accWing a) == 3) = true) ∧
    (∃ a u v, Writes (asked oneWindow 2 0x3000 2 0 (leBytes 8 0x20000000)) (.window 0) .window a u v ∧
      ((u.windowWrite (accWing a) a.req.sub v).2 == rcOk && u.obj a.req.acc 1 == 0 && u.obj a.req.acc 2 == 0x10000000 && v == 0x20000000) = true) ∧
    (∃ a u v, Writes (asked sUp 2 0x3000 2 0 (leBytes 8 0x10000000)) (.window 0) .window a u v ∧
      ((u.windowWrite (accWing a) a.req.sub v).2 == rcOk) = true) ∧
    (∃ a u v, Writes (asked sUp 2 0x3010 2 0 (leBytes 2 128)) (.window 0) .share a u v ∧ ((u.shareWrite (accWing a) a.req.sub v).2 == rcOk) = true) ∧
    (∃ a u v, Writes (wrote sUp 0x2100 5 1) (.window 0) .restoreDefaults a u v ∧ (v == 1) = true) :=
  ⟨writes_holds (by decide +kernel), writes_holds (by decide +kernel), asks_holds (by decide +kernel), writes_holds (by decide +kernel),
    writes_holds (by decide +kernel), writes_holds (by decide +kernel), writes_holds (by decide +kernel), writes_holds (by decide +kernel),
    writes_holds (by decide +kernel), writes_holds (by decide +kernel)⟩

def dGroup : List Byte := leBytes 2 3 ++ leBytes 2 1 ++ leBytes 1 2 ++ leBytes 3 1 ++ leBytes 2 0 ++ leBytes 2 64
def sDefine : State := asked sUp 4 0x9100 1 0x200 dGroup
def xShip : Ship := { session := 1, ship := 4, wing := 0, record := [], home := 0 }

theorem witness_UnitRequests_doors :
    (∃ a u v, Writes (wrote sUp 0x800F 1 0) (.window 0) .mode a u v ∧ (v == 0 && u.obj a.req.acc 1 != v) = true) ∧
    (∃ a u v, Writes (wrote (withObj sUp 0x800C 1 0) 0x800C 1 1) (.window 0) .mode a u v ∧ (v == 1 && u.obj a.req.acc 1 != v && accWing a == 12) = true) ∧
    (∃ a u v, Writes (wrote (withObj sUp 0x8203 1 2) 0x8202 2 1) (.window 0) .prepareRemoval a u v ∧
      (u.laserState (partner (a.req.acc - 0x8200)) == 2 && (litDoors (a.req.acc - 0x8200)).all fun d => !(u.door d).dark) = true) ∧
    (∃ a u v, Writes (wrote (withObj (State.setLaser sUp 3 { present := true }) 0x8203 1 5) 0x8203 2 2) (.window 0) .returnToService a u v ∧
      (u.laserState (a.req.acc - 0x8200) == 5 && (u.laser (a.req.acc - 0x8200)).present) = true) :=
  ⟨writes_holds (by decide +kernel), writes_holds (by decide +kernel), writes_holds (by decide +kernel), writes_holds (by decide +kernel)⟩

theorem witness_UnitRequests_groups :
    (∃ a u, Asks sDefine (.window 0) .groupDefine a u ∧ (u.blockCheck a.caller a.req.acc a.req.sub a.req.data.length == rcOk && a.req.last &&
      a.req.offset == 0 && fresh u a && (match u.defineGroup (accWing a) a.req.data with | .ok _ => true | .error _ => false)) = true) ∧
    (∃ a u v, Writes (asked (grouped sUp gHalls) 2 0x9100 2 0 (leBytes 2 3)) (.window 0) .groupDelete a u v ∧
      (u.group v == some gHalls && accWing a == 0 && u.coll.launches.isEmpty) = true) ∧
    (∃ a u v, Writes (asked { sUp with ship := { ships := [xShip] } } 2 0xD100 3 0 (leBytes 4 4)) (.window 0) .shipCancel a u v ∧
      (v == 4 && u.ship.ships == [xShip] && u.ship.waiting.isEmpty && a.caller.fn == some 0) = true) ∧
    (∃ a u v, Writes (wrote { sUp with power := { within15 := 50 } } 0x4140 6 1) (.window 0) .divergence a u v ∧ (v == 1 && u.power.within15 == 50) = true) ∧
    (∃ a u v, Writes (wrote { sUp with pins := { coolantOk := true } } 0x4200 5 1) (.window 0) .coolant a u v ∧
      (v == 1 && u.pins.coolantOk && (List.range 8).all fun h => decide (sext 16 (u.obj (0x4110 + h) 4) < sext 16 (u.obj 0x4200 1))) = true) :=
  ⟨asks_holds (by decide +kernel), writes_holds (by decide +kernel), writes_holds (by decide +kernel), writes_holds (by decide +kernel),
    writes_holds (by decide +kernel)⟩

/-- No wing runs or stops, no job runs, no stop is under way. -/
def calm (u : State) : Bool := ((List.range 16).all fun w => u.wingState w != 1 && u.wingState w != 2) && !u.groupBusy && u.obj 0xA100 3 == 0

theorem witness_ServiceRequests_firmware :
    (∃ a u v, Writes (wrote (State.setSlot sUp 1 { status := 1 }) 0x5300 1 1) (.window 0) .activate a u v ∧
      (v == 1 && u.obj 0x5300 2 == 0 && u.slotPasses u.otherSlot && u.noRecovery) = true) ∧
    (∃ a u v, Writes (wrote (withObj sUp 0x5300 2 2) 0x5300 1 2) (.window 0) .confirm a u v ∧
      (v == 2 && u.obj 0x5300 2 == 2 && decide (u.obj 0x1000 0xA ≤ 1)) = true) ∧
    (∃ a u v, Writes (wrote (withObj sUp 0x5300 2 2) 0x5300 1 3) (.window 0) .revert a u v ∧ (v == 3 && u.obj 0x5300 2 == 2) = true) ∧
    (∃ a u, Asks (asked sUp 4 0xB100 7 0x200 [1]) (.window 0) .slotWrite a u ∧ (u.blockCheck a.caller a.req.acc a.req.sub a.req.data.length == rcOk &&
      a.req.last && a.req.offset == 0 && fresh u a && decide (u.obj 0x1000 0xA ≤ 1) && u.obj 0xA000 1 != 0x0F) = true) :=
  ⟨writes_holds (by decide +kernel), writes_holds (by decide +kernel), writes_holds (by decide +kernel), asks_holds (by decide +kernel)⟩

theorem witness_ServiceRequests_stops :
    (∃ a u v, Writes (wrote sUp 0x5300 4 1) (.window 0) .removalPrepare a u v ∧ (v == 1 && calm u && u.obj 0x5000 8 == 0) = true) ∧
    (∃ a u v, Writes (wrote sUp 0x5300 4 2) (.window 0) .removalAfterStop a u v ∧ (v == 2 && calm u && u.obj 0x5000 8 == 0) = true) ∧
    (∃ a u v, Writes (wrote (withObj sUp 0x5000 8 2) 0x5300 4 3) (.window 0) .removalCancel a u v ∧ (v == 3 && calm u && u.obj 0x5000 8 == 2) = true) ∧
    (∃ a u v, Writes (wrote sUp 0xA100 1 1) (.window 0) .stopTest a u v ∧ calm u = true) ∧
    (∃ a u v, Writes (wrote sUp 0xA100 1 2) (.window 0) .stopPlain a u v ∧ calm u = true) ∧
    (∃ a u v, Writes (wrote sUp 0xA100 2 1) (.window 0) .reset a u v ∧ (v == 1) = true) ∧
    (∃ a u v, Writes (wrote sUp 0xB300 1 1) (.window 0) .debugOpen a u v ∧ (v == 1 && !u.debugRefused) = true) :=
  ⟨writes_holds (by decide +kernel), writes_holds (by decide +kernel), writes_holds (by decide +kernel), writes_holds (by decide +kernel),
    writes_holds (by decide +kernel), writes_holds (by decide +kernel), writes_holds (by decide +kernel)⟩

def sMember : State := { sUp with beat := { anchor := some 3 } }
def sForwarded : State := asked { sUp with server := { forwards := [(0, 27)] } } 1 0x1000 1 (0x40 + 27) []
def rVendor : Request := { op := 1, acc := 0x1000, sub := 1, length := 32768, offset := 0, describe := false, snapshot := false, last := false, data := [] }

theorem witness_ServerTimersAndForwards :
    ((∃ e ∈ sForwarded.server.forwards, e.1 = 0) ∧ (sForwarded.window 0).busy = true ∧ sForwarded.server.forwards.contains (0, 27) = true) ∧
    (sMember.acceptsView 3 4 0x10 = true ∧ sMember.paused = false ∧ sMember.obj 0xA000 1 ≠ 0x0F) ∧
    (reads ⟨torusCaller 0x10, rVendor, .torus 3 0, none⟩ (fun o => !o.hidden) = true ∧ cycleAcc rVendor.acc = false ∧ sMember.turn sMember.torusOrder = true) ∧
    (let r := sMember.barReach (fnOfView 0x10) 0 (2 ^ 48); r.2 < r.1 + leAt (leBytes 4 0xFFFFFFFF) 0 4) ∧
    sMember.acceptsView 3 4 5 = false ∧ sMember.acceptsView 3 4 0x11 = false ∧ sMember.acceptsView 2 4 4 = false := by
  decide +kernel

/-- A neighbour solicitation for the device's own address. -/
def ndFrame : List Byte := Iface.solicit { mac := leBytes 6 7, addrs := [linkLocal (leBytes 6 7)], vlan := 0, tc := 0, hops := 255 } (linkLocal (leBytes 6 2))
/-- A part whose field network's MAC address is 02-00-00-00-00-00. -/
def sMac : State := { cat := [(objKey 0x1020 3, 2)] }
def sVf : State := withObj { sUp with host := { vfEnable := true, numVfs := 16 } } 0x300F 6 1

theorem witness_RegistersAndFlash :
    (sVf.fnActive 16 = true ∧ (sVf.window 16).busy = false) ∧
    (let s : State := asked {} 0 0 0 0 []; s.fnActive 0 = true ∧ s.paused = true ∧ (s.window 0).busy = true) ∧
    (let s := sUp.setWindow 0 { req := 9 }; s.paused = false ∧ (s.window 0).busy = false ∧ [1, 2, 3, 4, 6].contains (bits (s.window 0).req 7 0) = false) ∧
    (let s := sUp.setWindow 0 { req := 6 }; (s.window 0).busy = false ∧ [1, 2, 3, 4, 6].contains (bits (s.window 0).req 7 0) = true) ∧
    (let s : State := { flash := { queue := [(objKey 0x5300 3, 60)] } };
      s.flash.queue.find? (fun e => e.1 == objKey 0x5300 3) = some (objKey 0x5300 3, 60)) ∧
    (sMac.server.duplicate = false ∧ ((sMac.fieldIface.accept ndFrame).map fun p => p.claims (sMac.fieldIface.addrs.headD noAddress)) = some false) ∧
    (let s := { sMac with server := { tentative := true } }; s.server.duplicate = false ∧
      ((s.fieldIface.accept (s.fieldIface.probe (linkLocal (leBytes 6 2)))).map fun p => p.claims (s.fieldIface.addrs.headD noAddress)) = some true) ∧
    ((sMac.fieldIface.accept ndFrame).bind (sMac.fieldIface.icmp false)).isSome ∧ ({} : State).fieldIface.accept [] = none := by
  decide +kernel

theorem witness_AttestationAnswers : (({} : State).spdmOf 0).isSome ∧ (sLormal.spdmOf 9).isSome ∧ leAt [0x12] 0 1 = 0x12 ∧ leAt [0x11] 0 1 = 0x11 := by
  decide +kernel

theorem witness_ActivationEnds :
    (withObj {} 0x5300 2 2).obj 0x5300 2 = 2 ∧
    (let s := withObj { cur := { activating := 1 } } 0x5300 2 1; s.obj 0x5300 2 = 1 ∧ s.obj 0x1000 0xA ≤ 1 ∧ s.cur.activating = 1) ∧
    (let s := withObj { cur := { activating := 3 } } 0x5300 2 1; s.obj 0x5300 2 = 1 ∧ s.obj 0x1000 0xA ≤ 1 ∧ s.cur.activating ≠ 1) := by
  decide +kernel

/-- Two requesters of hall 0 wait, each for one sector. -/
def sAdmit : State := { mem := { waiting := [⟨0, 41, 0, 64, false⟩, ⟨0, 0, 64 * stackSectors, 64, false⟩] } }
/-- A part entry of a host write that covers its sector, and one of the beat's own that covers a byte of a sector that reads good. -/
def sMerge (owner : Nat) : State := let s := put {} 0 (List.replicate 64 5#8)
  { s with mem := { s.mem with merges := [⟨0, if owner = 0 then [(0, some 7#8)] else (List.range 64).map fun i => (i, some 7#8), owner, none⟩] } }
def noUpsets : Parity := ⟨[], 0, 0, false⟩

theorem sAdmit_links (link channel : Nat) : (sAdmit.mem.linkEnds link channel).1 = (sAdmit.mem.linkEnds link channel).2 := by
  simp [Mem.linkEnds, sAdmit, mget, bitOf]

theorem witness_MemoryEvents_queues :
    (sAdmit.mem.waiting.find? (fun r => r.hall == 0 && r.index == 0) = some ⟨0, 0, 64 * stackSectors, 64, false⟩ ∧ sAdmit.mem.selfRefresh = false ∧
      64 ≤ sAdmit.level 0 0 ∧ arbFirst sAdmit.beatNo 42 (fun j => mget 0 sAdmit.mem.losses (0 * 64 + j)) (sAdmit.asking 0) 0 = true ∧
      fabricRoute (stackOf (64 * stackSectors)) 0 = [(stackOf (64 * stackSectors), 0)]) ∧
    (∀ o ∈ [0, 3], stackOf (64 * 0) = 0 ∧ (sMerge o).mem.parts 0 ≠ [] ∧
      (sMerge o).mergeDue ((sMerge o).allStill && (sMerge o).work.engines.all (fun x => x.2.empty)) 0 = true ∧
      coversSector ((sMerge o).mem.parts 0) = (o == 3)) := by
  decide +kernel

theorem witness_MemoryEvents_merge : Clean (sMerge 0) [(64 * 0, 64)] := clean_of_check (by decide +kernel)

/-- The last store's first word with one bit upset since it was written. -/
def sUpset : State :=
  let s := put {} (hallAddr 7) (List.replicate 8 0xA5#8)
  { s with mem := s.mem.putBytes (hallAddr 7) [0xA4#8] }

theorem witness_MemoryEvents_scrub :
    (let s := put {} 0 [1#8]; s.obj 0x7300 1 ≠ 0 ∧ s.mem.selfRefresh = false ∧ noUpsets.upsets = [] ∧
      s.mem.nextWritten 0 (max (mget 0 s.mem.scrubPos 0) (0 * stackSectors)) = some 0) ∧
    (let s : State := {}; s.obj 0x7307 1 ≠ 0 ∧ s.mem.nextWritten 7 (max (mget 0 s.mem.scrubPos 7) (7 * stackSectors)) = none) ∧
    (let s : State := {}; s.obj 0x7307 6 < 2 ^ 31 ∧ s.mem.lapNoted.contains 7 = false) ∧
    (sUpset.obj 0x5000 1 + 64 * sUpset.obj 0x5000 2 ≤ usableBytes ∧ mget 0 sUpset.mem.storePos 7 = 0 ∧ sUpset.mem.unwritten (hallAddr 7 / 8) = false ∧
      (match sUpset.mem.read (hallAddr 7 / 8) with | .corrected d _ => d == 0xA5A5A5A5A5A5A5A5 | _ => false) = true) ∧
    ({} : State).mem.unwritten (hallAddr 0 / 8) = true := by
  decide +kernel

/-! ### Host interface -/

def sQueue (x : Sq) (c : Cq) : State := ((({} : State).setSq 15 63 x).setCq 15 63 c)

theorem witness_QueuesConfigured :
    (let s := sQueue {} { enable := true }; s.owns 0 15 = true ∧ (s.sq 15 63).enable = false ∧ (let v := word [(1, 8), (16, 63)]
      bits v 4 1 ≠ 0 ∧ bits v 4 1 ≤ 8 ∧ (s.cq 15 (bits v 21 16)).enable = true) ∧ 8 < bits (2 * 9) 4 1) ∧
    (let s := sQueue {} {}; s.owns 0 15 = true ∧ (s.cq 15 63).enable = false ∧ (let v := word [(1, 12), (16, 2047)]
      bits v 4 1 ≠ 0 ∧ bits v 4 1 ≤ 12 ∧ s.vectorOk 15 (bits v 26 16) = true ∧ (s.cq 15 63).base % 4096 = 0)) ∧
    (let s := sQueue { enable := true, st := 1, size := 8, cq := 63 } { enable := true, size := 12 };
      s.owns 0 15 = true ∧ (s.sq 15 63).enable = true ∧ (s.cq 15 63).enable = true ∧ (s.sq 15 63).cq = 63 ∧
      255 < 2 ^ (s.sq 15 63).size ∧ (s.sq 15 63).st ≠ 2 ∧ 2 ^ (s.sq 15 63).size ≤ 256 ∧ 4095 < 2 ^ (s.cq 15 63).size) := by
  decide +kernel

/-- A completion queue of two entries at its last, with its function a master of the bus. -/
def sPost (head : Nat) : State :=
  let s := sQueue {} { enable := true, size := 1, tail := 1, head := head, waiting := [5], unsignalled := 1, time := 1, vector := 7 }
  { s with host := { s.host with busMaster := [(0, 1)], vectors := [(7, 0)], pendingMsi := [(9, 1)] } }

theorem witness_CompletionsWritten :
    (let s := sPost 1; (s.cq 15 63).waiting = 5 :: [] ∧ (s.cq 15 63).enable = true ∧ mget 0 s.host.busMaster (s.fnOf 15) ≠ 0 ∧ (s.cq 15 63).isFull = false ∧
      (s.cq 15 63).unsignalled ≠ 0 ∧ (s.cq 15 63).time ≠ 0 ∧ s.vectorMasked (s.fnOf 15) (s.cq 15 63).vector = false) ∧
    (let s := sPost 0; (s.cq 15 63).isFull = true ∧ (s.cq 15 63).fullWait = false) ∧
    mget 0 (sPost 0).host.pendingMsi (0 * 4096 + 9) = 1 := by
  decide +kernel

/-- An entry of a kind at the address 0x1000, image 7 of 64 bytes; the queue of wing 0 that holds it as its last slot. -/
def entry (kind : Nat) : Nat := word [(0, kind), (16, 0x77), (112, 0x1000), (160, 7), (192, 64)]
def sEntry (e : Nat) : State :=
  (({} : State).setSq 0 3 { enable := true, st := 1, size := 8, cq := 5, head := 255, entries := [(255, e)] }).setCq 0 5 { enable := true, size := 1 }
/-- A program image of no steps for the package of device 0 in a torus of 4 by 4, at 0x1000. -/
def plainImage : List Byte :=
  let f := fun (crc : Nat) => leBytes 4 0x4F474C55 ++ leBytes 4 1 ++ leBytes 4 64 ++ leBytes 4 0 ++ leBytes 4 64 ++ leBytes 1 0 ++ leBytes 1 0x44 ++ leBytes 2 0 ++
    leBytes 4 crc ++ leBytes 36 0
  f (crc32c (f 0))
/-- The anchor with the torus to itself or with a neighbour. -/
def anchored (s : State) (present : Nat) : State := withObj (withObj s 0x1000 8 1) 0x8100 1 present
def sLoad (present : Nat) : State := put (anchored (sEntry (entry 2)) present) 0x1000 plainImage
/-- A RUN_JOB whose record, at 0x1000, names image 7. -/
def pJob : Pending := { queue := 4, command := 9, kind := 1, address := 0x1000, image := 0, length := 0 }
def sInUse : State := State.setWing (put (anchored (sEntry (entry 3)) 1) 0x1000 (leBytes 4 7)) 0 { running := some pJob }

theorem witness_EntriesTaken :
    (∀ k ∈ [1, 2, 3, 4, 5], (sEntry (entry k)).nextEntry 0 3 = some (entry k) ∧ entryKind (entry k) = k ∧ (sEntry (entry k)).entryBad 0 (entry k) = false ∧
      (sEntry (entry k)).isAnchor = false) ∧
    (let e := entry 5 + 2 ^ 8; (sEntry e).nextEntry 0 3 = some e ∧ entryKind e = 5 ∧ (sEntry e).entryBad 0 e = true) ∧
    (∀ k ∈ [0, 1, 2, 3, 4, 6], let e := entry k + 2 ^ 8; let s := anchored (sEntry e) 1; s.nextEntry 0 3 = some e ∧ entryKind e = k ∧ s.isAnchor = true ∧ s.entryBad 0 e = true) ∧
    (∀ p ∈ [1, 2 ^ 27 + 1], ∀ k ∈ [1, 3, 4], (let s := anchored (sEntry (entry k)) p; s.isAnchor = true ∧ s.nextEntry 0 3 = some (entry k) ∧
      s.entryBad 0 (entry k) = false ∧ s.others = (if p = 1 then [] else [27]) ∧ (s.takeEntry 0 3 (entry k)).1.imageInUse 0 7 = false)) ∧
    (∀ p ∈ [1, 2 ^ 27 + 1], (sLoad p).nextEntry 0 3 = some (entry 2) ∧ (((sLoad p).takeEntry 0 3 (entry 2)).1.loadHere 0 7 0x1000 64).2 = true) ∧
    (((anchored (sEntry (entry 2)) 1).takeEntry 0 3 (entry 2)).1.loadHere 0 7 0x1000 64).2 = false ∧
    (sInUse.nextEntry 0 3 = some (entry 3) ∧ (sInUse.takeEntry 0 3 (entry 3)).1.imageInUse 0 7 = true) := by
  decide +kernel

/-- The anchor with a waiting job of a running wing, its image loaded. -/
def sJob : State :=
  let s := withObj (put (anchored {} 1) 0x1000 (leBytes 4 7)) 0x3000 3 1
  State.setWing { s with work := { images := [(7, { address := 0x1000, length := 64, steps := 0, table := 64, set := 0, bytes := plainImage })] } } 0 { waiting := [pJob] }

theorem witness_JobsAccepted :
    ((sJob.wing 0).nextJob = some pJob ∧ sJob.isAnchor = true ∧ sJob.wingState 0 = 1 ∧ (sJob.wing 0).job = none ∧ (sJob.wing 0).running = none ∧
      (∀ i, sJob.image 0 (sJob.rdNat pJob.address 4) = some i → sJob.jobFits 0 i = true)) := by
  refine ⟨by decide +kernel, by decide +kernel, by decide +kernel, by decide +kernel, by decide +kernel, fun i h => ?_⟩
  have k : (sJob.image 0 (sJob.rdNat pJob.address 4)).all (fun i => sJob.jobFits 0 i) = true := by decide +kernel
  rw [h] at k; exact k

/-- Virtual function 16 of wing 15's window of 256 MiB. -/
def sBar : State := withObj (withObj (withObj sVf 0x3000 2 0x10000000) 0x300F 1 0x10000000) 0x300F 2 0x20000000
def okRead : Parity := ⟨[], 1, 1, false⟩

theorem witness_HostReachesMemory :
    (let s := put sBar 0x1FFFFFC0 (List.replicate 64 3#8); s.fnActive 16 = true ∧ s.remoteTarget (mget 0 s.host.aperture 16) = none ∧
      (let r := s.barReach 16 (mget 0 s.host.aperture 16) 0xFFFFFC0;
        r = (0x1FFFFFC0, 0x20000000) ∧ r.1 + 64 ≤ r.2 ∧ r.2 < r.1 + 65 ∧ s.inPool r.1 64 = false) ∧ s.mem.merges = [] ∧ okRead.upsets = [] ∧ okRead.failed = false) ∧
    (let s := withObj (withObj sBar 0x710F 1 0x1FFFF000) 0x710F 2 1; s.fnActive 16 = true ∧ s.remoteTarget (mget 0 s.host.aperture 16) = none ∧
      (let r := s.barReach 16 (mget 0 s.host.aperture 16) 0xFFFFFC0;
        r.1 + 64 ≤ r.2 ∧ s.inPool r.1 64 = true ∧ s.obj 0x5000 1 % 64 = 0)) := by
  decide +kernel

theorem witness_HostReachesMemory_clean : Clean (put sBar 0x1FFFFFC0 (List.replicate 64 3#8)) [(0x1FFFFFC0, 64)] := clean_of_check (by decide +kernel)

theorem witness_FunctionsReset :
    sVf.fnActive 16 = true ∧ 15 ∈ sVf.resetWings 16 ∧ 14 ∈ sVf.resetWings 0 ∧ sVf.host.vfEnable = true ∧ sVf.vfActive 15 = true := by
  decide +kernel

/-! ### Doors, lasers, router and maps -/

/-- A flit of 256 bytes: its header, its body from byte 8 on, and its CRC. -/
def rawFlit (hd : List (Nat × Nat)) (body : List Byte) : List Byte :=
  let f := fitBytes 252 (leBytes 8 (word hd) ++ body)
  f ++ leBytes 4 (crc32c f)

/-- A door in a state, its domain on. -/
def doorAt (d st : Nat) (x : Door) : State :=
  let s := withObj { cur := { domains := [(536 + d, 1)] }, torus := { forwarding := true } } (0x8000 + d) 2 st
  withObj (s.setDoor d x) (0x8000 + d) 1 0

/-- What the far end of door 15 of device 0 sends, its device id being what is given. -/
def farEnd (id : Nat) : List Byte := rawFlit [(17, 2)] (leBytes 2 0x0101 ++ leBytes 2 0x0100 ++ leBytes 1 id ++ leBytes 1 0x44 ++ leBytes 1 14)

theorem witness_DoorsTrain :
    (∀ e ∈ [1, 2, 3], (doorAt 15 e {}).doorState 15 = e ∧ 7 ≤ popcount 9 ((doorAt 15 e {}).goodLanes 15 0x7F) ∧ (doorAt 15 e {}).mayTrain 15 = true ∧
      popcount 9 ((doorAt 15 e {}).goodLanes 15 0x3F) < 7) ∧
    (let s := doorAt 15 4 {}; s.doorState 15 = 4 ∧ flitGood (farEnd 3) = true ∧ flitBits (farEnd 3) 18 17 = 2 ∧ flitGood (farEnd 5) = true ∧
      flitBits (farEnd 5) 18 17 = 2 ∧ leAt (farEnd 5) 12 1 ≠ s.neighbourOf s.device (dirOf 15)) ∧
    (doorAt 15 5 { locked := 511 }).doorState 15 = 5 ∧ ((doorAt 15 0 {}).doorState 15 = 0 ∧ (doorAt 15 0 {}).mayTrain 15 = true) := by
  decide +kernel

theorem witness_DoorsTrain_matches : Matches (doorAt 15 4 {}) 15 (farEnd 3) 0x0101 ∧ ∀ v, ¬Matches (doorAt 15 4 {}) 15 (farEnd 5) v := by
  refine ⟨by unfold Matches; decide +kernel, fun v h => ?_⟩
  exact absurd h.2.1 (by decide +kernel)

/-- Door 0 is UP; one flit of packet 4095 is sent and not acknowledged. -/
def sentFlit : Flit := { kind := 1, vc := 4, head := true, tail := true, packet := 4095, index := 0, bytes := [1] }
def sLink : State := doorAt 0 6 { locked := 511, spare := true, expect := 255, seq := 1, window := [(0, sentFlit, 8)], credits := [31, 48, 48, 32, 63] }
def badFlit : List Byte := (rawFlit [] []).set 0 1
/-- A head and tail flit numbered `seq`, and an acknowledgement of flit 0 that returns one credit of channel 4. -/
def dataFlit (seq : Nat) : List Byte := rawFlit [(0, seq), (17, 1), (19, 4), (22, 1), (23, 1), (35, 4095), (51, 9)] [7, 7]
def ackFlit : List Byte := rawFlit [(8, 0), (26, 4), (29, 1)] []

theorem witness_LinksHold :
    sLink.doorState 0 = 6 ∧ flitGood badFlit = false ∧
    (let f := dataFlit 255; flitGood f = true ∧ flitBits f 18 17 = 1 ∧ flitBits f 7 0 = (sLink.door 0).expect ∧ flitBits f 22 22 = 1 ∧ flitFrames f = [] ∧
      (∀ e, e < 16 → sLink.hasJoin e (flitBits f 46 35) = false)) ∧
    (flitGood (dataFlit 254) = true ∧ flitBits (dataFlit 254) 7 0 ≠ (sLink.door 0).expect) ∧
    (flitGood ackFlit = true ∧ flitBits ackFlit 18 17 = 0 ∧ flitBits ackFlit 16 16 = 0 ∧ (sLink.door 0).queue = [] ∧
      (sLink.door 0).window.findIdx? (fun e => e.1 == flitBits ackFlit 15 8) = some 0) ∧
    ((sLink.door 0).window ≠ [] ∧ (∃ e ∈ (sLink.door 0).window, 8 ≤ e.2.2) ∧ ∀ o ∈ sLink.bundle (dirOf 0), o ≠ 0 → sLink.doorState o ≠ 6) ∧
    (let s := withObj (withObj sLink 0x8001 2 6) 0x8000 7 0x80; (∃ o ∈ s.bundle (dirOf 0), o ≠ 0 ∧ s.doorState o = 6) ∧
      bitOf (s.obj 0x8000 7) 8 = false ∧ s.obj 0x8000 5 ≠ 0x0100 ∧ 7 ≤ 9 - popcount 9 (s.obj 0x8000 7 + 2 ^ 8) ∧ bitOf (s.obj 0x8000 7) 7 = true ∧
      (s.door 0).spare = true) ∧
    9 - popcount 9 ((withObj sLink 0x8000 7 0xC0).obj 0x8000 7 + 2 ^ 8) < 7 := by
  decide +kernel

theorem witness_LinksHold_lanes : (LaneCause.clock.fails 0 = true) ∧ (LaneCause.errors (sLink.obj 0x8000 15 + 1)).fails (sLink.obj 0x8000 15) = true ∧
    (LaneCause.errors (sLink.obj 0x8000 15)).fails (sLink.obj 0x8000 15) = false := by decide +kernel

theorem witness_LasersShare :
    (({} : State).laser 3).present = false ∧
    (let s := withObj (State.setLaser {} 3 { present := true }) 0x8203 1 1; (s.laser 3).present = true ∧ (s.laser 3).enabled = false ∧ s.laserState 3 = 1) ∧
    (let s := withObj (withObj (State.setLaser {} 3 { present := true, enabled := true }) 0x8203 1 2) 0x8202 1 3;
      (s.laser 3).enabled = true ∧ s.laserState (partner 3) = 3 ∧ (s.laser 3).present = true ∧ s.laserState 3 = 2) ∧
    (let s := withObj (State.setLaser {} 3 { present := true, enabled := true }) 0x8203 1 3; s.laserState (partner 3) ≠ 2 ∧ s.laserState (partner 3) ≠ 3 ∧
      s.laserState 3 = 3) := by
  decide +kernel

/-- Both modules of a pair lost: a door of theirs that trains, and one in Ethernet mode. -/
theorem witness_LasersShare_dark :
    let s := withObj (withObj (State.setLaser (doorAt 0 3 {}) 0 { present := true, enabled := true }) 0x8200 1 3) 0x800C 1 1
    (s.laser 0).present = true ∧ s.laserState 0 = 3 ∧ s.laserState (partner 0) ≠ 2 ∧ s.laserState (partner 0) ≠ 3 ∧ 0 ∈ litDoors 0 ∧
      s.obj 0x8000 1 ≠ 1 ∧ 1 ≤ s.doorState 0 ∧ s.doorState 0 ≤ 6 ∧ (∃ m, m < 4 ∧ 12 ∈ litDoors m) ∧ s.obj 0x800C 1 = 1 := by
  decide +kernel

/-- A head flit for a device at the last port. -/
def headTo (dest vc : Nat) (tail : Bool) : Flit := { kind := 1, vc := vc, head := true, tail := tail, packet := 5, index := 0, bytes := leBytes 4 (dest + 8 * 64) ++ leBytes 8 0 }
def sRoute (f : Flit) : State :=
  let s := doorAt 9 6 { locked := 511, seq := 255, pktId := 4095, credits := [32, 48, 48, 32, 64] }
  { s with torus := { s.torus with forwarding := true, inputs := [(15 * 8 + f.vc, [f])] } }

/-- A courier frame for a device, and the router with one that waits for door 9 at port 14. -/
def frameTo (dest : Nat) : Flit := { kind := 3, vc := 0, head := true, tail := true, packet := 0, index := 0, bytes := leBytes 8 dest }
def sBehind (f : Flit) : State :=
  let s := withObj (sRoute f) 0x8009 5 0x0100
  { s with torus := { s.torus with inputs := [(14 * 8, [frameTo 8]), (15 * 8 + f.vc, [f])] } }
/-- A send-to-peer packet for this package whose head flit was lost on the way. -/
def lostHead : Flit := { headTo 0 1 true with bytes := leBytes 4 (2 ^ 16 + 8 * 64) ++ leBytes 8 0, lost := true }

theorem witness_RouterForwards :
    (∀ f ∈ [headTo 0 1 true, headTo 63 1 false, headTo 8 1 false, lostHead], (sRoute f).torus.forwarding = true ∧
      mget [] (sRoute f).torus.inputs (15 * 8 + 1) = f :: [] ∧ f.kind ≠ 3 ∧ mget 0 (sRoute f).torus.holds (15 * 8 + 1) = 0) ∧
    (let r := fun (f : Flit) => (sRoute f).headRoute 15 f;
      r (headTo 0 1 true) = .deliver ∧ r lostHead = .deliver ∧ [1, 2, 6].contains (bits (leAt lostHead.bytes 0 4) 23 16) = true ∧
      r (headTo 63 1 false) = .discard ∧
      (match r (headTo 8 1 false) with
        | .hop dir _ _ => (sRoute (headTo 8 1 false)).outDoor dir == some 9 && (sRoute (headTo 8 1 false)).mayMove 15 1 (headTo 8 1 false)
        | _ => false) = true) ∧
    (sBehind (headTo 8 1 false)).mayMove 15 1 (headTo 8 1 false) = false := by
  decide +kernel

theorem witness_RouterForwards_courier :
    let f := headTo 8 1 false
    let s := sBehind f
    (match s.headRoute 15 f with | .hop dir vc _ => s.outDoor dir == some 9 && vc != 0 | _ => false) = true ∧ s.obj 0x8009 5 = 0x0100 ∧
      mget [] s.torus.inputs (14 * 8) = [frameTo 8] ∧ s.wants 14 0 (frameTo 8) = [(9, 0)] ∧ s.outputFree (14 * 8) (9, 0) = true := by
  decide +kernel

/-- An F3 record of wing 15 that device 3 announced. -/
def farRecord : List Byte := ErrRec.bytes { code := 0x3604, device := 3, unit := 0, index := 0, wing := some 15, beat := 0, supp := 0, number := 1, detail := [] }

theorem witness_MapsChange :
    (let s : State := {}; 9 ≠ s.device ∧ s.present 9 = true ∧ s.neighbourOf s.device 3 ≠ s.device ∧ s.present (s.neighbourOf s.device 3) = true) ∧
    (let r := ErrRec.ofBytes farRecord; classOf r.code = 3 ∧ r.wing = some 15 ∧ (({} : State).wing 15).fatal = none) := by
  decide +kernel

theorem witness_LinksHold_joins (e : Nat) : sLink.hasJoin e (flitBits (dataFlit 255) 46 35) = false := by
  have h : sLink.torus.doors = [(0, { locked := 511, spare := true, expect := 255, seq := 1, window := [(0, sentFlit, 8)], credits := [31, 48, 48, 32, 63] })] := by
    decide +kernel
  cases e with
  | zero => decide +kernel
  | succ n => simp only [State.hasJoin, State.door, h, mget, List.any_eq_false]; split <;> simp_all

/-! ### Export, Ethernet, power and coolant -/

/-- A shipment record that names the torus and device 9, and one of an Ethernet shipment. -/
def recTo9 : List Byte := leBytes 128 (2 ^ 36 + 9 * 2 ^ 40 + 0x1234 * 2 ^ 384)
def recEth : List Byte := leBytes 128 0
/-- Half folio 0 of wing 0. -/
def halfFolio : Nat := 2 ^ 27
def sender (f : Ship → Ship) : State := { ship := { ships := [f { session := 1, ship := 4, wing := 0, record := recTo9, home := 0 }] } }
def theShip (f : Ship → Ship) : Ship := f { session := 1, ship := 4, wing := 0, record := recTo9, home := 0 }
def chunkOf (sends : Nat) : Chunk := ⟨0, [halfFolio], 0, sends, false, 0⟩
/-- An open session at version 1.2 with one chunk. -/
def openShip (sends expiries : Nat) (x : Ship) : Ship :=
  { x with st := 1, version := 0x0102, credit := 1, chunks := [chunkOf sends], formats := 1, todo := [(0, 0, 1)], expiries := expiries, rtx := 5000 }
def goodAccept : List Byte := acceptFrame 1 0 0x0102 64
def ackOne : List Byte := Recv.ack { session := 1, source := 9, wing := 0, record := recTo9, home := 0, version := 0x0102, cum := 1 }

theorem witness_SendersSession_open :
    (∀ n ∈ [0, 7, 8], (sender fun x => { x with opens := n }).ship.ships = [theShip fun x => { x with opens := n }] ∧ (sender fun x => { x with opens := n }).ship.waiting = [] ∧
      (theShip fun x => { x with opens := n }).st = 0 ∧ recTorus recTo9 = true) ∧
    (ailasOk 2 goodAccept = true ∧ (sender id).shipOf (afSession goodAccept) = some (theShip id) ∧ beAt (afBody goodAccept) 0 1 = 0 ∧
      beAt (afBody goodAccept) 2 2 = 0x0102) ∧
    (let f := acceptFrame 1 3 0 64; ailasOk 2 f = true ∧ (sender id).shipOf (afSession f) = some (theShip id) ∧ beAt (afBody f) 0 1 ≠ 0) ∧
    (let f := closeFrame 0x0102 1 0 1 1; ailasOk 5 f = true ∧ (sender id).shipOf (afSession f) = some (theShip id)) ∧
    (let f := ailasFrame 0x0102 6 1 0 0 0 (leBytes 16 0); ailasOk 6 f = true ∧ (sender fun x => { x with st := 2 }).shipOf (afSession f) = some (theShip fun x => { x with st := 2 })) := by
  decide +kernel

theorem witness_SendersSession_send :
    (let s := sender (openShip 0 0); let x := theShip (openShip 0 0);
      s.ship.ships = [x] ∧ x.st = 1 ∧ x.chunks.find? (fun k => k.number == 0) = some (chunkOf 0) ∧ (chunkOf 0).acked = false ∧ recTorus x.record = true ∧
      0 < (if x.version = 0x0102 then x.credit else x.cum + 256) ∧ s.shipPaused x = false ∧ (∀ g ∈ (chunkOf 0).folios, bitOf x.formats (s.side g).format = true)) ∧
    (let s := sender (openShip 1 0); let x := theShip (openShip 1 0);
      ailasOk 4 ackOne = true ∧ s.shipOf (afSession ackOne) = some x ∧ x.cum ≤ afNumber ackOne ∧ (∀ c ∈ x.chunks, c.later = 0) ∧
      (x.chunks.filter fun c => !c.acked).length < 3 ∧ x.todo ≠ [] ∧ ackMarks x.version (afNumber ackOne) (afBody ackOne) 0 = true) ∧
    (∀ n ∈ [6, 7], let x := theShip (openShip 1 n); x.st = 1 ∧ (∃ c ∈ x.chunks, c.sends ≠ 0 ∧ c.acked = false) ∧ x.expiries = n) ∧
    (recTorus recEth = false ∧ (sender fun x => { x with record := recEth }).shipDoors recEth = []) := by
  decide +kernel

theorem witness_SendersSession_doors :
    (sender (openShip 1 7)).canSend (theShip (openShip 1 7)) = true ∧
    (let f := fun (x : Ship) => { openShip 1 7 x with record := recEth }; (sender f).ship.ships = [theShip f] ∧ (theShip f).st = 1 ∧
      (∃ c ∈ (theShip f).chunks, c.sends ≠ 0 ∧ c.acked = false) ∧ (sender f).canSend (theShip f) = false) := by
  decide +kernel

theorem witness_SendersSession_clean : Clean (sender (openShip 0 0)) ((chunkOf 0).folios.flatMap (sender (openShip 0 0)).folioRead) ∧
    Clean (sender (openShip 1 6)) (((theShip (openShip 1 6)).folios fun _ => true).flatMap (sender (openShip 1 6)).folioRead) ∧
    recTorus (theShip (openShip 1 6)).record = true :=
  ⟨clean_of_check (by decide +kernel), clean_of_check (by decide +kernel), by decide +kernel⟩

def rOpen : Recv := { session := 1, source := 9, wing := 0, record := recTo9, home := 0, version := 0x0102 }
def sRecv : State := { ship := { recvs := [rOpen] } }
def chunkFrame (n crc : Nat) : List Byte := ailasFrame 0x0102 3 1 n 1 0 [1, 2] ++ beBytes 8 (crc64 [1, 2] + crc)
def openFrame9 : List Byte := ({} : State).openFrame (theShip id)
def fragment2 : List Byte := beBytes 4 7 ++ [0, 2, 0, 0] ++ [5]

theorem witness_ReceiversSession :
    (let s : State := { ship := { receives := [(0, recTo9, 0)] } }; ailasOk 1 openFrame9 = true ∧
      s.ship.recvs.find? (fun y => y.session == afSession openFrame9 && y.source == 9) = none ∧
      s.ship.receives.find? (fun e => e.1 == 0 && recDev e.2.1 == 9 && slice e.2.1 48 8 == slice (afBody openFrame9) 8 8) = some (0, recTo9, 0) ∧
      max 0x0100 (beAt (afBody openFrame9) 2 2) ≤ min (beAt (afBody openFrame9) 0 2) 0x0102 ∧ s.liveShips < 256 ∧
      ({} : State).ship.receives.find? (fun e => e.1 == 0 && recDev e.2.1 == 9 && slice e.2.1 48 8 == slice (afBody openFrame9) 8 8) = none) ∧
    (∀ n ∈ [0, 63], let f := chunkFrame n 0; ailasOk 3 f = true ∧ sRecv.ship.recvs = [rOpen] ∧ rOpen.session = afSession f ∧
      beAt f (16 + afLength f) 8 = crc64 (afBody f) ∧ rOpen.cum ≤ afNumber f ∧ rOpen.marks.contains (afNumber f) = false ∧ afNumber f < rOpen.cum + 64 ∧ (∀ h ∈ rOpen.held, h.1 ≠ afNumber f)) ∧
    (let f := chunkFrame 0 1; ailasOk 3 f = true ∧ beAt f (16 + afLength f) 8 ≠ crc64 (afBody f)) ∧
    ((∃ y ∈ sRecv.ship.recvs, y.wing = 0) ∧ beAt fragment2 5 1 = 2 ∧ sRecv.ship.fragments = [] ∧ ∀ y ∈ sRecv.ship.recvs, y.wing ≠ 15) := by
  decide +kernel

/-- A part whose last Ethernet door's MAC address is 0x12, and what a neighbour asks and tells it. -/
def sEth : State := { cat := [(objKey 0xD003 1, 0x12), (objKey 0xD003 8, 1)] }
def ethAsk : List Byte := Iface.solicit { sEth.doorIface 3 with mac := leBytes 6 7, addrs := [linkLocal (leBytes 6 7)] } (linkLocal (leBytes 6 0x12))
def ethTell : List Byte := Iface.advertise { sEth.doorIface 3 with mac := leBytes 6 7, addrs := [linkLocal (leBytes 6 7)] }
  { srcMac := leBytes 6 0x12, src := linkLocal (leBytes 6 0x12), dst := [], next := 58, hops := 255, body := [] } (linkLocal (leBytes 6 7))

theorem witness_EthernetDoors :
    sEth.obj 0x800F 1 = 1 ∧ (sEth.doorIface 3).accept [] = none ∧ sEth.ethUp 3 = true ∧
    (∀ f ∈ [ethAsk, ethTell], (match (sEth.doorIface 3).accept f with
      | some p => p.sumOk && (sEth.doorIface 3).mine p.dst && p.next != 17 && (p.learned.isSome || ((sEth.doorIface 3).icmp true p).isSome)
      | none => false) = true) := by
  decide +kernel

/-- Another node tells that it has the address that the door probes for. -/
def ethClaim : List Byte := Iface.advertise { sEth.doorIface 3 with mac := leBytes 6 7 }
  { srcMac := leBytes 6 0x12, src := linkLocal (leBytes 6 0x12), dst := [], next := 58, hops := 255, body := [] } (linkLocal (leBytes 6 0x12))

theorem witness_EthernetDoors_claim :
    let s : State := { sEth with ship := { tentative := [(3, linkLocal (leBytes 6 0x12))] } }
    (match (s.doorIface 3).accept ethClaim with
      | some p => (s.doorIface 3).mine p.dst && p.claims (linkLocal (leBytes 6 0x12))
      | none => false) = true ∧
    (match (s.doorIface 3).accept ethTell with
      | some p => (s.doorIface 3).mine p.dst && p.sumOk && p.next != 17 && !p.claims (linkLocal (leBytes 6 0x12))
      | none => false) = true := by
  decide +kernel

theorem witness_PowerFollows (g : Nat) : mget 0 ({ power := { target := [(7, g + 1)] } } : State).power.target 7 = g + 1 ∧
    pointMv g ≤ pointMv g + 10 := ⟨rfl, by omega⟩

theorem witness_TemperatureActs :
    (List.replicate 104 (-32768 : Int)).length = 104 ∧ (List.replicate 8 (32767 : Int)).length = 8 ∧
    (let s := withObj {} 0x4117 4 ((({} : State)).obj 0x4200 1); sext 16 (s.obj 0x4200 1) ≤ sext 16 (s.obj 0x4117 4) ∧ s.obj 0x4117 3 ≠ 0) ∧
    (let s := withObj (withObj {} 0x4117 4 ((({} : State)).obj 0x4200 1 - 30)) 0x4117 3 14;
      sext 16 (s.obj 0x4117 4) + 30 ≤ sext 16 (s.obj 0x4200 1) ∧ s.obj 0x4117 3 < 15) ∧
    (let s : State := { pins := { thermtripN := true } }; sext 16 (s.obj 0x4200 2) ≤ 32767 ∧ s.pins.thermtripN = true) := by
  decide +kernel

theorem witness_CoolantActs :
    (let s : State := { pins := { coolantLow := true } }; s.pins.coolantLow = true ∧ s.power.coolStop = false) ∧ ({} : State).pins.coolantLow = false ∧
    (let s : State := { power := { coolStop := true } }; s.power.coolStop = true ∧ s.mem.selfRefresh = false) := by
  decide +kernel

/-! ### Tests in service, faults, start and stop -/

theorem witness_CoresTested :
    (let s := withObj {} 0x2017 42 3; s.curatorWorks = true ∧ s.coreState 7 41 = 3 ∧ s.cur.mapDue = []) ∧
    (let s := withObj (withObj {} 0xA000 1 3) 0x2007 42 0xFF; s.obj 0x5010 1 ≠ 0 ∧ 3 ≤ s.obj 0xA000 1 ∧ s.obj 0xA000 1 ≠ 0x0F ∧ s.obj 0x2007 42 = 0xFF ∧
      s.cur.suspended.contains 7 = false) ∧
    (let s := withObj (withObj {} 0xA000 1 3) 0x2007 42 41; s.obj 0x2007 42 ≠ 0xFF ∧ s.dueCore 7 = some 0 ∧ s.obj 0x2007 42 = 41 ∧ s.cur.sparing = []) := by
  decide +kernel

theorem witness_PackageFaults :
    classOf 0x4401 = 4 ∧ ({} : State).obj 0x5000 8 ≠ 1 ∧ ({ cur := { restarts := 1 } } : State).cur.restarts ≠ 0 ∧
    (let s : State := { cur := { down := true }, beat := { dead := true } }; s.cur.down = true ∧ s.beat.dead = true ∧ s.cur.sparing = [] ∧ s.obj 0x5000 8 = 0 ∧
      s.obj 0x5300 2 ≠ 1) ∧
    ({ cur := { down := true } } : State).beat.dead = false ∧ ({ pins := { resetN := true } } : State).pins.resetN = true ∧ ({} : State).pins.resetN = false := by
  decide +kernel

theorem witness_StartGoesOn :
    (let s := withObj {} 0xA000 1 2; let b := Blocks.zip (· ||| ·) s.cur.unusable { Blocks.none with cores := [1], doors := 2 ^ 15 };
      s.obj 0xA000 1 = 2 ∧ b.fabrics = 0 ∧ b.routers = 0 ∧ b.hbmStacks = 0) ∧ 64 ∈ [16, 32, 64] ∧ 4 ∈ [4, 8, 16] ∧ ¬(8 ∈ [16, 32, 64] ∧ 4 ∈ [4, 8, 16]) := by
  decide +kernel

def stopping (st : Nat) (c : Curator) : State := withObj { cur := c } 0xA100 3 st

theorem witness_StopEnds :
    (let s : State := withObj { stopping 1 { removing := true, stopKind := 2 } with torus := { forwarding := true } } 0x5000 8 2;
      s.obj 0xA100 3 = 1 ∧ s.cur.removing = true ∧ s.obj 0x5000 8 = 2 ∧ s.torus.forwarding = true ∧ s.cur.stopKind = 2) ∧
    (let s := stopping 1 { stopKind := 3 }; s.cur.newReport = [] ∧ s.obj 0xA100 3 = 1 ∧ s.torus.forwarding = false ∧ s.cur.stopKind ≠ 2) ∧
    (let s := stopping 2 {}; s.cur.newReport = [] ∧ s.obj 0xA100 3 = 2 ∧ s.cur.testStatus = 0) ∧
    (let s := stopping 3 { newReport := [1], stopKind := 3 }; s.cur.newReport ≠ [] ∧ s.obj 0xA100 3 ≠ 0 ∧ s.obj 0xA100 3 ≠ 4 ∧ s.cur.stopKind = 3 ∧
      reportCount s.flash.report0 ≤ reportCount s.flash.report1) ∧
    reportCount ({ report0 := leBytes 512 0 } : Flash).report1 < reportCount ({ report0 := leBytes 512 0 } : Flash).report0 := by
  decide +kernel

/-! ### Whole-machine rules -/

/-- The error ring with room for one more record, full, and without entries. -/
def sRing (head tail : Nat) : State := withObj (withObj (withObj {} 0x5000 2 4) 0x5000 3 head) 0x5000 4 tail

theorem witness_ErrorRecords :
    (Serving (sRing 3 1) ∧ ¬RingFull (sRing 3 1) ∧ RingFull (sRing 3 0)) ∧ (sRing 3 1).obj 0x5000 2 ≠ 0 ∧ ({} : State).obj 0x5000 2 = 0 := by
  unfold Serving RingFull; decide +kernel

theorem witness_NotificationRing : sVf.fnActive 16 = true ∧ (leBytes 8 511).length = 8 ∧ ((sVf.window 16).noteHead + 1) % 256 ≠ (sVf.window 16).noteTail ∧
    (let s := sVf.setWindow 16 { noteHead := 255 }; ((s.window 16).noteHead + 1) % 256 = (s.window 16).noteTail) ∧
    (let s := { sVf with host := { sVf.host with busMaster := [(16, 1)] } }; mget 0 s.host.busMaster 16 ≠ 0 ∧ s.vectorMasked 16 0 = true ∧
      (s.setVector 16 0 5).vectorMasked 16 0 = false) := by decide +kernel

/-- The words of a write to the ring: one record of 64 bytes. -/
theorem test_record_bytes : (recordOf {} 0x3604 1 2 (some 3) [9]).bytes.length = 64 := by decide +kernel

/-- Every clause of the code's table has a word: no error, a check bit, a data bit, two of them. -/
theorem witness_SecdedCorrects : (secded 5 ^^^ secded 5 = 0) ∧ (secded 5 ^^^ 2 ^ 7) ^^^ secded 5 = 2 ^ 7 ∧
    (secded 5 ^^^ 0x67) ^^^ secded 5 = secded (2 ^ 63) ∧ (secded 5 ^^^ 0x88) ^^^ secded 5 = 0x88 := by decide +kernel

theorem test_secded_zero : readWord 1 (secded 0) = .corrected 0 (secded 1 ^^^ secded 0) := by decide +kernel

theorem witness_FusesOnlyBurn : step { pending := [.powerOff], sec := { rollback := 64, revoked := 0xF } } =
    exec .powerOff { sec := { rollback := 64, revoked := 0xF } } := rfl

theorem witness_PowerOnCircuitHolds :
    (match step { pending := [.resetNFall], pins := { thermtripN := false, startFlag := true, resetN := true } } with
      | .next t => !t.pins.thermtripN && t.pins.startFlag && !t.pins.resetN
      | _ => false) = true := by decide +kernel

/-- A command of each family of FamiliesKeepApart answers a next state. -/
theorem witness_FamiliesKeepApart :
    (computes (.lightPathComplete 0 0) && collects (.collectiveTimeout 0 0) && onBeat .beatBoundary && onMemory (.lapOverdue 0 0) && onLinks (.laserPresent 0) &&
      onPower .powerWindow && onHost (.hotReset) && onlyReads (.read (.window 0)) && onCatalogue (.write (.window 0))) = true ∧
    (match exec .hotReset {} with | .next _ => true | _ => false) = true := by decide +kernel

end Sys2Proof.Tests
end

section
/-! The notification ring of a function's window (R47): what an entry, its interrupt and a write to NOTE_TAIL do. -/

namespace Sys2Proof.Machine

open Sys2Proof

/-! ### The ring -/

/-- An entry that finds room stands at NOTE_HEAD, which advances. -/
theorem Window.putNote_of_room (w : Window) (n : Note) (beat : Nat) (h : (w.noteHead + 1) % 256 ≠ w.noteTail) :
    w.putNote n beat =
      ({ w with ring := mset 0 w.ring w.noteHead (n.word beat w.noteSeq), noteHead := (w.noteHead + 1) % 256,
                noteSeq := (w.noteSeq + 1) % 2 ^ 16 }, true) := if_neg h

/-- An entry that finds the ring full is dropped, and bit 7 of byte 3 of the newest entry is LOSS. -/
theorem Window.putNote_of_full (w : Window) (n : Note) (beat : Nat) (h : (w.noteHead + 1) % 256 = w.noteTail) :
    w.putNote n beat =
      ({ w with ring := mset 0 w.ring ((w.noteHead + 255) % 256) (mget 0 w.ring ((w.noteHead + 255) % 256) ||| 2 ^ 31) }, false) :=
  if_pos h

/-! ### The interrupt -/

/-- A window depends on the server's part of the state alone. -/
theorem State.window_congr (s t : State) (h : s.server = t.server) (fn : Nat) : s.window fn = t.window fn := by
  unfold State.window; rw [h]

/-- A vector that may be signalled and is not masked sends its message. -/
theorem State.msix_of_unmasked (s : State) (fn v : Nat) (hb : mget 0 s.host.busMaster fn ≠ 0) (hm : s.vectorMasked fn v = false) :
    s.msix fn v = s.send (s.message fn v) := by
  unfold State.msix; rw [if_neg hb, hm]; rfl

/-- A masked vector that may be signalled sets its Pending Bit and sends nothing. -/
theorem State.msix_of_masked (s : State) (fn v : Nat) (hb : mget 0 s.host.busMaster fn ≠ 0) (hm : s.vectorMasked fn v = true) :
    s.msix fn v = { s with host := { s.host with pendingMsi := mset 0 s.host.pendingMsi (fn * 4096 + v) 1 } } := by
  unfold State.msix; rw [if_neg hb, if_pos hm]

/-! ### An entry on a window's path -/

/-- With room in the ring: the entry is put, and vector 0 of the function is signalled. -/
theorem State.noteWindow_of_room (s : State) (fn : Nat) (n : Note) (h : ((s.window fn).noteHead + 1) % 256 ≠ (s.window fn).noteTail) :
    s.noteWindow fn n = (s.setWindow fn ((s.window fn).putNote n s.beatNo).1).msix fn 0 := by
  unfold State.noteWindow; rw [Window.putNote_of_room _ _ _ h]; rfl

/-- On a full ring: LOSS is set, and NOTES_LOST counts in place of an interrupt. -/
theorem State.noteWindow_of_full (s : State) (fn : Nat) (n : Note) (h : ((s.window fn).noteHead + 1) % 256 = (s.window fn).noteTail) :
    s.noteWindow fn n = (s.setWindow fn ((s.window fn).putNote n s.beatNo).1).count 0x1020 0x0C 1 := by
  unfold State.noteWindow; rw [Window.putNote_of_full _ _ _ h]; rfl

/-- In either case the window is what putNote makes of it. -/
@[simp] theorem State.window_noteWindow_self (s : State) (fn : Nat) (n : Note) :
    (s.noteWindow fn n).window fn = ((s.window fn).putNote n s.beatNo).1 := by
  unfold State.noteWindow; dsimp only; split
  · rw [State.window_congr _ _ (State.msix_server _ _ _), State.window_setWindow_self]
  · rw [State.window_congr _ _ (State.count_server _ _ _ _), State.window_setWindow_self]

/-! ### A write to NOTE_TAIL -/

/-- A whole register is written as the number its bytes spell. -/
theorem patchReg_whole (base old : Nat) (data : List Byte) : patchReg base data.length old base data = leNat data := by
  unfold patchReg
  congr 1
  refine List.ext_getElem (by simp) fun i _ hi => ?_
  simp [hi]

/-- A write of the eight bytes at 0x108 sets NOTE_TAIL. -/
theorem Window.hostWrite_noteTail (w : Window) (data : List Byte) (h : data.length = 8) :
    (w.hostWrite 0x108 data).noteTail = leNat data % 256 := by
  have hv : patchReg 0x108 8 w.noteTail 0x108 data = leNat data := h ▸ patchReg_whole 0x108 w.noteTail data
  have ht : touches 0x100 16 0x108 data.length = true := by rw [h]; decide
  unfold Window.hostWrite
  simp only [ht, hv, if_true]

/-- No host write moves NOTE_HEAD. -/
@[simp] theorem Window.hostWrite_noteHead (w : Window) (offset : Nat) (data : List Byte) :
    (w.hostWrite offset data).noteHead = w.noteHead := by
  unfold Window.hostWrite Window.fill; dsimp only; split <;> rfl

/-- No host write changes an entry of the ring. -/
@[simp] theorem Window.hostWrite_ring (w : Window) (offset : Nat) (data : List Byte) : (w.hostWrite offset data).ring = w.ring := by
  unfold Window.hostWrite Window.fill; dsimp only; split <;> rfl

/-- REGISTER_WRITE of some bytes in the BAR0 of a function that responds is the write to its window. -/
theorem exec_registerWrite_window (s : State) (fn offset : Nat) (data : List Byte) (ha : s.fnActive fn = true) (hd : data ≠ []) :
    exec (.registerWrite fn 0 offset data) s = .next (keepHost s (s.setWindow fn ((s.window fn).hostWrite offset data))) := by
  show execRegisterWrite fn 0 offset data s = _
  simp [execRegisterWrite, registerWrite, ha, hd]

end Sys2Proof.Machine

namespace Sys2Proof.Claims

open Sys2Proof Sys2Proof.Machine

/-- An entry that finds room: the ring, the Catalogue and vector 0 of the function (R47). -/
theorem noteWindow_written (s : State) (fn : Nat) (n : Note) (h : ((s.window fn).noteHead + 1) % 256 ≠ (s.window fn).noteTail) :
    let w := s.window fn
    let t := s.noteWindow fn n
    mget 0 (t.window fn).ring w.noteHead = n.word s.beatNo w.noteSeq ∧ (t.window fn).noteHead = (w.noteHead + 1) % 256 ∧
      (∀ k, k ≠ w.noteHead → mget 0 (t.window fn).ring k = mget 0 w.ring k) ∧ t.cat = s.cat ∧
      (mget 0 s.host.busMaster fn ≠ 0 → s.vectorMasked fn 0 = false → t.out = s.out ++ [s.message fn 0]) ∧
      (mget 0 s.host.busMaster fn ≠ 0 → s.vectorMasked fn 0 = true → t.out = s.out ∧ mget 0 t.host.pendingMsi (fn * 4096) = 1) := by
  intro w t
  have hw : t.window fn = (w.putNote n s.beatNo).1 := State.window_noteWindow_self s fn n
  have ht : t = (s.setWindow fn (w.putNote n s.beatNo).1).msix fn 0 := State.noteWindow_of_room s fn n h
  rw [hw, Window.putNote_of_room w n _ h]
  refine ⟨mget_mset_self _ _ _ _, rfl, fun k hk => mget_mset_ne _ _ _ hk, ?_, fun hb hm => ?_, fun hb hm => ?_⟩
  · rw [ht, State.msix_cat, State.setWindow_cat]
  · rw [ht, State.msix_of_unmasked (s.setWindow fn (w.putNote n s.beatNo).1) fn 0 hb hm]; rfl
  · rw [ht, State.msix_of_masked (s.setWindow fn (w.putNote n s.beatNo).1) fn 0 hb hm]
    exact ⟨rfl, by simp⟩

/-- An entry that finds the ring full: LOSS in the newest entry, and NOTES_LOST (R47). -/
theorem noteWindow_dropped (s : State) (fn : Nat) (n : Note) (h : ((s.window fn).noteHead + 1) % 256 = (s.window fn).noteTail) :
    let w := s.window fn
    let t := s.noteWindow fn n
    (t.window fn).noteHead = w.noteHead ∧ Counted s t 0x1020 0x0C 1 ∧ t.out = s.out ∧
      let k := (w.noteHead + 255) % 256
      mget 0 (t.window fn).ring k = mget 0 w.ring k ||| 2 ^ 31 ∧
      ∀ j, j ≠ k → mget 0 (t.window fn).ring j = mget 0 w.ring j := by
  intro w t
  have hw : t.window fn = (w.putNote n s.beatNo).1 := State.window_noteWindow_self s fn n
  have ht : t = (s.setWindow fn (w.putNote n s.beatNo).1).count 0x1020 0x0C 1 := State.noteWindow_of_full s fn n h
  rw [hw, Window.putNote_of_full w n _ h]
  refine ⟨rfl, ?_, ?_, mget_mset_self _ _ _ _, fun j hj => mget_mset_ne _ _ _ hj⟩
  · unfold Counted
    rw [ht, State.obj_count, if_pos ⟨rfl, Nat.one_ne_zero⟩, State.obj_setWindow]
  · rw [ht, State.count_out, State.setWindow_out]

/-- Software's write to NOTE_TAIL moves it, and nothing else of the ring (R47). -/
theorem registerWrite_noteTail (s : State) (fn : Nat) (data : List Byte) (ha : s.fnActive fn = true) (hl : data.length = 8) :
    Gives (.registerWrite fn 0 0x108 data) s fun u =>
      (u.window fn).noteTail = leNat data % 256 ∧ (u.window fn).noteHead = (s.window fn).noteHead ∧
        (u.window fn).ring = (s.window fn).ring := by
  have hd : data ≠ [] := List.ne_nil_of_length_eq_add_one hl
  have hw : (keepHost s (s.setWindow fn ((s.window fn).hostWrite 0x108 data))).window fn = (s.window fn).hostWrite 0x108 data := by
    rw [State.window_congr _ _ (keepHost_server _ _), State.window_setWindow_self]
  refine ⟨_, exec_registerWrite_window s fn 0x108 data ha hd, ?_⟩
  simp only [hw]
  exact ⟨Window.hostWrite_noteTail _ data hl, Window.hostWrite_noteHead _ _ _, Window.hostWrite_ring _ _ _⟩

/-- Settles O54: an entry that finds room is written and signalled, one that finds the ring full is dropped and counted, and software moves NOTE_TAIL. -/
theorem notificationRing : Obligations.NotificationRing := by
  unfold Obligations.NotificationRing
  exact fun s fn n => ⟨noteWindow_written s fn n, noteWindow_dropped s fn n, fun data => registerWrite_noteTail s fn data⟩

end Sys2Proof.Claims
end

section
/-! Linear codes over one bit: a number as a vector of bits under exclusive OR, and the sum of the columns its set bits choose. SECDED's check byte and the fabric's syndrome are both such sums (R372, R374). -/

namespace Sys2Proof.Machine

open Sys2Proof

/-! ### Exclusive OR -/

theorem xor_cancel_left (x y : Nat) : x ^^^ (x ^^^ y) = y := by
  rw [← Nat.xor_assoc, Nat.xor_self, Nat.zero_xor]

theorem xor_cancel_right (x y : Nat) : x ^^^ y ^^^ y = x := by
  rw [Nat.xor_assoc, Nat.xor_self, Nat.xor_zero]

theorem xor_right_swap (x y z : Nat) : x ^^^ y ^^^ z = x ^^^ z ^^^ y := by
  rw [Nat.xor_assoc, Nat.xor_comm y z, ← Nat.xor_assoc]

theorem xor_xor_swap (x y z w : Nat) : x ^^^ y ^^^ (z ^^^ w) = x ^^^ z ^^^ (y ^^^ w) := by
  rw [← Nat.xor_assoc, xor_right_swap x y z, Nat.xor_assoc]

theorem eq_of_xor_eq_zero {x y : Nat} (h : x ^^^ y = 0) : x = y := by
  rw [← xor_cancel_right x y, h, Nat.zero_xor]

theorem eq_of_xor_eq_xor {x y z : Nat} (h : z ^^^ x = z ^^^ y) : x = y := by
  rw [← xor_cancel_left z x, h, xor_cancel_left]

/-- Terms move to the other side of an equation. -/
theorem xor_swap {x y z w : Nat} (h : x ^^^ y = z ^^^ w) : z ^^^ x = y ^^^ w := by
  rw [← xor_cancel_right z w, ← h, Nat.xor_assoc, Nat.xor_comm w x, ← Nat.xor_assoc, xor_right_swap x y x, Nat.xor_self, Nat.zero_xor]

/-! ### Bits and their count -/

theorem bitOf_eq_testBit (x i : Nat) : bitOf x i = x.testBit i := by
  rw [Bool.eq_iff_iff, Nat.testBit_eq_decide_div_mod_eq, decide_eq_true_iff, bitOf, beq_iff_eq, Nat.shiftRight_eq_div_pow]

@[simp] theorem bitOf_xor (x y i : Nat) : bitOf (x ^^^ y) i = (bitOf x i ^^ bitOf y i) := by
  simp only [bitOf_eq_testBit, Nat.testBit_xor]

@[simp] theorem bitOf_and (x y i : Nat) : bitOf (x &&& y) i = (bitOf x i && bitOf y i) := by
  simp only [bitOf_eq_testBit, Nat.testBit_and]

@[simp] theorem bitOf_two_pow (i j : Nat) : bitOf (2 ^ i) j = decide (i = j) := by
  rw [bitOf_eq_testBit, Nat.testBit_two_pow]

@[simp] theorem bitOf_zero (i : Nat) : bitOf 0 i = false := by
  rw [bitOf_eq_testBit, Nat.zero_testBit]

/-- A number below 2ⁿ⁺¹ is below 2ⁿ when its bit n is clear. -/
theorem lt_two_pow_of_bitOf {x n : Nat} (h : x < 2 ^ (n + 1)) (hn : bitOf x n = false) : x < 2 ^ n := by
  refine Nat.lt_pow_two_of_testBit x fun i hi => ?_
  rcases Nat.eq_or_lt_of_le hi with rfl | hi
  · rwa [← bitOf_eq_testBit]
  · exact Nat.testBit_lt_two_pow (Nat.lt_of_lt_of_le h (Nat.pow_le_pow_right Nat.two_pos hi))

/-- Where no bits meet, the sum is the exclusive OR. -/
theorem shiftLeft_add_eq_xor {y n : Nat} (x : Nat) (hy : y < 2 ^ n) : x <<< n + y = x <<< n ^^^ y := by
  refine Nat.eq_of_testBit_eq fun k => ?_
  rw [Nat.testBit_xor, Nat.testBit_shiftLeft, Nat.shiftLeft_eq, Nat.mul_comm, Nat.testBit_two_pow_mul_add x hy]
  by_cases hk : k < n
  · rw [if_pos hk, decide_eq_false (Nat.not_le.mpr hk), Bool.false_and, Bool.false_xor]
  · have hnk := Nat.not_lt.mp hk
    have hyk : y.testBit k = false := Nat.testBit_lt_two_pow (Nat.lt_of_lt_of_le hy (Nat.pow_le_pow_right Nat.two_pos hnk))
    rw [if_neg hk, decide_eq_true hnk, hyk, Bool.true_and, Bool.xor_false]

theorem popcount_succ (n x : Nat) : popcount (n + 1) x = popcount n x + (bitOf x n).toNat := by
  unfold popcount bitOf
  rw [List.range_succ, List.foldl_append, List.foldl_cons, List.foldl_nil]
  rcases Nat.mod_two_eq_zero_or_one (x >>> n) with h | h <;> rw [h] <;> rfl

/-- A sum by exclusive OR loses the bits that both have, twice. -/
theorem popcount_xor_add (n x y : Nat) :
    popcount n (x ^^^ y) + 2 * popcount n (x &&& y) = popcount n x + popcount n y := by
  induction n with
  | zero => rfl
  | succ n ih =>
    simp only [popcount_succ, bitOf_xor, bitOf_and]
    cases bitOf x n <;> cases bitOf y n <;> simp <;> omega

theorem popcount_xor_mod_two (n x y : Nat) :
    popcount n (x ^^^ y) % 2 = (popcount n x + popcount n y) % 2 := by
  have := popcount_xor_add n x y
  omega

@[simp] theorem popcount_zero (n : Nat) : popcount n 0 = 0 := by
  induction n with
  | zero => rfl
  | succ n ih => simp [popcount_succ, ih]

theorem popcount_two_pow (n i : Nat) : popcount n (2 ^ i) = if i < n then 1 else 0 := by
  induction n with
  | zero => rfl
  | succ n ih =>
    rw [popcount_succ, ih, bitOf_two_pow]
    by_cases h : i = n
    · simp [h]
    · simp [h, show i < n + 1 ↔ i < n by omega]

theorem popcount_two_pow_xor {n i j : Nat} (hi : i < n) (hj : j < n) (hij : i ≠ j) :
    popcount n (2 ^ i ^^^ 2 ^ j) = 2 := by
  have hand : 2 ^ i &&& 2 ^ j = 0 := Nat.eq_of_testBit_eq fun k => by
    rw [Nat.testBit_and, Nat.testBit_two_pow, Nat.testBit_two_pow, Nat.zero_testBit, Bool.and_eq_false_iff,
      decide_eq_false_iff_not, decide_eq_false_iff_not]
    omega
  have := popcount_xor_add n (2 ^ i) (2 ^ j)
  rw [hand, popcount_zero, popcount_two_pow, popcount_two_pow, if_pos hi, if_pos hj] at this
  omega

/-! ### Sums of columns -/

/-- The exclusive OR of the columns that the low n bits of w choose. -/
def columnSum (col : Nat → Nat) (n w : Nat) : Nat :=
  (List.range n).foldl (fun a j => if bitOf w j then a ^^^ col j else a) 0

theorem columnSum_succ (col : Nat → Nat) (n w : Nat) :
    columnSum col (n + 1) w = columnSum col n w ^^^ (if bitOf w n then col n else 0) := by
  unfold columnSum
  rw [List.range_succ, List.foldl_append, List.foldl_cons, List.foldl_nil]
  split
  · rfl
  · exact (Nat.xor_zero _).symm

theorem ite_xor (p q : Bool) (c : Nat) :
    (if p ^^ q then c else 0) = (if p then c else 0) ^^^ (if q then c else 0) := by
  cases p <;> cases q <;> simp

/-- The code is linear. -/
theorem columnSum_xor (col : Nat → Nat) (n v w : Nat) :
    columnSum col n (v ^^^ w) = columnSum col n v ^^^ columnSum col n w := by
  induction n with
  | zero => exact (Nat.xor_self 0).symm
  | succ n ih => rw [columnSum_succ, columnSum_succ, columnSum_succ, ih, bitOf_xor, ite_xor, xor_xor_swap]

/-- One bit chooses its own column. -/
theorem columnSum_two_pow (col : Nat → Nat) (n i : Nat) : columnSum col n (2 ^ i) = if i < n then col i else 0 := by
  induction n with
  | zero => rfl
  | succ n ih =>
    rw [columnSum_succ, ih, bitOf_two_pow]
    by_cases h : i = n
    · simp [h]
    · simp [h, show i < n + 1 ↔ i < n by omega]

end Sys2Proof.Machine
end

section
/-! The SECDED code (R372, R373): what each syndrome makes of a word, and why two inverted bits match no column. -/

namespace Sys2Proof.Machine

open Sys2Proof

/-! ### The check byte and its columns -/

theorem secded_eq_columnSum (w : Nat) : secded w = columnSum (secdedCols.getD · 0) 64 w := by
  have hcols : secdedCols.zipIdx = (List.range 64).map fun i => (secdedCols.getD i 0, i) := by decide
  rw [secded, hcols, List.foldl_map, columnSum]

theorem secded_xor (v w : Nat) : secded (v ^^^ w) = secded v ^^^ secded w := by
  simp only [secded_eq_columnSum, columnSum_xor]

/-- The check byte of a single data bit is its column. -/
theorem secded_two_pow {i : Nat} (h : i < 64) : secded (2 ^ i) = secdedCols[i] := by
  rw [secded_eq_columnSum, columnSum_two_pow, if_pos h]
  exact (List.getElem_eq_getD 0).symm

theorem secdedCols_nodup : secdedCols.Nodup := by decide

theorem secdedCols_odd : ∀ c ∈ secdedCols, popcount 8 c % 2 = 1 := by decide

theorem secdedCols_ne_two_pow : ∀ c ∈ secdedCols, ∀ r < 8, c ≠ 2 ^ r := by decide

theorem secded_two_pow_mem {i : Nat} (h : i < 64) : secded (2 ^ i) ∈ secdedCols :=
  secded_two_pow h ▸ List.getElem_mem _

theorem mem_secdedCols {s : Nat} : s ∈ secdedCols ↔ ∃ i < 64, s = secded (2 ^ i) := by
  constructor
  · intro h
    obtain ⟨i, hi, rfl⟩ := List.mem_iff_getElem.mp h
    exact ⟨i, hi, (secded_two_pow hi).symm⟩
  · rintro ⟨i, hi, rfl⟩
    exact secded_two_pow_mem hi

theorem secded_two_pow_inj {i j : Nat} (hi : i < 64) (hj : j < 64) (h : secded (2 ^ i) = secded (2 ^ j)) : i = j := by
  rw [secded_two_pow hi, secded_two_pow hj] at h
  exact (List.getElem_inj secdedCols_nodup).mp h

/-- A column is found at its own data bit. -/
theorem findIdx?_secdedCols {i : Nat} (h : i < 64) : secdedCols.findIdx? (· == secded (2 ^ i)) = some i := by
  rw [List.findIdx?_eq_some_iff_getElem]
  refine ⟨h, by simp [secded_two_pow h], fun j hj hc => ?_⟩
  have hj64 : j < 64 := Nat.lt_trans hj h
  have : secded (2 ^ j) = secded (2 ^ i) := (secded_two_pow hj64).trans (beq_iff_eq.mp hc)
  exact Nat.ne_of_lt hj (secded_two_pow_inj hj64 h this)

theorem contains_checkBits (s : Nat) : ([1, 2, 4, 8, 16, 32, 64, 128] : List Nat).contains s = true ↔ ∃ r < 8, s = 2 ^ r := by
  have hpow : ([1, 2, 4, 8, 16, 32, 64, 128] : List Nat) = (List.range 8).map (2 ^ ·) := by decide
  rw [hpow, List.contains_iff_mem, List.mem_map]
  constructor
  · rintro ⟨r, hr, rfl⟩
    exact ⟨r, List.mem_range.mp hr, rfl⟩
  · rintro ⟨r, hr, rfl⟩
    exact ⟨r, List.mem_range.mpr hr, rfl⟩

/-! ### What a syndrome makes of a word, branch by branch -/

theorem readWord_of_zero {d c : Nat} (h : c ^^^ secded d = 0) : readWord d c = .good d := by
  simp [readWord, h]

theorem readWord_of_checkBit {d c r : Nat} (hr : r < 8) (h : c ^^^ secded d = 2 ^ r) :
    readWord d c = .corrected d (2 ^ r) := by
  have hc := (contains_checkBits (2 ^ r)).mpr ⟨r, hr, rfl⟩
  simp only [readWord, h, hc, if_true, if_neg (Nat.ne_of_gt (Nat.two_pow_pos r))]

theorem readWord_of_dataBit {d c i : Nat} (hi : i < 64) (h : c ^^^ secded d = secded (2 ^ i)) :
    readWord d c = .corrected (d ^^^ 2 ^ i) (secded (2 ^ i)) := by
  have hodd := secdedCols_odd _ (secded_two_pow_mem hi)
  have h0 : secded (2 ^ i) ≠ 0 := fun h0 => by simp [h0] at hodd
  have hc : ¬ ([1, 2, 4, 8, 16, 32, 64, 128] : List Nat).contains (secded (2 ^ i)) = true := by
    rw [contains_checkBits]
    rintro ⟨r, hr, hs⟩
    exact secdedCols_ne_two_pow _ (secded_two_pow_mem hi) r hr hs
  simp only [readWord, h, if_neg h0, if_neg hc, findIdx?_secdedCols hi]

theorem readWord_of_noColumn {d c : Nat} (h0 : c ^^^ secded d ≠ 0) (hcheck : ∀ r < 8, c ^^^ secded d ≠ 2 ^ r)
    (hdata : ∀ i < 64, c ^^^ secded d ≠ secded (2 ^ i)) : readWord d c = .uncorrectable d (c ^^^ secded d) := by
  have hc : ¬ ([1, 2, 4, 8, 16, 32, 64, 128] : List Nat).contains (c ^^^ secded d) = true := by
    rw [contains_checkBits]
    rintro ⟨r, hr, hs⟩
    exact hcheck r hr hs
  have hf : secdedCols.findIdx? (· == c ^^^ secded d) = none := by
    rw [List.findIdx?_eq_none_iff]
    intro x hx
    obtain ⟨i, hi, rfl⟩ := mem_secdedCols.mp hx
    simpa using (hdata i hi).symm
  simp only [readWord, if_neg h0, if_neg hc, hf]

/-! ### Two errors -/

/-- The syndrome of one inverted bit of the 72: a check bit's own, or a data bit's column. -/
def SecdedColumn (x : Nat) : Prop := (∃ r < 8, x = 2 ^ r) ∨ ∃ i < 64, x = secded (2 ^ i)

/-- Every column has an odd number of bits. -/
theorem SecdedColumn.odd {x : Nat} : SecdedColumn x → popcount 8 x % 2 = 1
  | .inl ⟨r, hr, hx⟩ => by rw [hx, popcount_two_pow, if_pos hr]
  | .inr ⟨_, hi, hx⟩ => hx ▸ secdedCols_odd _ (secded_two_pow_mem hi)

/-- Two different columns give an even syndrome that is not zero, which matches no column (R373). -/
theorem readWord_of_two_columns {d c x y : Nat} (hx : SecdedColumn x) (hy : SecdedColumn y) (hne : x ≠ y)
    (h : c ^^^ secded d = x ^^^ y) : readWord d c = .uncorrectable d (x ^^^ y) := by
  have heven : popcount 8 (x ^^^ y) % 2 = 0 := by
    rw [popcount_xor_mod_two, Nat.add_mod, hx.odd, hy.odd]
  have hcol : ∀ z, SecdedColumn z → c ^^^ secded d ≠ z := by
    rintro z hz rfl
    rw [h] at hz
    exact absurd hz.odd (by omega)
  rw [← h]
  refine readWord_of_noColumn ?_ (fun r hr => hcol _ (.inl ⟨r, hr, rfl⟩)) (fun i hi => hcol _ (.inr ⟨i, hi, rfl⟩))
  rw [h]
  exact fun h0 => hne (eq_of_xor_eq_zero h0)

end Sys2Proof.Machine

namespace Sys2Proof.Claims

open Sys2Proof Sys2Proof.Machine

/-- What a read makes of a word, by its syndrome. -/
theorem readWord_by_syndrome (d c : Nat) :
    let s := c ^^^ secded d
    (s = 0 → readWord d c = .good d) ∧
    (∀ r, r < 8 → s = 2 ^ r → readWord d c = .corrected d s) ∧
    (∀ i, i < 64 → s = secded (2 ^ i) → readWord d c = .corrected (d ^^^ 2 ^ i) s) ∧
    (s ≠ 0 → (∀ r, r < 8 → s ≠ 2 ^ r) → (∀ i, i < 64 → s ≠ secded (2 ^ i)) → readWord d c = .uncorrectable d s) := by
  intro s
  refine ⟨readWord_of_zero, fun r hr h => ?_, fun i hi h => ?_, readWord_of_noColumn⟩
  · rw [h]; exact readWord_of_checkBit hr h
  · rw [h]; exact readWord_of_dataBit hi h

/-- Two inverted data bits. -/
theorem readWord_two_data (d : Nat) {i j : Nat} (hij : i < j) (hj : j < 64) :
    readWord (d ^^^ 2 ^ i ^^^ 2 ^ j) (secded d) = .uncorrectable (d ^^^ 2 ^ i ^^^ 2 ^ j) (secded (2 ^ i) ^^^ secded (2 ^ j)) := by
  have hi := Nat.lt_trans hij hj
  refine readWord_of_two_columns (.inr ⟨i, hi, rfl⟩) (.inr ⟨j, hj, rfl⟩) (fun h => Nat.ne_of_lt hij (secded_two_pow_inj hi hj h)) ?_
  rw [secded_xor, secded_xor, Nat.xor_assoc, xor_cancel_left]

/-- An inverted data bit and an inverted check bit. -/
theorem readWord_data_and_check (d : Nat) {i r : Nat} (hi : i < 64) (hr : r < 8) :
    readWord (d ^^^ 2 ^ i) (secded d ^^^ 2 ^ r) = .uncorrectable (d ^^^ 2 ^ i) (2 ^ r ^^^ secded (2 ^ i)) := by
  refine readWord_of_two_columns (.inl ⟨r, hr, rfl⟩) (.inr ⟨i, hi, rfl⟩)
    (secdedCols_ne_two_pow _ (secded_two_pow_mem hi) r hr).symm ?_
  rw [secded_xor, Nat.xor_comm (secded d) (2 ^ r), Nat.xor_assoc, xor_cancel_left]

/-- Two inverted check bits. -/
theorem readWord_two_check (d : Nat) {q r : Nat} (hqr : q < r) (hr : r < 8) :
    readWord d (secded d ^^^ 2 ^ q ^^^ 2 ^ r) = .uncorrectable d (2 ^ q ^^^ 2 ^ r) := by
  refine readWord_of_two_columns (.inl ⟨q, Nat.lt_trans hqr hr, rfl⟩) (.inl ⟨r, hr, rfl⟩)
    (fun h => Nat.ne_of_lt hqr ((Nat.pow_right_inj Nat.one_lt_two).mp h)) ?_
  rw [Nat.xor_comm, Nat.xor_assoc (secded d), xor_cancel_left]

/-- Settles O55: a read is decided by the syndrome's column, and the sum of two columns is even and not zero, so it is none. -/
theorem secdedCorrects : Obligations.SecdedCorrects := by
  unfold Obligations.SecdedCorrects
  intro d c _ _
  exact ⟨readWord_by_syndrome d c, fun i j hij hj => ⟨_, readWord_two_data d hij hj⟩,
    fun i r hi hr => ⟨_, readWord_data_and_check d hi hr⟩, fun q r hqr hr => ⟨_, readWord_two_check d hqr hr⟩⟩

end Sys2Proof.Claims
end

section
/-! The columns of the fabric's parity check (R374): the powers αʲ and α³ʲ in GF(2⁷), by the rules of a field in as far as powers of α need them. Two elements of a field of characteristic 2 are known from their sum and the sum of their cubes, so no two pairs of columns have the same sum: this is why the code corrects two errors. -/

namespace Sys2Proof.Machine

open Sys2Proof

/-! ### Powers of α -/

theorem gfDouble_lt {x : Nat} (h : x < 128) : gfDouble x < 128 := by
  unfold gfDouble
  split
  · exact Nat.xor_lt_two_pow (n := 7) (Nat.mod_lt _ (by decide)) (by decide)
  · omega

theorem gfPow_lt (j : Nat) : gfPow j < 128 := by
  induction j with
  | zero => decide
  | succ j ih => exact gfDouble_lt ih

/-- Multiplying by α is linear: αⁱ becomes αⁱ⁺¹. -/
theorem gfDouble_eq_columnSum : ∀ x < 128, gfDouble x = columnSum (fun i => gfPow (i + 1)) 7 x := by decide +kernel

theorem gfDouble_xor {x y : Nat} (hx : x < 128) (hy : y < 128) : gfDouble (x ^^^ y) = gfDouble x ^^^ gfDouble y := by
  rw [gfDouble_eq_columnSum _ (Nat.xor_lt_two_pow (n := 7) hx hy), gfDouble_eq_columnSum x hx, gfDouble_eq_columnSum y hy, columnSum_xor]

/-- An equation of powers, multiplied by αᵐ. -/
theorem gfPow_add_congr {i j : Nat} (h : gfPow i = gfPow j) (m : Nat) : gfPow (i + m) = gfPow (j + m) := by
  induction m with
  | zero => exact h
  | succ m ih => exact congrArg gfDouble ih

/-- A sum of powers, multiplied by αᵐ. -/
theorem gfPow_add_of_xor {n i j : Nat} (h : gfPow n = gfPow i ^^^ gfPow j) (m : Nat) :
    gfPow (n + m) = gfPow (i + m) ^^^ gfPow (j + m) := by
  induction m with
  | zero => exact h
  | succ m ih => exact (congrArg gfDouble ih).trans (gfDouble_xor (gfPow_lt _) (gfPow_lt _))

/-! ### The order of α -/

theorem gfPow_add_period (r q : Nat) : gfPow (r + 127 * q) = gfPow r := by
  induction q with
  | zero => rfl
  | succ q ih =>
    have h127 : gfPow 127 = gfPow 0 := by decide +kernel
    have := gfPow_add_congr h127 (r + 127 * q)
    rwa [Nat.zero_add, ih, show 127 + (r + 127 * q) = r + 127 * (q + 1) by omega] at this

theorem gfPow_mod (n : Nat) : gfPow (n % 127) = gfPow n := by
  rw [← gfPow_add_period (n % 127) (n / 127), Nat.mod_add_div]

theorem gfPow_eq_one : ∀ d < 127, gfPow d = 1 → d = 0 := by decide +kernel

theorem gfPow_inj_of_le {i j : Nat} (hij : i ≤ j) (hj : j < 127) (h : gfPow i = gfPow j) : i = j := by
  have hone : gfPow (j - i) = 1 := by
    have := gfPow_add_congr h (127 - i)
    rw [show i + (127 - i) = 0 + 127 * 1 by omega, show j + (127 - i) = (j - i) + 127 * 1 by omega,
      gfPow_add_period, gfPow_add_period] at this
    exact this.symm
  have := gfPow_eq_one _ (by omega) hone
  omega

theorem gfPow_eq_iff {i j : Nat} : gfPow i = gfPow j ↔ i % 127 = j % 127 := by
  constructor
  · intro h
    rw [← gfPow_mod i, ← gfPow_mod j] at h
    have hi := Nat.mod_lt i (show 127 > 0 by decide)
    have hj := Nat.mod_lt j (show 127 > 0 by decide)
    rcases Nat.le_total (i % 127) (j % 127) with hle | hle
    · exact gfPow_inj_of_le hle hj h
    · exact (gfPow_inj_of_le hle hi h.symm).symm
  · intro h
    rw [← gfPow_mod i, ← gfPow_mod j, h]

/-- α is primitive: everything but zero is a power of it. -/
theorem exists_gfPow_eq : ∀ x < 128, x ≠ 0 → ∃ n < 127, gfPow n = x := by decide +kernel

theorem exists_gfPow_eq_xor {i j : Nat} (h : gfPow i ≠ gfPow j) : ∃ n, gfPow n = gfPow i ^^^ gfPow j := by
  obtain ⟨n, _, hn⟩ := exists_gfPow_eq _ (Nat.xor_lt_two_pow (n := 7) (gfPow_lt i) (gfPow_lt j)) fun h0 => h (eq_of_xor_eq_zero h0)
  exact ⟨n, hn⟩

/-! ### Squares and cubes -/

/-- Squaring, which in characteristic 2 is linear: αⁱ becomes α²ⁱ. -/
def gfSquare (x : Nat) : Nat := columnSum (fun i => gfPow (2 * i)) 7 x

theorem gfSquare_gfDouble : ∀ x < 128, gfSquare (gfDouble x) = gfDouble (gfDouble (gfSquare x)) := by decide +kernel

theorem gfSquare_gfPow (n : Nat) : gfSquare (gfPow n) = gfPow (2 * n) := by
  induction n with
  | zero => decide
  | succ n ih => rw [gfPow, gfSquare_gfDouble _ (gfPow_lt n), ih]; rfl

theorem gfPow_square {n i j : Nat} (h : gfPow n = gfPow i ^^^ gfPow j) : gfPow (2 * n) = gfPow (2 * i) ^^^ gfPow (2 * j) := by
  rw [← gfSquare_gfPow n, h, gfSquare, columnSum_xor]
  exact congr (congrArg HXor.hXor (gfSquare_gfPow i)) (gfSquare_gfPow j)

/-- s³ = a³ + b³ + abs where s = a + b. -/
theorem gfPow_cube {n i j : Nat} (h : gfPow n = gfPow i ^^^ gfPow j) :
    gfPow (3 * n) = gfPow (3 * i) ^^^ gfPow (3 * j) ^^^ gfPow (n + (i + j)) := by
  have hn : gfPow (3 * n) = gfPow (n + 2 * i) ^^^ gfPow (n + 2 * j) := by
    have := gfPow_add_of_xor (gfPow_square h) n
    rwa [show 2 * n + n = 3 * n by omega, Nat.add_comm (2 * i), Nat.add_comm (2 * j)] at this
  have hi := gfPow_add_of_xor h (2 * i)
  have hj := gfPow_add_of_xor h (2 * j)
  have hij := gfPow_add_of_xor h (i + j)
  rw [show i + 2 * i = 3 * i by omega] at hi
  rw [show j + 2 * j = 3 * j by omega] at hj
  rw [show i + (i + j) = j + 2 * i by omega, show j + (i + j) = i + 2 * j by omega] at hij
  rw [hn, hi, hj, hij, Nat.xor_assoc, Nat.xor_assoc, ← Nat.xor_assoc (gfPow (j + 2 * i)), Nat.xor_comm _ (gfPow (3 * j))]

/-- Two different powers are known from their sum and the sum of their cubes: ab = cd follows, and then c is a root of (x + a)(x + b). -/
theorem gfPow_pair_of_sum_of_cubes {i j k l : Nat} (hij : gfPow i ≠ gfPow j) (hsum : gfPow i ^^^ gfPow j = gfPow k ^^^ gfPow l)
    (hcubes : gfPow (3 * i) ^^^ gfPow (3 * j) = gfPow (3 * k) ^^^ gfPow (3 * l)) : gfPow k = gfPow i ∨ gfPow k = gfPow j := by
  obtain ⟨n, hn⟩ := exists_gfPow_eq_xor hij
  have hn' := hn.trans hsum
  have hprod : gfPow (i + j) = gfPow (k + l) := by
    have h := (gfPow_cube hn).symm.trans (gfPow_cube hn')
    rw [hcubes] at h
    have := eq_of_xor_eq_xor h
    rw [gfPow_eq_iff] at this ⊢
    omega
  by_cases hki : gfPow k = gfPow i
  · exact .inl hki
  obtain ⟨m, hm⟩ := exists_gfPow_eq_xor hki
  have hroot : gfPow (m + k) = gfPow (m + j) := by
    have hs := (gfPow_add_of_xor hn k).symm.trans (gfPow_add_of_xor hn' k)
    rw [gfPow_add_of_xor hm k, gfPow_add_of_xor hm j, hprod, Nat.add_comm k j, Nat.add_comm k l]
    exact xor_swap hs
  refine .inr ?_
  rw [gfPow_eq_iff] at hroot ⊢
  omega

/-! ### The columns and their sums -/

theorem fabricCol_low (j : Nat) : fabricCol j % 2 ^ 7 = gfPow j := by
  have := gfPow_lt (j % 127)
  rw [← gfPow_mod j]
  unfold fabricCol
  omega

theorem fabricCol_mid (j : Nat) : fabricCol j / 2 ^ 7 % 2 ^ 7 = gfPow (3 * j) := by
  have := gfPow_lt (j % 127)
  have := gfPow_lt (3 * j % 127)
  rw [← gfPow_mod (3 * j)]
  unfold fabricCol
  omega

/-- Bit 14 counts the columns of a sum: it tells an odd number of errors from an even one. -/
theorem fabricCol_top (j : Nat) : fabricCol j / 2 ^ 14 = 1 := by
  have := gfPow_lt (j % 127)
  have := gfPow_lt (3 * j % 127)
  unfold fabricCol
  omega

theorem gfPow_inj {i j : Nat} (hi : i < 80) (hj : j < 80) (h : gfPow i = gfPow j) : i = j := by
  rw [gfPow_eq_iff] at h
  omega

theorem fabricCol_inj {i j : Nat} (hi : i < 80) (hj : j < 80) (h : fabricCol i = fabricCol j) : i = j :=
  gfPow_inj hi hj (by rw [← fabricCol_low, h, fabricCol_low])

/-- No two pairs of columns have the same sum. -/
theorem fabricCol_pair_inj {i j k l : Nat} (hi : i < 80) (hj : j < 80) (hk : k < 80) (hij : i ≠ j)
    (h : fabricCol i ^^^ fabricCol j = fabricCol k ^^^ fabricCol l) : k = i ∨ k = j := by
  have hsum : gfPow i ^^^ gfPow j = gfPow k ^^^ gfPow l := by
    simp only [← fabricCol_low, ← Nat.xor_mod_two_pow, h]
  have hcubes : gfPow (3 * i) ^^^ gfPow (3 * j) = gfPow (3 * k) ^^^ gfPow (3 * l) := by
    simp only [← fabricCol_mid, ← Nat.xor_mod_two_pow, ← Nat.xor_div_two_pow, h]
  exact (gfPow_pair_of_sum_of_cubes (fun he => hij (gfPow_inj hi hj he)) hsum hcubes).imp (gfPow_inj hk hi) (gfPow_inj hk hj)

/-- A sum of two columns has one pair, the higher bit named first. -/
theorem fabricCol_pair_unique {i j k l : Nat} (hji : j < i) (hi : i < 80) (hlk : l < k) (hk : k < 80)
    (h : fabricCol k ^^^ fabricCol l = fabricCol i ^^^ fabricCol j) : (k, l) = (i, j) := by
  have hj := Nat.lt_trans hji hi
  have hki := fabricCol_pair_inj hi hj hk (Nat.ne_of_gt hji) h.symm
  have hli := fabricCol_pair_inj hi hj (Nat.lt_trans hlk hk) (Nat.ne_of_gt hji) (h.symm.trans (Nat.xor_comm _ _))
  rw [Prod.mk.injEq]
  omega

/-- An odd sum is not zero. -/
theorem fabricCol_ne_zero (i : Nat) : fabricCol i ≠ 0 := fun h => by
  have := fabricCol_top i
  rw [h] at this
  exact absurd this (by decide)

/-- An even sum of columns is none of them. -/
theorem fabricCol_xor_ne (i j k : Nat) : fabricCol i ^^^ fabricCol j ≠ fabricCol k := fun h => by
  have := congrArg (· / 2 ^ 14) h
  simp only [Nat.xor_div_two_pow, fabricCol_top] at this
  exact absurd this (by decide)

/-- An odd sum of columns is no sum of two. -/
theorem fabricCol_xor_xor_ne (i j k l m : Nat) : fabricCol i ^^^ fabricCol j ^^^ fabricCol k ≠ fabricCol l ^^^ fabricCol m := fun h => by
  have := congrArg (· / 2 ^ 14) h
  simp only [Nat.xor_div_two_pow, fabricCol_top] at this
  exact absurd this (by decide)

end Sys2Proof.Machine
end

section
/-! The fabric code (R374-R376): an encoded word is a code word, and what the receiving end makes of each syndrome. -/

namespace Sys2Proof.Machine

open Sys2Proof

/-! ### The syndrome -/

theorem fabricSyndrome_xor (v w : Nat) : fabricSyndrome (v ^^^ w) = fabricSyndrome v ^^^ fabricSyndrome w :=
  columnSum_xor fabricCol 80 v w

theorem fabricSyndrome_two_pow {j : Nat} (h : j < 80) : fabricSyndrome (2 ^ j) = fabricCol j :=
  (columnSum_two_pow fabricCol 80 j).trans (if_pos h)

/-- The multiples of G by a power of x are code words. -/
theorem fabricSyndrome_fabricG : ∀ k < 65, fabricSyndrome (fabricG <<< k) = 0 := by decide +kernel

/-! ### The encoder -/

/-- The remainder after the first n steps of the division by G. -/
def fabricRemAfter (n p : Nat) : Nat :=
  (List.range n).foldl (fun r i => if bitOf r (79 - i) then r ^^^ (fabricG <<< (64 - i)) else r) p

theorem fabricRemAfter_succ (n p : Nat) :
    fabricRemAfter (n + 1) p = if bitOf (fabricRemAfter n p) (79 - n) then fabricRemAfter n p ^^^ (fabricG <<< (64 - n)) else fabricRemAfter n p := by
  unfold fabricRemAfter
  rw [List.range_succ, List.foldl_append, List.foldl_cons, List.foldl_nil]

/-- Taking multiples of G away leaves the syndrome. -/
theorem fabricSyndrome_fabricRemAfter (n p : Nat) : fabricSyndrome (fabricRemAfter n p) = fabricSyndrome p := by
  induction n with
  | zero => rfl
  | succ n ih =>
    rw [fabricRemAfter_succ]
    split
    · rw [fabricSyndrome_xor, ih, fabricSyndrome_fabricG _ (by omega), Nat.xor_zero]
    · exact ih

/-- Each step clears the highest bit that is left. -/
theorem fabricRemAfter_lt {p : Nat} (hp : p < 2 ^ 80) : ∀ n ≤ 65, fabricRemAfter n p < 2 ^ (80 - n)
  | 0, _ => hp
  | n + 1, hn => by
    have ih := fabricRemAfter_lt hp n (by omega)
    have hG : fabricG <<< (64 - n) < 2 ^ (79 - n + 1) := by
      rw [Nat.shiftLeft_eq, show 79 - n + 1 = 16 + (64 - n) by omega, Nat.pow_add]
      exact Nat.mul_lt_mul_of_pos_right (by decide) (Nat.two_pow_pos _)
    have hGtop : bitOf (fabricG <<< (64 - n)) (79 - n) = true := by
      rw [bitOf_eq_testBit, Nat.testBit_shiftLeft, show 79 - n - (64 - n) = 15 by omega]
      rw [decide_eq_true (by omega : 79 - n ≥ 64 - n)]
      decide
    rw [show 80 - n = 79 - n + 1 by omega] at ih
    rw [fabricRemAfter_succ, show 80 - (n + 1) = 79 - n by omega]
    split
    next h => exact lt_two_pow_of_bitOf (Nat.xor_lt_two_pow ih hG) (by rw [bitOf_xor, h, hGtop, Bool.xor_self])
    next h => exact lt_two_pow_of_bitOf ih (by simpa using h)

/-- A data word and its sequence bit, above fifteen zeros. -/
def fabricMessage (d : Nat) (b : Bool) : Nat := (d % 2 ^ 64 + b2n b * 2 ^ 64) <<< 15

theorem fabricMessage_lt (d : Nat) (b : Bool) : fabricMessage d b < 2 ^ 80 := by
  unfold fabricMessage b2n
  rw [Nat.shiftLeft_eq]
  split <;> omega

theorem fabricRem_message_lt (d : Nat) (b : Bool) : fabricRem (fabricMessage d b) < 2 ^ 15 :=
  fabricRemAfter_lt (fabricMessage_lt d b) 65 (Nat.le_refl 65)

/-- The fifteen check bits stand below the message. -/
theorem fabricEncode_eq_xor (d : Nat) (b : Bool) : fabricEncode d b = fabricMessage d b ^^^ fabricRem (fabricMessage d b) :=
  shiftLeft_add_eq_xor _ (fabricRem_message_lt d b)

theorem fabricSyndrome_fabricEncode (d : Nat) (b : Bool) : fabricSyndrome (fabricEncode d b) = 0 := by
  have hrem : fabricSyndrome (fabricRem (fabricMessage d b)) = fabricSyndrome (fabricMessage d b) :=
    fabricSyndrome_fabricRemAfter 65 _
  rw [fabricEncode_eq_xor, fabricSyndrome_xor, hrem, Nat.xor_self]

theorem fabricEncode_div (d : Nat) (b : Bool) : fabricEncode d b / 2 ^ 15 = d % 2 ^ 64 + b2n b * 2 ^ 64 := by
  show (fabricMessage d b + fabricRem (fabricMessage d b)) / 2 ^ 15 = _
  have := fabricRem_message_lt d b
  have hm : fabricMessage d b = (d % 2 ^ 64 + b2n b * 2 ^ 64) * 2 ^ 15 := Nat.shiftLeft_eq _ _
  omega

/-- The sequence bit is code bit 79. -/
theorem bitOf_fabricEncode (d : Nat) (b : Bool) : bitOf (fabricEncode d b) 79 = b := by
  have hb : fabricEncode d b / 2 ^ 79 = b2n b := by
    have := fabricEncode_div d b
    omega
  rw [bitOf, Nat.shiftRight_eq_div_pow, hb]
  cases b <;> rfl

/-! ### The decoder, syndrome by syndrome -/

/-- A word whose bits are put right is delivered when its sequence bit is the one expected. -/
def fabricDeliver (expect : Bool) (r : Nat × Nat) : Option (Nat × Nat) := if bitOf r.1 79 = expect then some r else none

/-- What a search finds is the one element that passes. -/
theorem find?_eq_some_of_unique {α : Type} {p : α → Bool} {l : List α} {x : α} (hx : x ∈ l) (hp : p x = true)
    (huniq : ∀ y ∈ l, p y = true → y = x) : l.find? p = some x := by
  cases h : l.find? p with
  | none => exact absurd hp (List.find?_eq_none.mp h x hx)
  | some y => rw [huniq y (List.mem_of_find?_eq_some h) (List.find?_some h)]

/-- The pairs of code bits that the decoder tries. -/
theorem mem_bitPairs (p : Nat × Nat) :
    p ∈ (List.range 80).flatMap (fun i => (List.range i).map (fun j => (i, j))) ↔ p.2 < p.1 ∧ p.1 < 80 := by
  obtain ⟨i, j⟩ := p
  simp only [List.mem_flatMap, List.mem_map, List.mem_range, Prod.mk.injEq]
  constructor
  · rintro ⟨_, hi, _, hj, rfl, rfl⟩
    exact ⟨hj, hi⟩
  · rintro ⟨hj, hi⟩
    exact ⟨i, hi, j, hj, rfl, rfl⟩

theorem fabricDecode_of_zero {v : Nat} {e : Bool} (h : fabricSyndrome v = 0) :
    fabricDecode v e = fabricDeliver e (v, 0) := by
  simp only [fabricDecode, h, if_true, fabricDeliver]

theorem fabricDecode_of_column {v j : Nat} {e : Bool} (hj : j < 80) (h : fabricSyndrome v = fabricCol j) :
    fabricDecode v e = fabricDeliver e (v ^^^ 2 ^ j, 1) := by
  have hfind : (List.range 80).find? (fun k => fabricCol k == fabricCol j) = some j :=
    find?_eq_some_of_unique (List.mem_range.mpr hj) (beq_self_eq_true _)
      fun k hk hkj => fabricCol_inj (List.mem_range.mp hk) hj (beq_iff_eq.mp hkj)
  simp only [fabricDecode, h, if_neg (fabricCol_ne_zero j), hfind, fabricDeliver]

theorem find?_column_eq_none {s : Nat} (h : ∀ j < 80, s ≠ fabricCol j) : (List.range 80).find? (fun j => fabricCol j == s) = none := by
  rw [List.find?_eq_none]
  intro j hj
  rw [beq_iff_eq]
  exact (h j (List.mem_range.mp hj)).symm

theorem fabricDecode_of_pair {v i j : Nat} {e : Bool} (hji : j < i) (hi : i < 80) (h : fabricSyndrome v = fabricCol i ^^^ fabricCol j) :
    fabricDecode v e = fabricDeliver e (v ^^^ 2 ^ i ^^^ 2 ^ j, 2) := by
  have h0 : fabricCol i ^^^ fabricCol j ≠ 0 := fun h0 =>
    Nat.ne_of_gt hji (fabricCol_inj hi (Nat.lt_trans hji hi) (eq_of_xor_eq_zero h0))
  have hone := find?_column_eq_none fun k _ => fabricCol_xor_ne i j k
  have hfind : ((List.range 80).flatMap (fun i => (List.range i).map (fun j => (i, j)))).find?
      (fun p => fabricCol p.1 ^^^ fabricCol p.2 == fabricCol i ^^^ fabricCol j) = some (i, j) := by
    refine find?_eq_some_of_unique ((mem_bitPairs _).mpr ⟨hji, hi⟩) (beq_self_eq_true _) fun ⟨k, l⟩ hkl hp => ?_
    obtain ⟨hlk, hk⟩ := (mem_bitPairs _).mp hkl
    exact fabricCol_pair_unique hji hi hlk hk (beq_iff_eq.mp hp)
  simp only [fabricDecode, h, if_neg h0, hone, hfind, fabricDeliver]

theorem fabricDecode_of_noColumns {v : Nat} {e : Bool} (h0 : fabricSyndrome v ≠ 0) (h1 : ∀ j < 80, fabricSyndrome v ≠ fabricCol j)
    (h2 : ∀ i j, j < i → i < 80 → fabricSyndrome v ≠ fabricCol i ^^^ fabricCol j) : fabricDecode v e = none := by
  have htwo : ((List.range 80).flatMap (fun i => (List.range i).map (fun j => (i, j)))).find?
      (fun p => fabricCol p.1 ^^^ fabricCol p.2 == fabricSyndrome v) = none := by
    rw [List.find?_eq_none]
    intro p hp
    obtain ⟨hji, hi⟩ := (mem_bitPairs p).mp hp
    rw [beq_iff_eq]
    exact (h2 _ _ hji hi).symm
  simp only [fabricDecode, if_neg h0, find?_column_eq_none h1, htwo]

/-- What is delivered had no error, one, or two that explain its syndrome. -/
theorem fabricDecode_cases {v : Nat} {e : Bool} {r : Nat × Nat} (h : fabricDecode v e = some r) :
    bitOf r.1 79 = e ∧ ((fabricSyndrome v = 0 ∧ r = (v, 0)) ∨ (∃ j < 80, fabricSyndrome v = fabricCol j ∧ r = (v ^^^ 2 ^ j, 1)) ∨
      ∃ i j, j < i ∧ i < 80 ∧ fabricSyndrome v = fabricCol i ^^^ fabricCol j ∧ r = (v ^^^ 2 ^ i ^^^ 2 ^ j, 2)) := by
  have deliver {q} (hd : fabricDecode v e = fabricDeliver e q) : bitOf r.1 79 = e ∧ r = q := by
    rw [hd, fabricDeliver] at h
    split at h
    next hq => cases h; exact ⟨hq, rfl⟩
    next => cases h
  by_cases h0 : fabricSyndrome v = 0
  · exact (deliver (fabricDecode_of_zero h0)).imp_right fun hr => .inl ⟨h0, hr⟩
  by_cases h1 : ∃ j < 80, fabricSyndrome v = fabricCol j
  · obtain ⟨j, hj, hs⟩ := h1
    exact (deliver (fabricDecode_of_column hj hs)).imp_right fun hr => .inr (.inl ⟨j, hj, hs, hr⟩)
  by_cases h2 : ∃ i j, j < i ∧ i < 80 ∧ fabricSyndrome v = fabricCol i ^^^ fabricCol j
  · obtain ⟨i, j, hji, hi, hs⟩ := h2
    exact (deliver (fabricDecode_of_pair hji hi hs)).imp_right fun hr => .inr (.inr ⟨i, j, hji, hi, hs, hr⟩)
  have hnone : fabricDecode v e = none :=
    fabricDecode_of_noColumns h0 (fun j hj hs => h1 ⟨j, hj, hs⟩) fun i j hji hi hs => h2 ⟨i, j, hji, hi, hs⟩
  rw [hnone] at h
  cases h

end Sys2Proof.Machine

namespace Sys2Proof.Claims

open Sys2Proof Sys2Proof.Machine

section
variable (d : Nat) (b : Bool)

/-- The syndrome of an encoded word with some bits inverted is that of the bits. -/
theorem fabricSyndrome_inverted (m : Nat) : fabricSyndrome (fabricEncode d b ^^^ m) = fabricSyndrome m := by
  rw [fabricSyndrome_xor, fabricSyndrome_fabricEncode, Nat.zero_xor]

theorem fabricDeliver_fabricEncode (n : Nat) : fabricDeliver b (fabricEncode d b, n) = some (fabricEncode d b, n) :=
  if_pos (bitOf_fabricEncode d b)

theorem fabricDecode_intact (e : Bool) : fabricDecode (fabricEncode d b) e = fabricDeliver e (fabricEncode d b, 0) :=
  fabricDecode_of_zero (fabricSyndrome_fabricEncode d b)

theorem fabricDecode_one_inverted {i : Nat} (hi : i < 80) :
    fabricDecode (fabricEncode d b ^^^ 2 ^ i) b = some (fabricEncode d b, 1) := by
  rw [fabricDecode_of_column hi (by rw [fabricSyndrome_inverted, fabricSyndrome_two_pow hi]), xor_cancel_right,
    fabricDeliver_fabricEncode]

theorem fabricDecode_two_inverted {i j : Nat} (hij : i < j) (hj : j < 80) :
    fabricDecode (fabricEncode d b ^^^ 2 ^ i ^^^ 2 ^ j) b = some (fabricEncode d b, 2) := by
  have hs : fabricSyndrome (fabricEncode d b ^^^ 2 ^ i ^^^ 2 ^ j) = fabricCol j ^^^ fabricCol i := by
    rw [Nat.xor_assoc, fabricSyndrome_inverted, fabricSyndrome_xor, fabricSyndrome_two_pow (Nat.lt_trans hij hj), fabricSyndrome_two_pow hj,
      Nat.xor_comm]
  rw [fabricDecode_of_pair hij hj hs, xor_cancel_right, xor_cancel_right, fabricDeliver_fabricEncode]

/-- Three columns make an odd sum that is none of the 80: it is no pair's, and with a fourth it would give two pairs one sum. -/
theorem fabricDecode_three_inverted {i j k : Nat} (hij : i < j) (hjk : j < k) (hk : k < 80) (e : Bool) :
    fabricDecode (fabricEncode d b ^^^ 2 ^ i ^^^ 2 ^ j ^^^ 2 ^ k) e = none := by
  have hj := Nat.lt_trans hjk hk
  have hi := Nat.lt_trans hij hj
  have hs : fabricSyndrome (fabricEncode d b ^^^ 2 ^ i ^^^ 2 ^ j ^^^ 2 ^ k) = fabricCol i ^^^ fabricCol j ^^^ fabricCol k := by
    simp only [fabricSyndrome_xor, fabricSyndrome_fabricEncode, Nat.zero_xor, fabricSyndrome_two_pow, hi, hj, hk]
  refine fabricDecode_of_noColumns ?_ ?_ ?_ <;> rw [hs]
  · exact fun h0 => fabricCol_xor_ne i j k (eq_of_xor_eq_zero h0)
  · intro l _ hl
    have hpair : fabricCol i ^^^ fabricCol j = fabricCol k ^^^ fabricCol l := by
      rw [← hl, Nat.xor_comm (fabricCol k), xor_cancel_right]
    rcases fabricCol_pair_inj hi hj hk (Nat.ne_of_lt hij) hpair with h | h <;> omega
  · exact fun l m _ _ => fabricCol_xor_xor_ne i j k l m

end

/-- What is delivered is a code word with the sequence bit that is due, as many bits away as are counted. -/
theorem fabricDecode_delivers {v r n : Nat} {b : Bool} (h : fabricDecode v b = some (r, n)) :
    n ≤ 2 ∧ popcount 80 (v ^^^ r) = n ∧ fabricSyndrome r = 0 ∧ bitOf r 79 = b := by
  obtain ⟨hseq, ⟨hs, hr⟩ | ⟨j, hj, hs, hr⟩ | ⟨i, j, hji, hi, hs, hr⟩⟩ := fabricDecode_cases h <;>
    obtain ⟨rfl, rfl⟩ := Prod.mk.inj hr
  · exact ⟨by omega, by rw [Nat.xor_self, popcount_zero], hs, hseq⟩
  · refine ⟨by omega, ?_, ?_, hseq⟩
    · rw [xor_cancel_left, popcount_two_pow, if_pos hj]
    · rw [fabricSyndrome_xor, hs, fabricSyndrome_two_pow hj, Nat.xor_self]
  · have hj := Nat.lt_trans hji hi
    refine ⟨Nat.le_refl 2, ?_, ?_, hseq⟩
    · rw [Nat.xor_assoc, xor_cancel_left, popcount_two_pow_xor hi hj (Nat.ne_of_gt hji)]
    · rw [Nat.xor_assoc, fabricSyndrome_xor, fabricSyndrome_xor, hs, fabricSyndrome_two_pow hi, fabricSyndrome_two_pow hj, Nat.xor_self]

/-- Settles O56: an encoded word has syndrome zero, the sums of up to two columns are all different, and those of three are none of them. -/
theorem fabricCorrects : Obligations.FabricCorrects := by
  unfold Obligations.FabricCorrects
  intro d b hd w
  refine ⟨?_, ?_, ?_, fun i hi => fabricDecode_one_inverted d b hi, fun i j hij hj => fabricDecode_two_inverted d b hij hj,
    fun i j k hij hjk hk => fabricDecode_three_inverted d b hij hjk hk b, fun v r n _ h => fabricDecode_delivers h⟩
  · have := fabricEncode_div d b
    omega
  · rw [fabricDecode_intact, fabricDeliver_fabricEncode]
  · rw [fabricDecode_intact, fabricDeliver, bitOf_fabricEncode, if_neg (by simp)]

end Sys2Proof.Claims
end
